-- ==== Sys2Proof/Word.lean ====
section
/-! DEFINITION. The word types, the names of the device's units, and sparse tables in one canonical form. -/

namespace Sys2Proof

/-- A 64-bit word: a g or f register, a descriptor word (R89). -/
abbrev Word := BitVec 64

/-- The contents of a v register: VLEN is 1,024 bits in the KLC-3072 (R168). -/
abbrev VWord := BitVec 1024

/-- The contents of a predicate, one bit for each byte lane (R89). -/
abbrev PWord := BitVec 128

/-- A byte. -/
abbrev Byte := BitVec 8

/-- VLEN (R168, R188). -/
abbrev vlen : Nat := 1024

/-- The five kinds of core, in the order of CORECFG.KIND (R102). -/
inductive Kind where
  | compute | transfer | control | memory | management
  deriving DecidableEq, Repr

/-- The two threads of a core (R86). -/
inductive Thread where
  | a | x
  deriving DecidableEq, Repr

/-- A physical octet: its cluster (R14) and its index within the cluster. -/
structure OctName where
  cl : Fin 16
  oct : Fin 24
  deriving DecidableEq, Repr

/-- The octet's number in the device, 0 to 383. -/
def OctName.index (o : OctName) : Nat := 24 * o.cl.val + o.oct.val

/-- A core by its physical place (R14, R15). -/
inductive CoreName where
  | compute (o : OctName) (x : Fin 8)
  | transfer (o : OctName)
  | control (cl : Fin 16)
  | memory (s : Fin 12) (c : Fin 16)
  | management
  deriving DecidableEq, Repr

/-- The kind of a core (R102). -/
def CoreName.kind : CoreName → Kind
  | .compute _ _ => .compute
  | .transfer _ => .transfer
  | .control _ => .control
  | .memory _ _ => .memory
  | .management => .management

/-- A number for each core: the key under which its state and its local memory are held. -/
def CoreName.index : CoreName → Nat
  | .compute o x => 8 * o.index + x.val
  | .transfer o => 3072 + o.index
  | .control cl => 3456 + cl.val
  | .memory s c => 3472 + 16 * s.val + c.val
  | .management => 3664

/-- An octet by its number. -/
def OctName.ofIndex (n : Nat) : OctName := ⟨Fin.ofNat 16 (n / 24), Fin.ofNat 24 n⟩

/-- A core by its number. -/
def CoreName.ofIndex (n : Nat) : CoreName :=
  if n < 3072 then .compute (OctName.ofIndex (n / 8)) (Fin.ofNat 8 n)
  else if n < 3456 then .transfer (OctName.ofIndex (n - 3072))
  else if n < 3472 then .control (Fin.ofNat 16 (n - 3456))
  else if n < 3664 then .memory (Fin.ofNat 12 ((n - 3472) / 16)) (Fin.ofNat 16 (n - 3472))
  else .management

/-- The octet a compute or transfer core stands in. -/
def CoreName.octet? : CoreName → Option OctName
  | .compute o _ => some o
  | .transfer o => some o
  | _ => none

/-- The cluster of a compute, transfer or control core (R14, R15). -/
def CoreName.cluster? : CoreName → Option (Fin 16)
  | .compute o _ => some o.cl
  | .transfer o => some o.cl
  | .control cl => some cl
  | _ => none

/-- The compute die a core stands on (R11, R15). -/
def CoreName.die : CoreName → Nat
  | .compute o _ => o.cl.val / 4
  | .transfer o => o.cl.val / 4
  | .control cl => cl.val / 4
  | .memory s _ => s.val / 3
  | .management => 0

/-- Kinds C and M have an X-thread (R37). -/
def CoreName.hasX (c : CoreName) : Bool :=
  match c.kind with
  | .compute => true
  | .memory => true
  | _ => false

/-- A group by its context, its kernel's id and its group id (R358, R370). -/
structure GroupKey where
  ctx : Nat
  kid : Nat
  gid : Nat
  deriving DecidableEq, Repr

/-- The kinds of external port, in the order of the port code word (R433). -/
inductive PortKind where
  | scaleUp | cxl | umval | frame
  deriving DecidableEq, Repr

/-- A port: its kind and its index within the kind (R433). -/
structure PortName where
  kind : PortKind
  idx : Fin 18
  deriving DecidableEq, Repr

/-- The key under which a port's state is held. -/
def PortName.index (p : PortName) : Nat :=
  (match p.kind with | .scaleUp => 0 | .cxl => 32 | .umval => 64 | .frame => 96) + p.idx.val

/-- The line kind of an adapter-cache line (R246). -/
inductive LineKind where
  | la | lb
  deriving DecidableEq, Repr

/-- The tag of an adapter-cache line: identifier, kind, number (R246). -/
structure LineKey where
  id : Nat
  kind : LineKind
  j : Nat
  deriving DecidableEq, Repr

/-- A sparse table: key and value pairs with rising keys, no pair holding the default value. -/
abbrev Tbl (α : Type) := List (Nat × α)

/-- Reading a table: the first pair of the key, else the default. -/
def Tbl.get {α : Type} (d : α) : Tbl α → Nat → α
  | [], _ => d
  | (k', v) :: t, k => if k' = k then v else Tbl.get d t k

/-- Inserting a pair before the first larger key. -/
def Tbl.insert {α : Type} (k : Nat) (v : α) : Tbl α → Tbl α
  | [] => [(k, v)]
  | (k', v') :: t => if k < k' then (k, v) :: (k', v') :: t else (k', v') :: Tbl.insert k v t

/-- Removing every pair of a key. -/
def Tbl.erase {α : Type} (k : Nat) : Tbl α → Tbl α
  | [] => []
  | (k', v') :: t => if k' = k then Tbl.erase k t else (k', v') :: Tbl.erase k t

/-- Writing a table: the default value is held by holding no pair. -/
def Tbl.set {α : Type} [DecidableEq α] (d : α) (t : Tbl α) (k : Nat) (v : α) : Tbl α :=
  if v = d then Tbl.erase k t else Tbl.insert k v (Tbl.erase k t)

/-- Changing one entry of a table. -/
def Tbl.upd {α : Type} [DecidableEq α] (d : α) (t : Tbl α) (k : Nat) (f : α → α) : Tbl α :=
  Tbl.set d t k (f (Tbl.get d t k))

/-- The canonical form: strictly rising keys and no pair with the default value. -/
def Tbl.wf {α : Type} [DecidableEq α] (d : α) : Tbl α → Bool
  | [] => true
  | [(_, v)] => decide (v ≠ d)
  | (k, v) :: (k', v') :: t => decide (v ≠ d) && decide (k < k') && Tbl.wf d ((k', v') :: t)

/-- Bits [lo+n−1 : lo] of a number (R2). -/
def bits (w lo n : Nat) : Nat := w / 2 ^ lo % 2 ^ n

/-- A number below 2^n read as two's complement. -/
def sext (n w : Nat) : Int := if w % 2 ^ n < 2 ^ (n - 1) then (w % 2 ^ n : Nat) else ((w % 2 ^ n : Nat) : Int) - 2 ^ n

/-- The low n bits of an integer, as an unsigned number (wrap to n-bit two's complement, R8). -/
def wrapN (n : Nat) (x : Int) : Nat := (x % (2 ^ n : Int)).toNat

/-- `int64(x)` of R8. -/
def int64 (x : Int) : Word := BitVec.ofInt 64 x

/-- `sat(x, lo, hi)` of R8. -/
def satI (x lo hi : Int) : Int := if x < lo then lo else if hi < x then hi else x

/-- The ceiling of a quotient. -/
def ceilDiv (a b : Nat) : Nat := (a + b - 1) / b

end Sys2Proof
end

