-- ==== Sys2Proof/Syntax.lean ====
section
/-! DEFINITION. The instructions and device steps: one constructor for each row of spec/opcode_table.json, in its order. -/

namespace Sys2Proof

/-- A register field: 5 bits (R32). The class of register it names is the instruction's. -/
abbrev Reg := Fin 32

/-- What another device of the load-store domain asks of this one (R441). -/
inductive RemoteReq where
  | read (n : Nat)
  | write (data : List Byte)
  | amo (op : Nat) (double : Bool) (y x : Word)
  | add (fmt : Nat) (v : Word)
  | acq (write : Bool) (holder : Word)
  | rel (write : Bool)
  deriving DecidableEq, Repr

/-- The code of one kind of core as a firmware image carries it: bytes laid at 0, execute boundary divided
by 256, and the X-thread's entry. -/
structure CodeImage where
  bytes : List Byte
  xb : Nat
  xEntry : Nat
  deriving DecidableEq, Repr

/-- A firmware image as the boot ROM and the update see it (R458, R459): the outcome of each signature
check, its version, its measurement, and the code of the management core, the control cores, the transfer
cores and the memory cores. -/
structure Image where
  rsaOk : Bool
  slhOk : Bool
  version : Nat
  measurement : BitVec 384
  mgmt : CodeImage
  ctrl : CodeImage
  xfer : CodeImage
  memory : CodeImage
  deriving DecidableEq, Repr

/-- A write of a requester over I3C: an offset and bytes (R460). -/
structure I3cWrite where
  off : Nat
  data : List Byte
  deriving DecidableEq, Repr

/-- The rows of spec/opcode_table.json. The first 315 are instruction words with their operand fields; the
rest are the steps of the device that no word of a program causes by itself, with the place each acts on
and what the world outside supplies. -/
inductive Instr where
  | hintImm (d : BitVec 22)
  | hintMod (m : BitVec 4)
  | hintBr (b : BitVec 2)
  | trap (c : BitVec 12)
  | hret
  | wait (d a : Reg) (l : Bool) (e : BitVec 4)
  | csrr (d : Reg) (c : BitVec 12)
  | csrw (d a : Reg) (c : BitVec 12)
  | csrs (d a : Reg) (c : BitVec 12)
  | csrc (d a : Reg) (c : BitVec 12)
  | setxb (d a : Reg)
  | gangForm (d : Reg) (n : Fin 8)
  | gangJoin (d : Reg)
  | gangEnd (d : Reg)
  | nop
  | beq (a b : Reg) (o : BitVec 13)
  | bne (a b : Reg) (o : BitVec 13)
  | blt (a b : Reg) (o : BitVec 13)
  | bge (a b : Reg) (o : BitVec 13)
  | bltu (a b : Reg) (o : BitVec 13)
  | bgeu (a b : Reg) (o : BitVec 13)
  | jal (d : Reg) (o : BitVec 19)
  | call (d : Reg) (o : BitVec 19)
  | jalr (d a : Reg) (i : BitVec 14)
  | ret (a : Reg)
  | bpany (p : Fin 8) (o : BitVec 13)
  | bpnone (p : Fin 8) (o : BitVec 13)
  | bpall (p : Fin 8) (o : BitVec 13)
  | bpnall (p : Fin 8) (o : BitVec 13)
  | bfz (f : Reg) (o : BitVec 13)
  | bfnz (f : Reg) (o : BitVec 13)
  | bfltz (f : Reg) (o : BitVec 13)
  | bfgez (f : Reg) (o : BitVec 13)
  | pushmG (d a : Reg)
  | pushmF (d a : Reg)
  | pushmV (d a : Reg)
  | popmG (d a : Reg)
  | popmF (d a : Reg)
  | popmV (d a : Reg)
  | add (d a b : Reg)
  | sub (d a b : Reg)
  | and (d a b : Reg)
  | or (d a b : Reg)
  | xor (d a b : Reg)
  | sll (d a b : Reg)
  | srl (d a b : Reg)
  | sra (d a b : Reg)
  | slt (d a b : Reg)
  | sltu (d a b : Reg)
  | min (d a b : Reg)
  | max (d a b : Reg)
  | minu (d a b : Reg)
  | maxu (d a b : Reg)
  | rol (d a b : Reg)
  | ror (d a b : Reg)
  | clz (d a : Reg)
  | ctz (d a : Reg)
  | popc (d a : Reg)
  | addi (d a : Reg) (i : BitVec 12)
  | andi (d a : Reg) (i : BitVec 12)
  | ori (d a : Reg) (i : BitVec 12)
  | xori (d a : Reg) (i : BitVec 12)
  | slti (d a : Reg) (i : BitVec 12)
  | sltiu (d a : Reg) (i : BitVec 12)
  | slli (d a : Reg) (s : Fin 64)
  | srli (d a : Reg) (s : Fin 64)
  | srai (d a : Reg) (s : Fin 64)
  | rori (d a : Reg) (s : Fin 64)
  | lui (d : Reg) (i : BitVec 16)
  | luih (d : Reg) (i : BitVec 16)
  | luit (d : Reg) (i : BitVec 16)
  | addpc (d : Reg) (i : BitVec 16)
  | mul (d a b : Reg)
  | mulh (d a b : Reg)
  | mulhu (d a b : Reg)
  | div (d a b : Reg)
  | divu (d a b : Reg)
  | rem (d a b : Reg)
  | remu (d a b : Reg)
  | ldb (d a : Reg) (i : BitVec 12)
  | ldbu (d a : Reg) (i : BitVec 12)
  | ldh (d a : Reg) (i : BitVec 12)
  | ldhu (d a : Reg) (i : BitVec 12)
  | ldw (d a : Reg) (i : BitVec 12)
  | ldwu (d a : Reg) (i : BitVec 12)
  | ldd (d a : Reg) (i : BitVec 12)
  | xpref (a : Reg) (i : BitVec 12)
  | stb (s b : Reg) (i : BitVec 12)
  | sth (s b : Reg) (i : BitVec 12)
  | stw (s b : Reg) (i : BitVec 12)
  | std (s b : Reg) (i : BitVec 12)
  | stn (s b : Reg) (i : BitVec 12)
  | amoadd (d a b : Reg) (w : Bool)
  | amoand (d a b : Reg) (w : Bool)
  | amoor (d a b : Reg) (w : Bool)
  | amoxor (d a b : Reg) (w : Bool)
  | amomin (d a b : Reg) (w : Bool)
  | amomax (d a b : Reg) (w : Bool)
  | amominu (d a b : Reg) (w : Bool)
  | amomaxu (d a b : Reg) (w : Bool)
  | amoswap (d a b : Reg) (w : Bool)
  | amocas (d a b : Reg) (w : Bool)
  | bind (s a b : Reg)
  | acq (a : Reg)
  | acqr (a : Reg)
  | rel (a : Reg)
  | fence (s : Reg)
  | discard (m a b : Reg)
  | scfg (n : Fin 4) (a b : Reg)
  | sdim (k n : Fin 4) (a b : Reg)
  | sind (n m : Fin 4) (b : Reg)
  | sman (n : Fin 4) (b : Reg)
  | sen (n : Fin 4)
  | sdis (n : Fin 4)
  | sflush (n : Fin 4)
  | ldq (n : Fin 4) (a : Reg)
  | stq (n : Fin 4) (a : Reg)
  | qput (a : Reg)
  | qget (d : Reg)
  | rpt (a : Reg) (m : BitVec 4) (p : Fin 4) (l : Fin 16)
  | send (c a b : Reg)
  | sendm (c a b : Reg)
  | recv (d a b : Reg)
  | recvm (d a b : Reg)
  | mark
  | radv (d : Reg)
  | chstatState (d a : Reg)
  | chstatDecl (d a : Reg)
  | chstatClose (d a : Reg)
  | chstatKword (d : Reg)
  | chstatRound (d : Reg)
  | chstatSeq (d a : Reg)
  | kickRing (a b : Reg)
  | kickMbox (a b : Reg)
  | kickDone (a b : Reg)
  | kickDonerec (a b : Reg)
  | bcfg (a : Reg) (k : Fin 4)
  | barr (k : Fin 4)
  | bwait (k : Fin 4)
  | bsync (k : Fin 4)
  | btest (d : Reg) (k : Fin 4)
  | rqpush (c : Bool) (a b : Reg)
  | next (a : Reg)
  | nextw (d : Reg)
  | append (d a b : Reg)
  | take (d a : Reg)
  | takeEndHold (d a : Reg)
  | tdarm (a b : Reg)
  | launch (d a b : Reg)
  | lwait (d a : Reg)
  | cancel (d a : Reg)
  | cntrd (d a : Reg)
  | ginfo (d i b : Reg)
  | gdone (a : Reg)
  | evpop (d a : Reg)
  | evpush (d a b : Reg)
  | preempt (d a : Reg)
  | save (d a : Reg)
  | restore (d a : Reg)
  | pinv (d a b : Reg)
  | pprobe (d a b : Reg)
  | chkpair (d a : Reg)
  | hmigrate (d a : Reg)
  | frpop (d a : Reg)
  | timerd (d a : Reg)
  | lstatRead (d a : Reg)
  | lstatEnable (d a : Reg)
  | lstatDisable (d a : Reg)
  | lstatRetrain (d a : Reg)
  | fadd (d a b : Reg) (p : Fin 8) (t : Fin 16)
  | fsub (d a b : Reg) (p : Fin 8) (t : Fin 16)
  | fmul (d a b : Reg) (p : Fin 8) (t : Fin 16)
  | fdiv (d a b : Reg) (p : Fin 8) (t : Fin 16)
  | fsqrt (d a : Reg) (p : Fin 8) (t : Fin 16)
  | fmin (d a b : Reg) (p : Fin 8) (t : Fin 16)
  | fmax (d a b : Reg) (p : Fin 8) (t : Fin 16)
  | fsgnj (d a b : Reg) (p : Fin 8) (t : Fin 16)
  | fsgnjn (d a b : Reg) (p : Fin 8) (t : Fin 16)
  | fsgnjx (d a b : Reg) (p : Fin 8) (t : Fin 16)
  | fclass (d a : Reg) (p : Fin 8) (t : Fin 16)
  | fmov (d a : Reg) (p : Fin 8) (t : Fin 16)
  | fmadd (d a b c : Reg) (t : Fin 4)
  | fmsub (d a b c : Reg) (t : Fin 4)
  | fnmadd (d a b c : Reg) (t : Fin 4)
  | fnmsub (d a b c : Reg) (t : Fin 4)
  | fcvt (d a : Reg) (s : Fin 16) (p : Fin 8) (t : Fin 16)
  | feq (d a b : Reg) (p : Fin 8) (t : Fin 16)
  | flt (d a b : Reg) (p : Fin 8) (t : Fin 16)
  | fle (d a b : Reg) (p : Fin 8) (t : Fin 16)
  | funord (d a b : Reg) (p : Fin 8) (t : Fin 16)
  | fcvtfl (d a : Reg) (p : Fin 8) (t : Fin 16)
  | fcvtlf (d a : Reg) (p : Fin 8) (t : Fin 16)
  | iadd (d a b : Reg) (p : Fin 8)
  | isub (d a b : Reg) (p : Fin 8)
  | imul (d a b : Reg) (p : Fin 8)
  | iand (d a b : Reg) (p : Fin 8)
  | ior (d a b : Reg) (p : Fin 8)
  | ixor (d a b : Reg) (p : Fin 8)
  | isll (d a b : Reg) (p : Fin 8)
  | isrl (d a b : Reg) (p : Fin 8)
  | isra (d a b : Reg) (p : Fin 8)
  | imin (d a b : Reg) (p : Fin 8)
  | imax (d a b : Reg) (p : Fin 8)
  | iminu (d a b : Reg) (p : Fin 8)
  | imaxu (d a b : Reg) (p : Fin 8)
  | islt (d a b : Reg) (p : Fin 8)
  | isltu (d a b : Reg) (p : Fin 8)
  | imovi (d : Reg) (i : BitVec 10) (p : Fin 8)
  | vadd (d a b : Reg) (p : Fin 8) (t : Fin 16)
  | vsub (d a b : Reg) (p : Fin 8) (t : Fin 16)
  | vmul (d a b : Reg) (p : Fin 8) (t : Fin 16)
  | vmin (d a b : Reg) (p : Fin 8) (t : Fin 16)
  | vmax (d a b : Reg) (p : Fin 8) (t : Fin 16)
  | vminu (d a b : Reg) (p : Fin 8) (t : Fin 16)
  | vmaxu (d a b : Reg) (p : Fin 8) (t : Fin 16)
  | vand (d a b : Reg) (p : Fin 8) (t : Fin 16)
  | vor (d a b : Reg) (p : Fin 8) (t : Fin 16)
  | vxor (d a b : Reg) (p : Fin 8) (t : Fin 16)
  | vsll (d a b : Reg) (p : Fin 8) (t : Fin 16)
  | vsrl (d a b : Reg) (p : Fin 8) (t : Fin 16)
  | vsra (d a b : Reg) (p : Fin 8) (t : Fin 16)
  | vmulh (d a b : Reg) (p : Fin 8) (t : Fin 16)
  | vmulhu (d a b : Reg) (p : Fin 8) (t : Fin 16)
  | vabsd (d a b : Reg) (p : Fin 8) (t : Fin 16)
  | vfadd (d a b : Reg) (p : Fin 8) (t : Fin 16)
  | vfsub (d a b : Reg) (p : Fin 8) (t : Fin 16)
  | vfmul (d a b : Reg) (p : Fin 8) (t : Fin 16)
  | vfdiv (d a b : Reg) (p : Fin 8) (t : Fin 16)
  | vfsqrt (d a : Reg) (p : Fin 8) (t : Fin 16)
  | vfmin (d a b : Reg) (p : Fin 8) (t : Fin 16)
  | vfmax (d a b : Reg) (p : Fin 8) (t : Fin 16)
  | vfabs (d a : Reg) (p : Fin 8) (t : Fin 16)
  | vfneg (d a : Reg) (p : Fin 8) (t : Fin 16)
  | vfeq (d a b : Reg) (p : Fin 8) (t : Fin 16)
  | vflt (d a b : Reg) (p : Fin 8) (t : Fin 16)
  | vfle (d a b : Reg) (p : Fin 8) (t : Fin 16)
  | vsel (d a b : Reg) (p : Fin 8) (t : Fin 16)
  | vfmadd (d a b c : Reg) (p t : Fin 4)
  | vfmsub (d a b c : Reg) (p t : Fin 4)
  | vfnmadd (d a b c : Reg) (p t : Fin 4)
  | vfnmsub (d a b c : Reg) (p t : Fin 4)
  | vperm (d a b : Reg) (p : Fin 8) (t : Fin 16)
  | vbcast (d a : Reg) (p : Fin 8) (t : Fin 16)
  | vslup (d a b : Reg) (p : Fin 8) (t : Fin 16)
  | vsldn (d a b : Reg) (p : Fin 8) (t : Fin 16)
  | vcompr (d a : Reg) (p : Fin 8) (t : Fin 16)
  | vexpnd (d a : Reg) (p : Fin 8) (t : Fin 16)
  | vrsum (d a : Reg) (p : Fin 8) (t : Fin 16)
  | vrmax (d a : Reg) (p : Fin 8) (t : Fin 16)
  | vrmin (d a : Reg) (p : Fin 8) (t : Fin 16)
  | vtopk (d a b : Reg) (p : Fin 8) (t : Fin 16)
  | vzip (d a b : Reg) (p : Fin 8) (t : Fin 16)
  | vunzip (d a b : Reg) (p : Fin 8) (t : Fin 16)
  | vrev (d a : Reg) (p : Fin 8) (t : Fin 16)
  | pand (d a b : Reg) (p : Fin 8)
  | por (d a b : Reg) (p : Fin 8)
  | pxor (d a b : Reg) (p : Fin 8)
  | pnot (d a : Reg) (p : Fin 8)
  | loopp (d a b : Reg) (p : Fin 8) (t : Fin 16)
  | vcmpeq (d a b : Reg) (p : Fin 8) (t : Fin 16)
  | vcmplt (d a b : Reg) (p : Fin 8) (t : Fin 16)
  | vcmpltu (d a b : Reg) (p : Fin 8) (t : Fin 16)
  | vcmple (d a b : Reg) (p : Fin 8) (t : Fin 16)
  | vcmpleu (d a b : Reg) (p : Fin 8) (t : Fin 16)
  | pcnt (d a : Reg) (p : Fin 8) (t : Fin 16)
  | pfirst (d a : Reg) (p : Fin 8) (t : Fin 16)
  | vcvt (d a : Reg) (s : Fin 16) (p : Fin 8) (t : Fin 16)
  | vcvtr (d a : Reg) (s : Fin 16) (k : Fin 8) (t : Fin 16)
  | vderot (d a : Reg) (s : Fin 16) (k : Fin 8) (t : Fin 16)
  | hsld (k a : Reg) (b : Fin 4)
  | hsrd (d : Reg) (k : Fin 8)
  | vppe (d a t : Reg) (p : Fin 8)
  | ppld (t a b : Reg) (p : Fin 8)
  | vrng (d a b : Reg) (p : Fin 8) (t : Fin 16)
  | vlq (d : Reg)
  | vmovf (d a b : Reg) (t : Fin 16)
  | mma (d a b : Reg)
  | mmaz (d a b : Reg)
  | mmaad (d a b : Reg)
  | msca (d a b : Reg)
  | mscars (d a b : Reg)
  | geom (d a : Reg)
  | msync
  | psrd (d k b : Reg)
  | halloc (d a : Reg)
  | hfree (a : Reg)
  | hcfg (a b : Reg)
  | hrowld (a b : Reg)
  | hrowst (d a : Reg)
  | hcolld (a b : Reg)
  | hcolst (d a : Reg)
  | hzero (a : Reg)
  | hdrain (a : Reg)
  | hrescale (a : Reg)
  | hstat (d a : Reg)
  | reda (k a b : Reg)
  | redx (d k b : Reg)
  | adtbl (a b : Reg)
  | ainv (a : Reg)
  | apref (a b : Reg)
  | astat (d a : Reg)
  | xld (d a : Reg)
  | xst (d a : Reg)
  | xldcol (d a : Reg)
  | xstcol (d a : Reg)
  | xgath (d a : Reg)
  | xscat (d a : Reg)
  | xred (d a : Reg)
  | xprog (d a : Reg)
  | xpush (d a b : Reg)
  | xpull (d a b : Reg)
  | xwait (d a : Reg)
  | xsect (d a b : Reg)
  | xexp24 (d a w : Reg)
  | xbdot (d a b : Reg)
  | placeCastOn (cl : Fin 16) (w : Word)
  | ctxmapSelect (cl : Fin 16) (w : Word)
  | ctxmapWriteSlot (cl : Fin 16) (w : Word)
  | ctxmapWriteSab (cl : Fin 16) (w : Word)
  | isocfgSelect (cl : Fin 16) (w : Word)
  | isocfgSet (cl : Fin 16) (w : Word)
  | arbwWrite (cl : Fin 16) (w : Word)
  | evqbaseWrite (cl : Fin 16) (w : Word)
  | registerWrite (c : CoreName) (t : Thread) (n : BitVec 12) (w : Word)
  | waitReasonClears (c : CoreName) (t : Thread)
  | waitDeadline (c : CoreName) (t : Thread)
  | streamRequest (c : CoreName) (n : Fin 4)
  | streamElementArrival (c : CoreName) (n : Fin 4)
  | streamWritePerform (c : CoreName) (n : Fin 4)
  | accessPerformed (c : CoreName) (t : Thread)
  | relaxedStoreAck (c : CoreName)
  | matrixAccept (o : OctName) (x : Fin 8)
  | arbiterTake (o : OctName)
  | matrixExecute (o : OctName)
  | matrixComplete (o : OctName) (id : Nat)
  | hdrainImageAck (o : OctName) (id : Nat)
  | adapterFillArrival (o : OctName) (line : LineKey)
  | rowReplay (o : OctName)
  | externalElement (c : CoreName) (t : Thread)
  | transferElement (c : CoreName) (id : Nat) (i : Nat)
  | transferEnd (c : CoreName) (id : Nat)
  | sectorLineAccess (s : Fin 12) (addr : BitVec 36) (col write : Bool)
  | stationWalkEnd (s : Fin 12)
  | faultQueueRoom (s : Fin 12)
  | remoteRequest (ctx : BitVec 12) (va : BitVec 60) (r : RemoteReq)
  | recordDelivery (c : CoreName) (ch : Fin 16)
  | creditReturn (c : CoreName) (ch : Fin 16)
  | deliveryResume (c : CoreName) (ch : Fin 16)
  | channelWaitExpiry (c : CoreName)
  | barrierArrivalCombine (c : CoreName) (k : Fin 4)
  | barrierCornerFire (c : CoreName) (k : Fin 4)
  | barrierReleaseReceipt (c : CoreName) (k : Fin 4)
  | barrierBrokenNotice (c : CoreName) (k : Fin 4)
  | barrierBrokenRelease (c : CoreName) (k : Fin 4)
  | castOnOctetLoaded (o : OctName)
  | castOnImageFailure (cl : Fin 16)
  | priorityAging (ctx kid : Nat)
  | groupPlacement (cl : Fin 16)
  | rangeRequestArrival (die : Fin 4)
  | rangeStep (die : Fin 4)
  | rangeReturnHeld (die : Fin 4)
  | eventHeldStore (cl : Fin 16)
  | vacateDeadline (g : GroupKey)
  | contextSaveBegin (g : GroupKey)
  | contextSaveComplete (g : GroupKey)
  | restoreComplete (cl : Fin 16)
  | portTrainingEnd (p : PortName) (lanes : Nat)
  | portTrainingTimeout (p : PortName)
  | portLaneLoss (p : PortName) (lanes : Nat)
  | portFailure (p : PortName)
  | ptpMessage (sec : BitVec 48) (ns : BitVec 32) (frac : BitVec 16) (locked : Bool)
  | frameIngress (p : Fin 4) (frame : List Byte) (fcsOk : Bool)
  | frameBankFlip (w : Word)
  | hostTailKick (ctx : BitVec 12) (tail : BitVec 32)
  | hostCmdLaunch (ctx : BitVec 12)
  | hostCmdCancel (ctx : BitVec 12)
  | hostCmdAdmit (block : BitVec 52) (ring cplRing : BitVec 52) (szl : BitVec 4) (cl : Fin 16)
  | hostCmdRelease
  | powerOn (badOctets badCores : List Nat)
  | attestationRequest (w : I3cWrite)
  | attestationReport
  | updateImageWrite (img : Image)
  | updateClusterSwitch (cl : Fin 16) (selfCheck : Bool)
  | islandStart (n : Fin 1024)
  | islandIdleStop (n : Fin 1024)
  | islandStopRequest (n : Fin 1024)
  | partFault (n : Fin 592)
  | controlCoreReset (cl : Fin 16)
  | illegalInstr
  | fetchBoundary
  | fetchEccFailure
  | packagePowerLimit (reached : Bool)
  | powerLoss
  | hostMemoryAccess (pa : BitVec 52) (data : Option (List Byte))
  deriving DecidableEq, Repr

end Sys2Proof
end

