-- ==== Sys2Proof/WellFormed.lean ====
section
/-! DEFINITION. Which field values the entries of the instructions allow (R36): every other value is reserved, and a
word that holds it is no instruction (R40). What depends on the thread or on the kind of core stands with the
meanings. -/

namespace Sys2Proof

/-- The bits of an element of a format code (R35, R57, R58). -/
def codeWidth (t : Nat) : Nat := [3, 4, 8, 8, 8, 16, 16, 32, 64, 16, 32].getD t 0

/-- A one-bit field. -/
def bit (b : Bool) : Nat := if b then 1 else 0

/-- A format code: 11 to 15 are reserved (R57). -/
def isCode (t : Nat) : Bool := t ≤ 10

/-- The four formats of float arithmetic (R175). -/
def isFloat (t : Nat) : Bool := 5 ≤ t && t ≤ 8

/-- Every floating-point format (R58). -/
def isFloatCode (t : Nat) : Bool := 3 ≤ t && t ≤ 8

/-- The integer lane formats (R180). -/
def isLaneInt (t : Nat) : Bool := t == 2 || t == 9 || t == 10

/-- The codes of the permutes (R184). -/
def isPermute (t : Nat) : Bool := t == 2 || (5 ≤ t && t ≤ 10)

/-- The codes of at least one byte (R183, R188). -/
def isWide (t : Nat) : Bool := 2 ≤ t && t ≤ 10

/-- The assigned CSR numbers (R100). -/
def csrNumbers : List Nat :=
  [0x000, 0x001, 0x002, 0x003, 0x004, 0x008, 0x009, 0x00A, 0x00B, 0x00C, 0x00D, 0x010, 0x011, 0x012, 0x014, 0x015,
   0x016, 0x018, 0x019, 0x01C, 0x01D, 0x01E, 0x020, 0x021, 0x022, 0x028, 0x029, 0x02A, 0x02B, 0x030, 0x050, 0x051,
   0x052, 0x800, 0x808, 0x809, 0x810, 0x818, 0x820, 0x828]

/-- The assigned CSR numbers whose Write column is a dash (R100). -/
def csrReadOnly : List Nat :=
  [0x000, 0x001, 0x002, 0x003, 0x004, 0x00D, 0x018, 0x019, 0x028, 0x029, 0x030, 0x050, 0x051, 0x052, 0x800, 0x809]

def csrAssigned (n : Nat) : Bool := csrNumbers.contains n
def csrWritable (n : Nat) : Bool := csrAssigned n && !csrReadOnly.contains n

/-- An instruction whose fields hold no reserved value (R36, R101). A device step has no fields a word could give. -/
def Instr.wellFormed : Instr → Bool
  | .hintImm _ => true
  | .hintMod m => m.toNat != 0
  | .hintBr b => b.toNat == 1 || b.toNat == 2
  | .trap _ => true
  | .hret => true
  | .wait _ a l e => bit l == 1 || (e.toNat != 0 && a.val == 0)
  | .csrr _ c => csrAssigned c.toNat
  | .csrw _ _ c => csrWritable c.toNat
  | .csrs _ _ c => csrWritable c.toNat
  | .csrc _ _ c => csrWritable c.toNat
  | .setxb _ _ => true
  | .gangForm _ n => n.val != 0
  | .gangJoin _ => true
  | .gangEnd _ => true
  | .nop => true
  | .beq _ _ _ => true
  | .bne _ _ _ => true
  | .blt _ _ _ => true
  | .bge _ _ _ => true
  | .bltu _ _ _ => true
  | .bgeu _ _ _ => true
  | .jal _ _ => true
  | .call _ _ => true
  | .jalr _ _ _ => true
  | .ret _ => true
  | .bpany _ _ => true
  | .bpnone _ _ => true
  | .bpall _ _ => true
  | .bpnall _ _ => true
  | .bfz _ _ => true
  | .bfnz _ _ => true
  | .bfltz _ _ => true
  | .bfgez _ _ => true
  | .pushmG d a => d.val ≤ a.val
  | .pushmF d a => d.val ≤ a.val
  | .pushmV d a => d.val ≤ a.val
  | .popmG d a => d.val ≤ a.val
  | .popmF d a => d.val ≤ a.val
  | .popmV d a => d.val ≤ a.val
  | .add _ _ _ => true
  | .sub _ _ _ => true
  | .and _ _ _ => true
  | .or _ _ _ => true
  | .xor _ _ _ => true
  | .sll _ _ _ => true
  | .srl _ _ _ => true
  | .sra _ _ _ => true
  | .slt _ _ _ => true
  | .sltu _ _ _ => true
  | .min _ _ _ => true
  | .max _ _ _ => true
  | .minu _ _ _ => true
  | .maxu _ _ _ => true
  | .rol _ _ _ => true
  | .ror _ _ _ => true
  | .clz _ _ => true
  | .ctz _ _ => true
  | .popc _ _ => true
  | .addi _ _ _ => true
  | .andi _ _ _ => true
  | .ori _ _ _ => true
  | .xori _ _ _ => true
  | .slti _ _ _ => true
  | .sltiu _ _ _ => true
  | .slli _ _ _ => true
  | .srli _ _ _ => true
  | .srai _ _ _ => true
  | .rori _ _ _ => true
  | .lui _ _ => true
  | .luih _ _ => true
  | .luit _ _ => true
  | .addpc _ _ => true
  | .mul _ _ _ => true
  | .mulh _ _ _ => true
  | .mulhu _ _ _ => true
  | .div _ _ _ => true
  | .divu _ _ _ => true
  | .rem _ _ _ => true
  | .remu _ _ _ => true
  | .ldb _ _ _ => true
  | .ldbu _ _ _ => true
  | .ldh _ _ _ => true
  | .ldhu _ _ _ => true
  | .ldw _ _ _ => true
  | .ldwu _ _ _ => true
  | .ldd _ _ _ => true
  | .xpref _ _ => true
  | .stb _ _ _ => true
  | .sth _ _ _ => true
  | .stw _ _ _ => true
  | .std _ _ _ => true
  | .stn _ _ _ => true
  | .amoadd _ _ _ _ => true
  | .amoand _ _ _ _ => true
  | .amoor _ _ _ _ => true
  | .amoxor _ _ _ _ => true
  | .amomin _ _ _ _ => true
  | .amomax _ _ _ _ => true
  | .amominu _ _ _ _ => true
  | .amomaxu _ _ _ _ => true
  | .amoswap _ _ _ _ => true
  | .amocas _ _ _ _ => true
  | .bind s _ _ => s.val < 3
  | .acq _ => true
  | .acqr _ => true
  | .rel _ => true
  | .fence s => s.val ≤ 6
  | .discard m _ _ => m.val ≤ 1
  | .scfg _ _ _ => true
  | .sdim _ _ _ _ => true
  | .sind _ _ _ => true
  | .sman _ _ => true
  | .sen _ => true
  | .sdis _ => true
  | .sflush _ => true
  | .ldq _ _ => true
  | .stq _ _ => true
  | .qput _ => true
  | .qget _ => true
  | .rpt _ _ _ _ => true
  | .send c _ _ => c.val ≤ 15
  | .sendm c _ _ => c.val ≤ 15
  | .recv _ _ _ => true
  | .recvm _ _ _ => true
  | .mark => true
  | .radv _ => true
  | .chstatState _ _ => true
  | .chstatDecl _ _ => true
  | .chstatClose _ _ => true
  | .chstatKword _ => true
  | .chstatRound _ => true
  | .chstatSeq _ _ => true
  | .kickRing _ _ => true
  | .kickMbox _ _ => true
  | .kickDone _ _ => true
  | .kickDonerec _ _ => true
  | .bcfg _ _ => true
  | .barr _ => true
  | .bwait _ => true
  | .bsync _ => true
  | .btest _ _ => true
  | .rqpush _ _ _ => true
  | .next _ => true
  | .nextw _ => true
  | .append _ _ _ => true
  | .take _ _ => true
  | .takeEndHold _ _ => true
  | .tdarm _ _ => true
  | .launch _ _ _ => true
  | .lwait _ _ => true
  | .cancel _ _ => true
  | .cntrd _ _ => true
  | .ginfo _ i b => i.val < 10 && (i.val == 8 || b.val == 0)
  | .gdone _ => true
  | .evpop _ _ => true
  | .evpush _ _ _ => true
  | .preempt _ _ => true
  | .save _ _ => true
  | .restore _ _ => true
  | .pinv _ _ _ => true
  | .pprobe _ _ _ => true
  | .chkpair _ _ => true
  | .hmigrate _ _ => true
  | .frpop _ _ => true
  | .timerd _ _ => true
  | .lstatRead _ _ => true
  | .lstatEnable _ _ => true
  | .lstatDisable _ _ => true
  | .lstatRetrain _ _ => true
  | .fadd _ _ _ _ t => isFloat t.val
  | .fsub _ _ _ _ t => isFloat t.val
  | .fmul _ _ _ _ t => isFloat t.val
  | .fdiv _ _ _ _ t => isFloat t.val
  | .fsqrt _ _ _ t => isFloat t.val
  | .fmin _ _ _ _ t => isFloat t.val
  | .fmax _ _ _ _ t => isFloat t.val
  | .fsgnj _ _ _ _ t => isFloat t.val
  | .fsgnjn _ _ _ _ t => isFloat t.val
  | .fsgnjx _ _ _ _ t => isFloat t.val
  | .fclass _ _ _ t => isFloat t.val
  | .fmov _ _ _ t => isFloat t.val
  | .fmadd _ _ _ _ _ => true
  | .fmsub _ _ _ _ _ => true
  | .fnmadd _ _ _ _ _ => true
  | .fnmsub _ _ _ _ _ => true
  | .fcvt _ _ s _ t => isCode s.val && isCode t.val && (isFloatCode s.val || isFloatCode t.val)
  | .feq _ _ _ _ t => isFloat t.val
  | .flt _ _ _ _ t => isFloat t.val
  | .fle _ _ _ _ t => isFloat t.val
  | .funord _ _ _ _ t => isFloat t.val
  | .fcvtfl _ _ _ t => isFloatCode t.val
  | .fcvtlf _ _ _ t => isFloatCode t.val
  | .iadd _ _ _ _ => true
  | .isub _ _ _ _ => true
  | .imul _ _ _ _ => true
  | .iand _ _ _ _ => true
  | .ior _ _ _ _ => true
  | .ixor _ _ _ _ => true
  | .isll _ _ _ _ => true
  | .isrl _ _ _ _ => true
  | .isra _ _ _ _ => true
  | .imin _ _ _ _ => true
  | .imax _ _ _ _ => true
  | .iminu _ _ _ _ => true
  | .imaxu _ _ _ _ => true
  | .islt _ _ _ _ => true
  | .isltu _ _ _ _ => true
  | .imovi _ _ _ => true
  | .vadd _ _ _ _ t => isLaneInt t.val
  | .vsub _ _ _ _ t => isLaneInt t.val
  | .vmul _ _ _ _ t => isLaneInt t.val
  | .vmin _ _ _ _ t => isLaneInt t.val
  | .vmax _ _ _ _ t => isLaneInt t.val
  | .vminu _ _ _ _ t => isLaneInt t.val
  | .vmaxu _ _ _ _ t => isLaneInt t.val
  | .vand _ _ _ _ t => isLaneInt t.val
  | .vor _ _ _ _ t => isLaneInt t.val
  | .vxor _ _ _ _ t => isLaneInt t.val
  | .vsll _ _ _ _ t => isLaneInt t.val
  | .vsrl _ _ _ _ t => isLaneInt t.val
  | .vsra _ _ _ _ t => isLaneInt t.val
  | .vmulh _ _ _ _ t => isLaneInt t.val
  | .vmulhu _ _ _ _ t => isLaneInt t.val
  | .vabsd _ _ _ _ t => isLaneInt t.val
  | .vfadd _ _ _ _ t => isFloat t.val
  | .vfsub _ _ _ _ t => isFloat t.val
  | .vfmul _ _ _ _ t => isFloat t.val
  | .vfdiv _ _ _ _ t => isFloat t.val
  | .vfsqrt _ _ _ t => isFloat t.val
  | .vfmin _ _ _ _ t => isFloat t.val
  | .vfmax _ _ _ _ t => isFloat t.val
  | .vfabs _ _ _ t => isFloat t.val
  | .vfneg _ _ _ t => isFloat t.val
  | .vfeq d _ _ _ t => d.val < 8 && isFloat t.val
  | .vflt d _ _ _ t => d.val < 8 && isFloat t.val
  | .vfle d _ _ _ t => d.val < 8 && isFloat t.val
  | .vsel _ _ _ _ t => isCode t.val
  | .vfmadd _ _ _ _ _ _ => true
  | .vfmsub _ _ _ _ _ _ => true
  | .vfnmadd _ _ _ _ _ _ => true
  | .vfnmsub _ _ _ _ _ _ => true
  | .vperm _ _ _ _ t => isPermute t.val
  | .vbcast _ _ _ t => isPermute t.val
  | .vslup _ _ _ _ t => isPermute t.val
  | .vsldn _ _ _ _ t => isPermute t.val
  | .vcompr _ _ _ t => isPermute t.val
  | .vexpnd _ _ _ t => isPermute t.val
  | .vrsum _ _ _ t => isLaneInt t.val || isFloat t.val
  | .vrmax _ _ _ t => isLaneInt t.val || isFloat t.val
  | .vrmin _ _ _ t => isLaneInt t.val || isFloat t.val
  | .vtopk _ _ _ _ t => t.val == 7 || t.val == 10
  | .vzip _ _ _ _ t => isPermute t.val
  | .vunzip _ _ _ _ t => isPermute t.val
  | .vrev _ _ _ t => isPermute t.val
  | .pand d a b _ => d.val < 8 && a.val < 8 && b.val < 8
  | .por d a b _ => d.val < 8 && a.val < 8 && b.val < 8
  | .pxor d a b _ => d.val < 8 && a.val < 8 && b.val < 8
  | .pnot d a _ => d.val < 8 && a.val < 8
  | .loopp d _ _ _ t => d.val < 8 && isWide t.val
  | .vcmpeq d _ _ _ t => d.val < 8 && isLaneInt t.val
  | .vcmplt d _ _ _ t => d.val < 8 && isLaneInt t.val
  | .vcmpltu d _ _ _ t => d.val < 8 && isLaneInt t.val
  | .vcmple d _ _ _ t => d.val < 8 && isLaneInt t.val
  | .vcmpleu d _ _ _ t => d.val < 8 && isLaneInt t.val
  | .pcnt _ a _ t => a.val < 8 && isWide t.val
  | .pfirst _ a _ t => a.val < 8 && isWide t.val
  | .vcvt _ _ s _ t => isCode s.val && isCode t.val
  | .vcvtr _ _ s _ t => isFloat s.val && t.val < 7 && decide (codeWidth t.val < codeWidth s.val)
  | .vderot _ _ s _ t => s.val < 7 && isFloat t.val && decide (codeWidth s.val < codeWidth t.val)
  | .hsld k _ b => k.val < 8 && b.val != 3
  | .hsrd _ _ => true
  | .vppe _ _ t _ => t.val ≤ 1
  | .ppld t _ _ _ => t.val ≤ 1
  | .vrng _ _ _ _ t => isLaneInt t.val || t.val == 8
  | .vlq _ => true
  | .vmovf _ _ _ t => isWide t.val
  | .mma _ _ _ => true
  | .mmaz _ _ _ => true
  | .mmaad _ _ _ => true
  | .msca _ _ _ => true
  | .mscars _ _ _ => true
  | .geom _ _ => true
  | .msync => true
  | .psrd _ k _ => k.val ≤ 1
  | .halloc _ _ => true
  | .hfree _ => true
  | .hcfg _ _ => true
  | .hrowld _ _ => true
  | .hrowst _ _ => true
  | .hcolld _ _ => true
  | .hcolst _ _ => true
  | .hzero _ => true
  | .hdrain _ => true
  | .hrescale _ => true
  | .hstat _ _ => true
  | .reda k _ _ => k.val ≤ 1
  | .redx _ k _ => k.val ≤ 1
  | .adtbl _ _ => true
  | .ainv _ => true
  | .apref _ _ => true
  | .astat _ _ => true
  | .xld _ _ => true
  | .xst _ _ => true
  | .xldcol _ _ => true
  | .xstcol _ _ => true
  | .xgath _ _ => true
  | .xscat _ _ => true
  | .xred _ _ => true
  | .xprog _ _ => true
  | .xpush _ _ _ => true
  | .xpull _ _ _ => true
  | .xwait _ _ => true
  | .xsect _ _ _ => true
  | .xexp24 _ _ w => w.val ≤ 2
  | .xbdot _ _ _ => true
  | .placeCastOn _ _ => true
  | .ctxmapSelect _ _ => true
  | .ctxmapWriteSlot _ _ => true
  | .ctxmapWriteSab _ _ => true
  | .isocfgSelect _ _ => true
  | .isocfgSet _ _ => true
  | .arbwWrite _ _ => true
  | .evqbaseWrite _ _ => true
  | .registerWrite _ _ _ _ => true
  | .waitReasonClears _ _ => true
  | .waitDeadline _ _ => true
  | .streamRequest _ _ => true
  | .streamElementArrival _ _ => true
  | .streamWritePerform _ _ => true
  | .accessPerformed _ _ => true
  | .relaxedStoreAck _ => true
  | .matrixAccept _ _ => true
  | .arbiterTake _ => true
  | .matrixExecute _ => true
  | .matrixComplete _ _ => true
  | .hdrainImageAck _ _ => true
  | .adapterFillArrival _ _ => true
  | .rowReplay _ => true
  | .externalElement _ _ => true
  | .transferElement _ _ _ => true
  | .transferEnd _ _ => true
  | .sectorLineAccess _ _ _ _ => true
  | .stationWalkEnd _ => true
  | .faultQueueRoom _ => true
  | .remoteRequest _ _ _ => true
  | .recordDelivery _ _ => true
  | .creditReturn _ _ => true
  | .deliveryResume _ _ => true
  | .channelWaitExpiry _ => true
  | .barrierArrivalCombine _ _ => true
  | .barrierCornerFire _ _ => true
  | .barrierReleaseReceipt _ _ => true
  | .barrierBrokenNotice _ _ => true
  | .barrierBrokenRelease _ _ => true
  | .castOnOctetLoaded _ => true
  | .castOnImageFailure _ => true
  | .priorityAging _ _ => true
  | .groupPlacement _ => true
  | .rangeRequestArrival _ => true
  | .rangeStep _ => true
  | .rangeReturnHeld _ => true
  | .eventHeldStore _ => true
  | .vacateDeadline _ => true
  | .contextSaveBegin _ => true
  | .contextSaveComplete _ => true
  | .restoreComplete _ => true
  | .portTrainingEnd _ _ => true
  | .portTrainingTimeout _ => true
  | .portLaneLoss _ _ => true
  | .portFailure _ => true
  | .ptpMessage _ _ _ _ => true
  | .frameIngress _ _ _ => true
  | .frameBankFlip _ => true
  | .hostTailKick _ _ => true
  | .hostCmdLaunch _ => true
  | .hostCmdCancel _ => true
  | .hostCmdAdmit _ _ _ _ _ => true
  | .hostCmdRelease => true
  | .powerOn _ _ => true
  | .attestationRequest _ => true
  | .attestationReport => true
  | .updateImageWrite _ => true
  | .updateClusterSwitch _ _ => true
  | .islandStart _ => true
  | .islandIdleStop _ => true
  | .islandStopRequest _ => true
  | .partFault _ => true
  | .controlCoreReset _ => true
  | .illegalInstr => true
  | .fetchBoundary => true
  | .fetchEccFailure => true
  | .packagePowerLimit _ => true
  | .powerLoss => true
  | .hostMemoryAccess _ _ => true

end Sys2Proof
end

