-- ==== Sys2Proof/Decode.lean ====
section
/-! DEFINITION. Decoding an instruction word and encoding an instruction (chapter The instruction word). -/

namespace Sys2Proof

/-- Bits [lo + n − 1 : lo] of a word. -/
def fld (w lo n : Nat) : Nat := w / 2 ^ lo % 2 ^ n

/-- Why a word is no instruction (R40): no row of the opcode table has its major and function or a reserved-zero
field is not zero; or a field holds a reserved value. -/
inductive BadWord where
  | noRow
  | reserved
  deriving DecidableEq, Repr

/-- The checks of a row: the bits it fixes, and the values its fields may hold. -/
def check (fixed limits : Bool) : Option BadWord :=
  if !fixed then some .noRow else if !limits then some .reserved else none

/-! ## Which words are instructions (R36, R40) -/

/-- Major 0x01: HINT. -/
def check01 (w : Nat) : Option BadWord :=
  match fld w 22 4 with
  | 0 => none
  | 1 => check (decide (fld w 4 18 = 0)) ((fld w 0 4) != 0)
  | 2 => check (decide (fld w 2 20 = 0)) ((fld w 0 2) == 1 || (fld w 0 2) == 2)
  | _ => some .noRow

/-- Major 0x02: system and CSR instructions. -/
def check02 (w : Nat) : Option BadWord :=
  match fld w 12 4 with
  | 0 => check (decide (fld w 16 10 = 0)) true
  | 1 => check (decide (fld w 0 12 = 0 ∧ fld w 16 10 = 0)) true
  | 2 => check (decide (fld w 4 7 = 0)) ((fld w 11 1) == 1 || ((fld w 0 4) != 0 && (fld w 16 5) == 0))
  | 3 => check (decide (fld w 16 5 = 0)) (csrAssigned (fld w 0 12))
  | 4 => check true (csrWritable (fld w 0 12))
  | 5 => check true (csrWritable (fld w 0 12))
  | 6 => check true (csrWritable (fld w 0 12))
  | 7 => check (decide (fld w 0 12 = 0)) true
  | 8 => if fld w 3 9 = 0 ∧ fld w 16 5 = 0 then check true ((fld w 0 3) != 0)
    else if fld w 0 12 = 256 ∧ fld w 16 5 = 0 then check true true
    else check (decide (fld w 0 12 = 512 ∧ fld w 16 5 = 0)) true
  | 9 => check (decide (fld w 0 12 = 0 ∧ fld w 16 10 = 0)) true
  | _ => some .noRow

/-- Major 0x03: branches on g. -/
def check03 (w : Nat) : Option BadWord :=
  match fld w 13 3 with
  | 0 => none
  | 1 => none
  | 2 => none
  | 3 => none
  | 4 => none
  | 5 => none
  | _ => some .noRow

/-- Major 0x04: jumps and calls. -/
def check04 (w : Nat) : Option BadWord :=
  match fld w 19 2 with
  | 0 => none
  | 1 => none
  | 2 => none
  | 3 => check (decide (fld w 0 14 = 0 ∧ fld w 21 5 = 0)) true
  | _ => some .noRow

/-- Major 0x05: branches on predicates and f. -/
def check05 (w : Nat) : Option BadWord :=
  match fld w 13 3 with
  | 0 => check (decide (fld w 16 5 = 0 ∧ fld w 24 2 = 0)) true
  | 1 => check (decide (fld w 16 5 = 0 ∧ fld w 24 2 = 0)) true
  | 2 => check (decide (fld w 16 5 = 0 ∧ fld w 24 2 = 0)) true
  | 3 => check (decide (fld w 16 5 = 0 ∧ fld w 24 2 = 0)) true
  | 4 => check (decide (fld w 16 5 = 0)) true
  | 5 => check (decide (fld w 16 5 = 0)) true
  | 6 => check (decide (fld w 16 5 = 0)) true
  | 7 => check (decide (fld w 16 5 = 0)) true
  | _ => some .noRow

/-- Major 0x06: PUSHM and POPM. -/
def check06 (w : Nat) : Option BadWord :=
  match fld w 0 11 with
  | 0 => check (decide (fld w 11 5 = 0)) ((fld w 21 5) ≤ (fld w 16 5))
  | 1 => check (decide (fld w 11 5 = 0)) ((fld w 21 5) ≤ (fld w 16 5))
  | 2 => check (decide (fld w 11 5 = 0)) ((fld w 21 5) ≤ (fld w 16 5))
  | 4 => check (decide (fld w 11 5 = 0)) ((fld w 21 5) ≤ (fld w 16 5))
  | 5 => check (decide (fld w 11 5 = 0)) ((fld w 21 5) ≤ (fld w 16 5))
  | 6 => check (decide (fld w 11 5 = 0)) ((fld w 21 5) ≤ (fld w 16 5))
  | _ => some .noRow

/-- Major 0x08: integer register forms. -/
def check08 (w : Nat) : Option BadWord :=
  match fld w 0 11 with
  | 0 => none
  | 1 => none
  | 2 => none
  | 3 => none
  | 4 => none
  | 5 => none
  | 6 => none
  | 7 => none
  | 8 => none
  | 9 => none
  | 10 => none
  | 11 => none
  | 12 => none
  | 13 => none
  | 14 => none
  | 15 => none
  | 16 => check (decide (fld w 11 5 = 0)) true
  | 17 => check (decide (fld w 11 5 = 0)) true
  | 18 => check (decide (fld w 11 5 = 0)) true
  | _ => some .noRow

/-- Major 0x09: integer immediate forms. -/
def check09 (w : Nat) : Option BadWord :=
  match fld w 12 4 with
  | 0 => none
  | 1 => none
  | 2 => none
  | 3 => none
  | 4 => none
  | 5 => none
  | 6 => check (decide (fld w 6 6 = 0)) true
  | 7 => check (decide (fld w 6 6 = 0)) true
  | 8 => check (decide (fld w 6 6 = 0)) true
  | 9 => check (decide (fld w 6 6 = 0)) true
  | _ => some .noRow

/-- Major 0x0A: upper immediates. -/
def check0A (w : Nat) : Option BadWord :=
  match fld w 16 5 with
  | 0 => none
  | 1 => none
  | 2 => none
  | 3 => none
  | _ => some .noRow

/-- Major 0x0B: multiply and divide. -/
def check0B (w : Nat) : Option BadWord :=
  match fld w 0 11 with
  | 0 => none
  | 1 => none
  | 2 => none
  | 3 => none
  | 4 => none
  | 5 => none
  | 6 => none
  | _ => some .noRow

/-- Major 0x10: loads. -/
def check10 (w : Nat) : Option BadWord :=
  match fld w 12 4 with
  | 0 => none
  | 1 => none
  | 2 => none
  | 3 => none
  | 4 => none
  | 5 => none
  | 6 => none
  | 7 => check (decide (fld w 21 5 = 0)) true
  | _ => some .noRow

/-- Major 0x11: stores. -/
def check11 (w : Nat) : Option BadWord :=
  match fld w 12 4 with
  | 0 => none
  | 1 => none
  | 2 => none
  | 3 => none
  | 4 => none
  | _ => some .noRow

/-- Major 0x12: atomics. -/
def check12 (w : Nat) : Option BadWord :=
  match fld w 0 4 with
  | 0 => check (decide (fld w 4 4 = 0 ∧ fld w 9 2 = 0)) true
  | 1 => check (decide (fld w 4 4 = 0 ∧ fld w 9 2 = 0)) true
  | 2 => check (decide (fld w 4 4 = 0 ∧ fld w 9 2 = 0)) true
  | 3 => check (decide (fld w 4 4 = 0 ∧ fld w 9 2 = 0)) true
  | 4 => check (decide (fld w 4 4 = 0 ∧ fld w 9 2 = 0)) true
  | 5 => check (decide (fld w 4 4 = 0 ∧ fld w 9 2 = 0)) true
  | 6 => check (decide (fld w 4 4 = 0 ∧ fld w 9 2 = 0)) true
  | 7 => check (decide (fld w 4 4 = 0 ∧ fld w 9 2 = 0)) true
  | 8 => check (decide (fld w 4 4 = 0 ∧ fld w 9 2 = 0)) true
  | 9 => check (decide (fld w 4 4 = 0 ∧ fld w 9 2 = 0)) true
  | _ => some .noRow

/-- Major 0x13: sync instructions. -/
def check13 (w : Nat) : Option BadWord :=
  match fld w 0 11 with
  | 0 => check true ((fld w 21 5) < 3)
  | 1 => check (decide (fld w 11 5 = 0 ∧ fld w 21 5 = 0)) true
  | 2 => check (decide (fld w 11 5 = 0 ∧ fld w 21 5 = 0)) true
  | 3 => check (decide (fld w 11 5 = 0 ∧ fld w 21 5 = 0)) true
  | 4 => check (decide (fld w 11 5 = 0 ∧ fld w 21 5 = 0)) ((fld w 16 5) ≤ 6)
  | 5 => check true ((fld w 21 5) ≤ 1)
  | _ => some .noRow

/-- Major 0x14: stream configuration. -/
def check14 (w : Nat) : Option BadWord :=
  match fld w 0 11 with
  | 0 => check (decide (fld w 23 3 = 0)) true
  | 1 => check (decide (fld w 25 1 = 0)) true
  | 2 => check (decide (fld w 18 3 = 0 ∧ fld w 23 3 = 0)) true
  | 3 => check (decide (fld w 16 5 = 0 ∧ fld w 23 3 = 0)) true
  | 4 => check (decide (fld w 11 10 = 0 ∧ fld w 23 3 = 0)) true
  | 5 => check (decide (fld w 11 10 = 0 ∧ fld w 23 3 = 0)) true
  | 6 => check (decide (fld w 11 10 = 0 ∧ fld w 23 3 = 0)) true
  | _ => some .noRow

/-- Major 0x15: stream transfers and control queues. -/
def check15 (w : Nat) : Option BadWord :=
  match fld w 0 11 with
  | 0 => check (decide (fld w 11 5 = 0 ∧ fld w 23 3 = 0)) true
  | 1 => check (decide (fld w 11 5 = 0 ∧ fld w 23 3 = 0)) true
  | 2 => check (decide (fld w 11 5 = 0 ∧ fld w 21 5 = 0)) true
  | 3 => check (decide (fld w 11 10 = 0)) true
  | _ => some .noRow

/-- Major 0x16: RPT. -/
def check16 (w : Nat) : Option BadWord :=
  check (decide (fld w 10 6 = 0 ∧ fld w 21 5 = 0)) true

/-- Major 0x18: channels. -/
def check18 (w : Nat) : Option BadWord :=
  match fld w 0 11 with
  | 0 => check true ((fld w 21 5) ≤ 15)
  | 1 => check true ((fld w 21 5) ≤ 15)
  | 2 => none
  | 3 => none
  | 4 => check (decide (fld w 11 15 = 0)) true
  | 5 => check (decide (fld w 11 10 = 0)) true
  | 6 => if fld w 11 5 = 0 then check true true
    else if fld w 11 5 = 1 then check true true
    else if fld w 11 5 = 2 then check true true
    else if fld w 11 10 = 3 then check true true
    else if fld w 11 10 = 4 then check true true
    else check (decide (fld w 11 5 = 5)) true
  | 7 => if fld w 21 5 = 0 then check true true
    else if fld w 21 5 = 1 then check true true
    else if fld w 21 5 = 2 then check true true
    else check (decide (fld w 21 5 = 3)) true
  | _ => some .noRow

/-- Major 0x19: barriers. -/
def check19 (w : Nat) : Option BadWord :=
  match fld w 0 11 with
  | 0 => check (decide (fld w 13 3 = 0 ∧ fld w 21 5 = 0)) true
  | 1 => check (decide (fld w 13 13 = 0)) true
  | 2 => check (decide (fld w 13 13 = 0)) true
  | 3 => check (decide (fld w 13 13 = 0)) true
  | 4 => check (decide (fld w 13 8 = 0)) true
  | _ => some .noRow

/-- Major 0x1A: work queues. -/
def check1A (w : Nat) : Option BadWord :=
  match fld w 0 11 with
  | 0 => check (decide (fld w 22 4 = 0)) true
  | 1 => check (decide (fld w 11 5 = 0 ∧ fld w 21 5 = 0)) true
  | 2 => check (decide (fld w 11 10 = 0)) true
  | 3 => none
  | 4 => if fld w 11 5 = 0 then check true true
    else check (decide (fld w 11 5 = 1)) true
  | 5 => check (decide (fld w 21 5 = 0)) true
  | _ => some .noRow

/-- Major 0x1B: kernels and groups. -/
def check1B (w : Nat) : Option BadWord :=
  match fld w 0 11 with
  | 0 => none
  | 1 => check (decide (fld w 11 5 = 0)) true
  | 2 => check (decide (fld w 11 5 = 0)) true
  | 3 => check (decide (fld w 11 5 = 0)) true
  | 4 => check true ((fld w 16 5) < 10 && ((fld w 16 5) == 8 || (fld w 11 5) == 0))
  | 5 => check (decide (fld w 11 5 = 0 ∧ fld w 21 5 = 0)) true
  | _ => some .noRow

/-- Major 0x1C: events, contexts and pages. -/
def check1C (w : Nat) : Option BadWord :=
  match fld w 0 11 with
  | 0 => check (decide (fld w 11 5 = 0)) true
  | 1 => none
  | 2 => check (decide (fld w 11 5 = 0)) true
  | 3 => check (decide (fld w 11 5 = 0)) true
  | 4 => check (decide (fld w 11 5 = 0)) true
  | 5 => none
  | 6 => none
  | 7 => check (decide (fld w 11 5 = 0)) true
  | 8 => check (decide (fld w 11 5 = 0)) true
  | _ => some .noRow

/-- Major 0x1D: frames, time and links. -/
def check1D (w : Nat) : Option BadWord :=
  match fld w 0 11 with
  | 0 => check (decide (fld w 11 5 = 0)) true
  | 1 => check (decide (fld w 11 5 = 0)) true
  | 2 => if fld w 11 5 = 0 then check true true
    else if fld w 11 5 = 1 then check true true
    else if fld w 11 5 = 2 then check true true
    else check (decide (fld w 11 5 = 3)) true
  | _ => some .noRow

/-- Major 0x20: float arithmetic. -/
def check20 (w : Nat) : Option BadWord :=
  match fld w 0 4 with
  | 0 => check true (isFloat (fld w 4 4))
  | 1 => check true (isFloat (fld w 4 4))
  | 2 => check true (isFloat (fld w 4 4))
  | 3 => check true (isFloat (fld w 4 4))
  | 4 => check (decide (fld w 11 5 = 0)) (isFloat (fld w 4 4))
  | 5 => check true (isFloat (fld w 4 4))
  | 6 => check true (isFloat (fld w 4 4))
  | 7 => check true (isFloat (fld w 4 4))
  | 8 => check true (isFloat (fld w 4 4))
  | 9 => check true (isFloat (fld w 4 4))
  | 10 => check (decide (fld w 11 5 = 0)) (isFloat (fld w 4 4))
  | 11 => check (decide (fld w 11 5 = 0)) (isFloat (fld w 4 4))
  | _ => some .noRow

/-- Major 0x21: fused float arithmetic. -/
def check21 (w : Nat) : Option BadWord :=
  match fld w 0 4 with
  | 0 => none
  | 1 => none
  | 2 => none
  | 3 => none
  | _ => some .noRow

/-- Major 0x22: float conversions and compares. -/
def check22 (w : Nat) : Option BadWord :=
  match fld w 0 4 with
  | 0 => check (decide (fld w 15 1 = 0)) (isCode (fld w 11 4) && isCode (fld w 4 4) && (isFloatCode (fld w 11 4) || isFloatCode (fld w 4 4)))
  | 1 => check true (isFloat (fld w 4 4))
  | 2 => check true (isFloat (fld w 4 4))
  | 3 => check true (isFloat (fld w 4 4))
  | 4 => check true (isFloat (fld w 4 4))
  | 5 => check (decide (fld w 11 5 = 0)) (isFloatCode (fld w 4 4))
  | 6 => check (decide (fld w 11 5 = 0)) (isFloatCode (fld w 4 4))
  | _ => some .noRow

/-- Major 0x23: integers in f. -/
def check23 (w : Nat) : Option BadWord :=
  match fld w 0 4 with
  | 0 => check (decide (fld w 4 4 = 0)) true
  | 1 => check (decide (fld w 4 4 = 0)) true
  | 2 => check (decide (fld w 4 4 = 0)) true
  | 3 => check (decide (fld w 4 4 = 0)) true
  | 4 => check (decide (fld w 4 4 = 0)) true
  | 5 => check (decide (fld w 4 4 = 0)) true
  | 6 => check (decide (fld w 4 4 = 0)) true
  | 7 => check (decide (fld w 4 4 = 0)) true
  | 8 => check (decide (fld w 4 4 = 0)) true
  | 9 => check (decide (fld w 4 4 = 0)) true
  | 10 => check (decide (fld w 4 4 = 0)) true
  | 11 => check (decide (fld w 4 4 = 0)) true
  | 12 => check (decide (fld w 4 4 = 0)) true
  | 13 => check (decide (fld w 4 4 = 0)) true
  | 14 => check (decide (fld w 4 4 = 0)) true
  | 15 => check (decide (fld w 4 4 = 0)) true
  | _ => some .noRow

/-- Major 0x28: integer lanes. -/
def check28 (w : Nat) : Option BadWord :=
  match fld w 0 4 with
  | 0 => check true (isLaneInt (fld w 4 4))
  | 1 => check true (isLaneInt (fld w 4 4))
  | 2 => check true (isLaneInt (fld w 4 4))
  | 3 => check true (isLaneInt (fld w 4 4))
  | 4 => check true (isLaneInt (fld w 4 4))
  | 5 => check true (isLaneInt (fld w 4 4))
  | 6 => check true (isLaneInt (fld w 4 4))
  | 7 => check true (isLaneInt (fld w 4 4))
  | 8 => check true (isLaneInt (fld w 4 4))
  | 9 => check true (isLaneInt (fld w 4 4))
  | 10 => check true (isLaneInt (fld w 4 4))
  | 11 => check true (isLaneInt (fld w 4 4))
  | 12 => check true (isLaneInt (fld w 4 4))
  | 13 => check true (isLaneInt (fld w 4 4))
  | 14 => check true (isLaneInt (fld w 4 4))
  | 15 => check true (isLaneInt (fld w 4 4))
  | _ => some .noRow

/-- Major 0x29: float lanes. -/
def check29 (w : Nat) : Option BadWord :=
  match fld w 0 4 with
  | 0 => check true (isFloat (fld w 4 4))
  | 1 => check true (isFloat (fld w 4 4))
  | 2 => check true (isFloat (fld w 4 4))
  | 3 => check true (isFloat (fld w 4 4))
  | 4 => check (decide (fld w 11 5 = 0)) (isFloat (fld w 4 4))
  | 5 => check true (isFloat (fld w 4 4))
  | 6 => check true (isFloat (fld w 4 4))
  | 7 => check (decide (fld w 11 5 = 0)) (isFloat (fld w 4 4))
  | 8 => check (decide (fld w 11 5 = 0)) (isFloat (fld w 4 4))
  | 9 => check true ((fld w 21 5) < 8 && isFloat (fld w 4 4))
  | 10 => check true ((fld w 21 5) < 8 && isFloat (fld w 4 4))
  | 11 => check true ((fld w 21 5) < 8 && isFloat (fld w 4 4))
  | 12 => check true (isCode (fld w 4 4))
  | _ => some .noRow

/-- Major 0x2A: fused float lanes. -/
def check2A (w : Nat) : Option BadWord :=
  match fld w 0 2 with
  | 0 => none
  | 1 => none
  | 2 => none
  | 3 => none
  | _ => some .noRow

/-- Major 0x2B: permutes and reductions. -/
def check2B (w : Nat) : Option BadWord :=
  match fld w 0 4 with
  | 0 => check true (isPermute (fld w 4 4))
  | 1 => check (decide (fld w 11 5 = 0)) (isPermute (fld w 4 4))
  | 2 => check true (isPermute (fld w 4 4))
  | 3 => check true (isPermute (fld w 4 4))
  | 4 => check (decide (fld w 11 5 = 0)) (isPermute (fld w 4 4))
  | 5 => check (decide (fld w 11 5 = 0)) (isPermute (fld w 4 4))
  | 6 => check (decide (fld w 11 5 = 0)) (isLaneInt (fld w 4 4) || isFloat (fld w 4 4))
  | 7 => check (decide (fld w 11 5 = 0)) (isLaneInt (fld w 4 4) || isFloat (fld w 4 4))
  | 8 => check (decide (fld w 11 5 = 0)) (isLaneInt (fld w 4 4) || isFloat (fld w 4 4))
  | 9 => check true ((fld w 4 4) == 7 || (fld w 4 4) == 10)
  | 10 => check true (isPermute (fld w 4 4))
  | 11 => check true (isPermute (fld w 4 4))
  | 12 => check (decide (fld w 11 5 = 0)) (isPermute (fld w 4 4))
  | _ => some .noRow

/-- Major 0x2C: predicates. -/
def check2C (w : Nat) : Option BadWord :=
  match fld w 0 4 with
  | 0 => check (decide (fld w 4 4 = 0)) ((fld w 21 5) < 8 && (fld w 16 5) < 8 && (fld w 11 5) < 8)
  | 1 => check (decide (fld w 4 4 = 0)) ((fld w 21 5) < 8 && (fld w 16 5) < 8 && (fld w 11 5) < 8)
  | 2 => check (decide (fld w 4 4 = 0)) ((fld w 21 5) < 8 && (fld w 16 5) < 8 && (fld w 11 5) < 8)
  | 3 => check (decide (fld w 4 4 = 0 ∧ fld w 11 5 = 0)) ((fld w 21 5) < 8 && (fld w 16 5) < 8)
  | 4 => check true ((fld w 21 5) < 8 && isWide (fld w 4 4))
  | 5 => check true ((fld w 21 5) < 8 && isLaneInt (fld w 4 4))
  | 6 => check true ((fld w 21 5) < 8 && isLaneInt (fld w 4 4))
  | 7 => check true ((fld w 21 5) < 8 && isLaneInt (fld w 4 4))
  | 8 => check true ((fld w 21 5) < 8 && isLaneInt (fld w 4 4))
  | 9 => check true ((fld w 21 5) < 8 && isLaneInt (fld w 4 4))
  | 10 => check (decide (fld w 11 5 = 0)) ((fld w 16 5) < 8 && isWide (fld w 4 4))
  | 11 => check (decide (fld w 11 5 = 0)) ((fld w 16 5) < 8 && isWide (fld w 4 4))
  | _ => some .noRow

/-- Major 0x2D: conversions and rotations. -/
def check2D (w : Nat) : Option BadWord :=
  match fld w 0 4 with
  | 0 => check (decide (fld w 15 1 = 0)) (isCode (fld w 11 4) && isCode (fld w 4 4))
  | 1 => check (decide (fld w 15 1 = 0)) (isFloat (fld w 11 4) && (fld w 4 4) < 7 && decide (codeWidth (fld w 4 4) < codeWidth (fld w 11 4)))
  | 2 => check (decide (fld w 15 1 = 0)) ((fld w 11 4) < 7 && isFloat (fld w 4 4) && decide (codeWidth (fld w 11 4) < codeWidth (fld w 4 4)))
  | 3 => check (decide (fld w 4 7 = 0 ∧ fld w 13 3 = 0)) ((fld w 21 5) < 8 && (fld w 11 2) != 3)
  | 4 => check (decide (fld w 4 12 = 0 ∧ fld w 19 2 = 0)) true
  | _ => some .noRow

/-- Major 0x2E: tables, ranges and moves. -/
def check2E (w : Nat) : Option BadWord :=
  match fld w 0 4 with
  | 0 => check (decide (fld w 4 4 = 7)) ((fld w 11 5) ≤ 1)
  | 1 => check (decide (fld w 4 4 = 0)) ((fld w 21 5) ≤ 1)
  | 2 => check true (isLaneInt (fld w 4 4) || (fld w 4 4) == 8)
  | 3 => check (decide (fld w 4 17 = 0)) true
  | 4 => check (decide (fld w 8 3 = 0)) (isWide (fld w 4 4))
  | _ => some .noRow

/-- Major 0x30: matrix commands. -/
def check30 (w : Nat) : Option BadWord :=
  match fld w 0 11 with
  | 0 => none
  | 1 => none
  | 2 => none
  | 3 => none
  | 4 => none
  | 5 => check (decide (fld w 11 5 = 0)) true
  | 6 => check (decide (fld w 11 15 = 0)) true
  | 7 => check true ((fld w 16 5) ≤ 1)
  | _ => some .noRow

/-- Major 0x31: handles. -/
def check31 (w : Nat) : Option BadWord :=
  match fld w 0 11 with
  | 0 => check (decide (fld w 11 5 = 0)) true
  | 1 => check (decide (fld w 11 5 = 0 ∧ fld w 21 5 = 0)) true
  | 2 => check (decide (fld w 21 5 = 0)) true
  | 3 => check (decide (fld w 21 5 = 0)) true
  | 4 => check (decide (fld w 11 5 = 0)) true
  | 5 => check (decide (fld w 21 5 = 0)) true
  | 6 => check (decide (fld w 11 5 = 0)) true
  | 7 => check (decide (fld w 11 5 = 0 ∧ fld w 21 5 = 0)) true
  | 8 => check (decide (fld w 11 5 = 0 ∧ fld w 21 5 = 0)) true
  | 9 => check (decide (fld w 11 5 = 0 ∧ fld w 21 5 = 0)) true
  | 10 => check (decide (fld w 11 5 = 0)) true
  | _ => some .noRow

/-- Major 0x32: reductions and adapters. -/
def check32 (w : Nat) : Option BadWord :=
  match fld w 0 11 with
  | 0 => check true ((fld w 21 5) ≤ 1)
  | 1 => check true ((fld w 16 5) ≤ 1)
  | 16 => check (decide (fld w 21 5 = 0)) true
  | 17 => check (decide (fld w 11 5 = 0 ∧ fld w 21 5 = 0)) true
  | 18 => check (decide (fld w 21 5 = 0)) true
  | 19 => check (decide (fld w 11 5 = 0)) true
  | _ => some .noRow

/-- Major 0x38: external loads and stores. -/
def check38 (w : Nat) : Option BadWord :=
  match fld w 0 11 with
  | 0 => check (decide (fld w 11 5 = 0)) true
  | 1 => check (decide (fld w 11 5 = 0)) true
  | 2 => check (decide (fld w 11 5 = 0)) true
  | 3 => check (decide (fld w 11 5 = 0)) true
  | _ => some .noRow

/-- Major 0x39: external gathers and scatters. -/
def check39 (w : Nat) : Option BadWord :=
  match fld w 0 11 with
  | 0 => check (decide (fld w 11 5 = 0)) true
  | 1 => check (decide (fld w 11 5 = 0)) true
  | 2 => check (decide (fld w 11 5 = 0)) true
  | 3 => check (decide (fld w 11 5 = 0)) true
  | _ => some .noRow

/-- Major 0x3A: transfers. -/
def check3A (w : Nat) : Option BadWord :=
  match fld w 0 11 with
  | 0 => none
  | 1 => none
  | 2 => check (decide (fld w 11 5 = 0)) true
  | 3 => none
  | _ => some .noRow

/-- Major 0x3B: expansion. -/
def check3B (w : Nat) : Option BadWord :=
  match fld w 0 11 with
  | 0 => check true ((fld w 11 5) ≤ 2)
  | 1 => none
  | _ => some .noRow

/-- Why a word is no instruction, if it is none. -/
def checkWord (w : Nat) : Option BadWord :=
  match fld w 26 6 with
  | 1 => check01 w
  | 2 => check02 w
  | 3 => check03 w
  | 4 => check04 w
  | 5 => check05 w
  | 6 => check06 w
  | 8 => check08 w
  | 9 => check09 w
  | 10 => check0A w
  | 11 => check0B w
  | 16 => check10 w
  | 17 => check11 w
  | 18 => check12 w
  | 19 => check13 w
  | 20 => check14 w
  | 21 => check15 w
  | 22 => check16 w
  | 24 => check18 w
  | 25 => check19 w
  | 26 => check1A w
  | 27 => check1B w
  | 28 => check1C w
  | 29 => check1D w
  | 32 => check20 w
  | 33 => check21 w
  | 34 => check22 w
  | 35 => check23 w
  | 40 => check28 w
  | 41 => check29 w
  | 42 => check2A w
  | 43 => check2B w
  | 44 => check2C w
  | 45 => check2D w
  | 46 => check2E w
  | 48 => check30 w
  | 49 => check31 w
  | 50 => check32 w
  | 56 => check38 w
  | 57 => check39 w
  | 58 => check3A w
  | 59 => check3B w
  | _ => some .noRow

/-! ## What a word that is an instruction says (R32) -/

/-- Major 0x01: HINT. -/
noncomputable def build01 (w : Nat) : Instr :=
  match fld w 22 4 with
  | 0 => .hintImm (BitVec.ofNat 22 (fld w 0 22))
  | 1 => .hintMod (BitVec.ofNat 4 (fld w 0 4))
  | 2 => .hintBr (BitVec.ofNat 2 (fld w 0 2))
  | _ => .illegalInstr

/-- Major 0x02: system and CSR instructions. -/
noncomputable def build02 (w : Nat) : Instr :=
  match fld w 12 4 with
  | 0 => .trap (BitVec.ofNat 12 (fld w 0 12))
  | 1 => .hret
  | 2 => .wait (Fin.ofNat 32 (fld w 21 5)) (Fin.ofNat 32 (fld w 16 5)) (decide (fld w 11 1 = 1)) (BitVec.ofNat 4 (fld w 0 4))
  | 3 => .csrr (Fin.ofNat 32 (fld w 21 5)) (BitVec.ofNat 12 (fld w 0 12))
  | 4 => .csrw (Fin.ofNat 32 (fld w 21 5)) (Fin.ofNat 32 (fld w 16 5)) (BitVec.ofNat 12 (fld w 0 12))
  | 5 => .csrs (Fin.ofNat 32 (fld w 21 5)) (Fin.ofNat 32 (fld w 16 5)) (BitVec.ofNat 12 (fld w 0 12))
  | 6 => .csrc (Fin.ofNat 32 (fld w 21 5)) (Fin.ofNat 32 (fld w 16 5)) (BitVec.ofNat 12 (fld w 0 12))
  | 7 => .setxb (Fin.ofNat 32 (fld w 21 5)) (Fin.ofNat 32 (fld w 16 5))
  | 8 => if fld w 3 9 = 0 ∧ fld w 16 5 = 0 then .gangForm (Fin.ofNat 32 (fld w 21 5)) (Fin.ofNat 8 (fld w 0 3))
    else if fld w 0 12 = 256 ∧ fld w 16 5 = 0 then .gangJoin (Fin.ofNat 32 (fld w 21 5))
    else .gangEnd (Fin.ofNat 32 (fld w 21 5))
  | 9 => .nop
  | _ => .illegalInstr

/-- Major 0x03: branches on g. -/
noncomputable def build03 (w : Nat) : Instr :=
  match fld w 13 3 with
  | 0 => .beq (Fin.ofNat 32 (fld w 21 5)) (Fin.ofNat 32 (fld w 16 5)) (BitVec.ofNat 13 (fld w 0 13))
  | 1 => .bne (Fin.ofNat 32 (fld w 21 5)) (Fin.ofNat 32 (fld w 16 5)) (BitVec.ofNat 13 (fld w 0 13))
  | 2 => .blt (Fin.ofNat 32 (fld w 21 5)) (Fin.ofNat 32 (fld w 16 5)) (BitVec.ofNat 13 (fld w 0 13))
  | 3 => .bge (Fin.ofNat 32 (fld w 21 5)) (Fin.ofNat 32 (fld w 16 5)) (BitVec.ofNat 13 (fld w 0 13))
  | 4 => .bltu (Fin.ofNat 32 (fld w 21 5)) (Fin.ofNat 32 (fld w 16 5)) (BitVec.ofNat 13 (fld w 0 13))
  | 5 => .bgeu (Fin.ofNat 32 (fld w 21 5)) (Fin.ofNat 32 (fld w 16 5)) (BitVec.ofNat 13 (fld w 0 13))
  | _ => .illegalInstr

/-- Major 0x04: jumps and calls. -/
noncomputable def build04 (w : Nat) : Instr :=
  match fld w 19 2 with
  | 0 => .jal (Fin.ofNat 32 (fld w 21 5)) (BitVec.ofNat 19 (fld w 0 19))
  | 1 => .call (Fin.ofNat 32 (fld w 21 5)) (BitVec.ofNat 19 (fld w 0 19))
  | 2 => .jalr (Fin.ofNat 32 (fld w 21 5)) (Fin.ofNat 32 (fld w 14 5)) (BitVec.ofNat 14 (fld w 0 14))
  | 3 => .ret (Fin.ofNat 32 (fld w 14 5))
  | _ => .illegalInstr

/-- Major 0x05: branches on predicates and f. -/
noncomputable def build05 (w : Nat) : Instr :=
  match fld w 13 3 with
  | 0 => .bpany (Fin.ofNat 8 (fld w 21 3)) (BitVec.ofNat 13 (fld w 0 13))
  | 1 => .bpnone (Fin.ofNat 8 (fld w 21 3)) (BitVec.ofNat 13 (fld w 0 13))
  | 2 => .bpall (Fin.ofNat 8 (fld w 21 3)) (BitVec.ofNat 13 (fld w 0 13))
  | 3 => .bpnall (Fin.ofNat 8 (fld w 21 3)) (BitVec.ofNat 13 (fld w 0 13))
  | 4 => .bfz (Fin.ofNat 32 (fld w 21 5)) (BitVec.ofNat 13 (fld w 0 13))
  | 5 => .bfnz (Fin.ofNat 32 (fld w 21 5)) (BitVec.ofNat 13 (fld w 0 13))
  | 6 => .bfltz (Fin.ofNat 32 (fld w 21 5)) (BitVec.ofNat 13 (fld w 0 13))
  | 7 => .bfgez (Fin.ofNat 32 (fld w 21 5)) (BitVec.ofNat 13 (fld w 0 13))
  | _ => .illegalInstr

/-- Major 0x06: PUSHM and POPM. -/
noncomputable def build06 (w : Nat) : Instr :=
  match fld w 0 11 with
  | 0 => .pushmG (Fin.ofNat 32 (fld w 21 5)) (Fin.ofNat 32 (fld w 16 5))
  | 1 => .pushmF (Fin.ofNat 32 (fld w 21 5)) (Fin.ofNat 32 (fld w 16 5))
  | 2 => .pushmV (Fin.ofNat 32 (fld w 21 5)) (Fin.ofNat 32 (fld w 16 5))
  | 4 => .popmG (Fin.ofNat 32 (fld w 21 5)) (Fin.ofNat 32 (fld w 16 5))
  | 5 => .popmF (Fin.ofNat 32 (fld w 21 5)) (Fin.ofNat 32 (fld w 16 5))
  | 6 => .popmV (Fin.ofNat 32 (fld w 21 5)) (Fin.ofNat 32 (fld w 16 5))
  | _ => .illegalInstr

/-- Major 0x08: integer register forms. -/
noncomputable def build08 (w : Nat) : Instr :=
  match fld w 0 11 with
  | 0 => .add (Fin.ofNat 32 (fld w 21 5)) (Fin.ofNat 32 (fld w 16 5)) (Fin.ofNat 32 (fld w 11 5))
  | 1 => .sub (Fin.ofNat 32 (fld w 21 5)) (Fin.ofNat 32 (fld w 16 5)) (Fin.ofNat 32 (fld w 11 5))
  | 2 => .and (Fin.ofNat 32 (fld w 21 5)) (Fin.ofNat 32 (fld w 16 5)) (Fin.ofNat 32 (fld w 11 5))
  | 3 => .or (Fin.ofNat 32 (fld w 21 5)) (Fin.ofNat 32 (fld w 16 5)) (Fin.ofNat 32 (fld w 11 5))
  | 4 => .xor (Fin.ofNat 32 (fld w 21 5)) (Fin.ofNat 32 (fld w 16 5)) (Fin.ofNat 32 (fld w 11 5))
  | 5 => .sll (Fin.ofNat 32 (fld w 21 5)) (Fin.ofNat 32 (fld w 16 5)) (Fin.ofNat 32 (fld w 11 5))
  | 6 => .srl (Fin.ofNat 32 (fld w 21 5)) (Fin.ofNat 32 (fld w 16 5)) (Fin.ofNat 32 (fld w 11 5))
  | 7 => .sra (Fin.ofNat 32 (fld w 21 5)) (Fin.ofNat 32 (fld w 16 5)) (Fin.ofNat 32 (fld w 11 5))
  | 8 => .slt (Fin.ofNat 32 (fld w 21 5)) (Fin.ofNat 32 (fld w 16 5)) (Fin.ofNat 32 (fld w 11 5))
  | 9 => .sltu (Fin.ofNat 32 (fld w 21 5)) (Fin.ofNat 32 (fld w 16 5)) (Fin.ofNat 32 (fld w 11 5))
  | 10 => .min (Fin.ofNat 32 (fld w 21 5)) (Fin.ofNat 32 (fld w 16 5)) (Fin.ofNat 32 (fld w 11 5))
  | 11 => .max (Fin.ofNat 32 (fld w 21 5)) (Fin.ofNat 32 (fld w 16 5)) (Fin.ofNat 32 (fld w 11 5))
  | 12 => .minu (Fin.ofNat 32 (fld w 21 5)) (Fin.ofNat 32 (fld w 16 5)) (Fin.ofNat 32 (fld w 11 5))
  | 13 => .maxu (Fin.ofNat 32 (fld w 21 5)) (Fin.ofNat 32 (fld w 16 5)) (Fin.ofNat 32 (fld w 11 5))
  | 14 => .rol (Fin.ofNat 32 (fld w 21 5)) (Fin.ofNat 32 (fld w 16 5)) (Fin.ofNat 32 (fld w 11 5))
  | 15 => .ror (Fin.ofNat 32 (fld w 21 5)) (Fin.ofNat 32 (fld w 16 5)) (Fin.ofNat 32 (fld w 11 5))
  | 16 => .clz (Fin.ofNat 32 (fld w 21 5)) (Fin.ofNat 32 (fld w 16 5))
  | 17 => .ctz (Fin.ofNat 32 (fld w 21 5)) (Fin.ofNat 32 (fld w 16 5))
  | 18 => .popc (Fin.ofNat 32 (fld w 21 5)) (Fin.ofNat 32 (fld w 16 5))
  | _ => .illegalInstr

/-- Major 0x09: integer immediate forms. -/
noncomputable def build09 (w : Nat) : Instr :=
  match fld w 12 4 with
  | 0 => .addi (Fin.ofNat 32 (fld w 21 5)) (Fin.ofNat 32 (fld w 16 5)) (BitVec.ofNat 12 (fld w 0 12))
  | 1 => .andi (Fin.ofNat 32 (fld w 21 5)) (Fin.ofNat 32 (fld w 16 5)) (BitVec.ofNat 12 (fld w 0 12))
  | 2 => .ori (Fin.ofNat 32 (fld w 21 5)) (Fin.ofNat 32 (fld w 16 5)) (BitVec.ofNat 12 (fld w 0 12))
  | 3 => .xori (Fin.ofNat 32 (fld w 21 5)) (Fin.ofNat 32 (fld w 16 5)) (BitVec.ofNat 12 (fld w 0 12))
  | 4 => .slti (Fin.ofNat 32 (fld w 21 5)) (Fin.ofNat 32 (fld w 16 5)) (BitVec.ofNat 12 (fld w 0 12))
  | 5 => .sltiu (Fin.ofNat 32 (fld w 21 5)) (Fin.ofNat 32 (fld w 16 5)) (BitVec.ofNat 12 (fld w 0 12))
  | 6 => .slli (Fin.ofNat 32 (fld w 21 5)) (Fin.ofNat 32 (fld w 16 5)) (Fin.ofNat 64 (fld w 0 6))
  | 7 => .srli (Fin.ofNat 32 (fld w 21 5)) (Fin.ofNat 32 (fld w 16 5)) (Fin.ofNat 64 (fld w 0 6))
  | 8 => .srai (Fin.ofNat 32 (fld w 21 5)) (Fin.ofNat 32 (fld w 16 5)) (Fin.ofNat 64 (fld w 0 6))
  | 9 => .rori (Fin.ofNat 32 (fld w 21 5)) (Fin.ofNat 32 (fld w 16 5)) (Fin.ofNat 64 (fld w 0 6))
  | _ => .illegalInstr

/-- Major 0x0A: upper immediates. -/
noncomputable def build0A (w : Nat) : Instr :=
  match fld w 16 5 with
  | 0 => .lui (Fin.ofNat 32 (fld w 21 5)) (BitVec.ofNat 16 (fld w 0 16))
  | 1 => .luih (Fin.ofNat 32 (fld w 21 5)) (BitVec.ofNat 16 (fld w 0 16))
  | 2 => .luit (Fin.ofNat 32 (fld w 21 5)) (BitVec.ofNat 16 (fld w 0 16))
  | 3 => .addpc (Fin.ofNat 32 (fld w 21 5)) (BitVec.ofNat 16 (fld w 0 16))
  | _ => .illegalInstr

/-- Major 0x0B: multiply and divide. -/
noncomputable def build0B (w : Nat) : Instr :=
  match fld w 0 11 with
  | 0 => .mul (Fin.ofNat 32 (fld w 21 5)) (Fin.ofNat 32 (fld w 16 5)) (Fin.ofNat 32 (fld w 11 5))
  | 1 => .mulh (Fin.ofNat 32 (fld w 21 5)) (Fin.ofNat 32 (fld w 16 5)) (Fin.ofNat 32 (fld w 11 5))
  | 2 => .mulhu (Fin.ofNat 32 (fld w 21 5)) (Fin.ofNat 32 (fld w 16 5)) (Fin.ofNat 32 (fld w 11 5))
  | 3 => .div (Fin.ofNat 32 (fld w 21 5)) (Fin.ofNat 32 (fld w 16 5)) (Fin.ofNat 32 (fld w 11 5))
  | 4 => .divu (Fin.ofNat 32 (fld w 21 5)) (Fin.ofNat 32 (fld w 16 5)) (Fin.ofNat 32 (fld w 11 5))
  | 5 => .rem (Fin.ofNat 32 (fld w 21 5)) (Fin.ofNat 32 (fld w 16 5)) (Fin.ofNat 32 (fld w 11 5))
  | 6 => .remu (Fin.ofNat 32 (fld w 21 5)) (Fin.ofNat 32 (fld w 16 5)) (Fin.ofNat 32 (fld w 11 5))
  | _ => .illegalInstr

/-- Major 0x10: loads. -/
noncomputable def build10 (w : Nat) : Instr :=
  match fld w 12 4 with
  | 0 => .ldb (Fin.ofNat 32 (fld w 21 5)) (Fin.ofNat 32 (fld w 16 5)) (BitVec.ofNat 12 (fld w 0 12))
  | 1 => .ldbu (Fin.ofNat 32 (fld w 21 5)) (Fin.ofNat 32 (fld w 16 5)) (BitVec.ofNat 12 (fld w 0 12))
  | 2 => .ldh (Fin.ofNat 32 (fld w 21 5)) (Fin.ofNat 32 (fld w 16 5)) (BitVec.ofNat 12 (fld w 0 12))
  | 3 => .ldhu (Fin.ofNat 32 (fld w 21 5)) (Fin.ofNat 32 (fld w 16 5)) (BitVec.ofNat 12 (fld w 0 12))
  | 4 => .ldw (Fin.ofNat 32 (fld w 21 5)) (Fin.ofNat 32 (fld w 16 5)) (BitVec.ofNat 12 (fld w 0 12))
  | 5 => .ldwu (Fin.ofNat 32 (fld w 21 5)) (Fin.ofNat 32 (fld w 16 5)) (BitVec.ofNat 12 (fld w 0 12))
  | 6 => .ldd (Fin.ofNat 32 (fld w 21 5)) (Fin.ofNat 32 (fld w 16 5)) (BitVec.ofNat 12 (fld w 0 12))
  | 7 => .xpref (Fin.ofNat 32 (fld w 16 5)) (BitVec.ofNat 12 (fld w 0 12))
  | _ => .illegalInstr

/-- Major 0x11: stores. -/
noncomputable def build11 (w : Nat) : Instr :=
  match fld w 12 4 with
  | 0 => .stb (Fin.ofNat 32 (fld w 21 5)) (Fin.ofNat 32 (fld w 16 5)) (BitVec.ofNat 12 (fld w 0 12))
  | 1 => .sth (Fin.ofNat 32 (fld w 21 5)) (Fin.ofNat 32 (fld w 16 5)) (BitVec.ofNat 12 (fld w 0 12))
  | 2 => .stw (Fin.ofNat 32 (fld w 21 5)) (Fin.ofNat 32 (fld w 16 5)) (BitVec.ofNat 12 (fld w 0 12))
  | 3 => .std (Fin.ofNat 32 (fld w 21 5)) (Fin.ofNat 32 (fld w 16 5)) (BitVec.ofNat 12 (fld w 0 12))
  | 4 => .stn (Fin.ofNat 32 (fld w 21 5)) (Fin.ofNat 32 (fld w 16 5)) (BitVec.ofNat 12 (fld w 0 12))
  | _ => .illegalInstr

/-- Major 0x12: atomics. -/
noncomputable def build12 (w : Nat) : Instr :=
  match fld w 0 4 with
  | 0 => .amoadd (Fin.ofNat 32 (fld w 21 5)) (Fin.ofNat 32 (fld w 16 5)) (Fin.ofNat 32 (fld w 11 5)) (decide (fld w 8 1 = 1))
  | 1 => .amoand (Fin.ofNat 32 (fld w 21 5)) (Fin.ofNat 32 (fld w 16 5)) (Fin.ofNat 32 (fld w 11 5)) (decide (fld w 8 1 = 1))
  | 2 => .amoor (Fin.ofNat 32 (fld w 21 5)) (Fin.ofNat 32 (fld w 16 5)) (Fin.ofNat 32 (fld w 11 5)) (decide (fld w 8 1 = 1))
  | 3 => .amoxor (Fin.ofNat 32 (fld w 21 5)) (Fin.ofNat 32 (fld w 16 5)) (Fin.ofNat 32 (fld w 11 5)) (decide (fld w 8 1 = 1))
  | 4 => .amomin (Fin.ofNat 32 (fld w 21 5)) (Fin.ofNat 32 (fld w 16 5)) (Fin.ofNat 32 (fld w 11 5)) (decide (fld w 8 1 = 1))
  | 5 => .amomax (Fin.ofNat 32 (fld w 21 5)) (Fin.ofNat 32 (fld w 16 5)) (Fin.ofNat 32 (fld w 11 5)) (decide (fld w 8 1 = 1))
  | 6 => .amominu (Fin.ofNat 32 (fld w 21 5)) (Fin.ofNat 32 (fld w 16 5)) (Fin.ofNat 32 (fld w 11 5)) (decide (fld w 8 1 = 1))
  | 7 => .amomaxu (Fin.ofNat 32 (fld w 21 5)) (Fin.ofNat 32 (fld w 16 5)) (Fin.ofNat 32 (fld w 11 5)) (decide (fld w 8 1 = 1))
  | 8 => .amoswap (Fin.ofNat 32 (fld w 21 5)) (Fin.ofNat 32 (fld w 16 5)) (Fin.ofNat 32 (fld w 11 5)) (decide (fld w 8 1 = 1))
  | 9 => .amocas (Fin.ofNat 32 (fld w 21 5)) (Fin.ofNat 32 (fld w 16 5)) (Fin.ofNat 32 (fld w 11 5)) (decide (fld w 8 1 = 1))
  | _ => .illegalInstr

/-- Major 0x13: sync instructions. -/
noncomputable def build13 (w : Nat) : Instr :=
  match fld w 0 11 with
  | 0 => .bind (Fin.ofNat 32 (fld w 21 5)) (Fin.ofNat 32 (fld w 16 5)) (Fin.ofNat 32 (fld w 11 5))
  | 1 => .acq (Fin.ofNat 32 (fld w 16 5))
  | 2 => .acqr (Fin.ofNat 32 (fld w 16 5))
  | 3 => .rel (Fin.ofNat 32 (fld w 16 5))
  | 4 => .fence (Fin.ofNat 32 (fld w 16 5))
  | 5 => .discard (Fin.ofNat 32 (fld w 21 5)) (Fin.ofNat 32 (fld w 16 5)) (Fin.ofNat 32 (fld w 11 5))
  | _ => .illegalInstr

/-- Major 0x14: stream configuration. -/
noncomputable def build14 (w : Nat) : Instr :=
  match fld w 0 11 with
  | 0 => .scfg (Fin.ofNat 4 (fld w 21 2)) (Fin.ofNat 32 (fld w 16 5)) (Fin.ofNat 32 (fld w 11 5))
  | 1 => .sdim (Fin.ofNat 4 (fld w 23 2)) (Fin.ofNat 4 (fld w 21 2)) (Fin.ofNat 32 (fld w 16 5)) (Fin.ofNat 32 (fld w 11 5))
  | 2 => .sind (Fin.ofNat 4 (fld w 21 2)) (Fin.ofNat 4 (fld w 16 2)) (Fin.ofNat 32 (fld w 11 5))
  | 3 => .sman (Fin.ofNat 4 (fld w 21 2)) (Fin.ofNat 32 (fld w 11 5))
  | 4 => .sen (Fin.ofNat 4 (fld w 21 2))
  | 5 => .sdis (Fin.ofNat 4 (fld w 21 2))
  | 6 => .sflush (Fin.ofNat 4 (fld w 21 2))
  | _ => .illegalInstr

/-- Major 0x15: stream transfers and control queues. -/
noncomputable def build15 (w : Nat) : Instr :=
  match fld w 0 11 with
  | 0 => .ldq (Fin.ofNat 4 (fld w 21 2)) (Fin.ofNat 32 (fld w 16 5))
  | 1 => .stq (Fin.ofNat 4 (fld w 21 2)) (Fin.ofNat 32 (fld w 16 5))
  | 2 => .qput (Fin.ofNat 32 (fld w 16 5))
  | 3 => .qget (Fin.ofNat 32 (fld w 21 5))
  | _ => .illegalInstr

/-- Major 0x16: RPT. -/
noncomputable def build16 (w : Nat) : Instr :=
  .rpt (Fin.ofNat 32 (fld w 16 5)) (BitVec.ofNat 4 (fld w 6 4)) (Fin.ofNat 4 (fld w 4 2)) (Fin.ofNat 16 (fld w 0 4))

/-- Major 0x18: channels. -/
noncomputable def build18 (w : Nat) : Instr :=
  match fld w 0 11 with
  | 0 => .send (Fin.ofNat 32 (fld w 21 5)) (Fin.ofNat 32 (fld w 16 5)) (Fin.ofNat 32 (fld w 11 5))
  | 1 => .sendm (Fin.ofNat 32 (fld w 21 5)) (Fin.ofNat 32 (fld w 16 5)) (Fin.ofNat 32 (fld w 11 5))
  | 2 => .recv (Fin.ofNat 32 (fld w 21 5)) (Fin.ofNat 32 (fld w 16 5)) (Fin.ofNat 32 (fld w 11 5))
  | 3 => .recvm (Fin.ofNat 32 (fld w 21 5)) (Fin.ofNat 32 (fld w 16 5)) (Fin.ofNat 32 (fld w 11 5))
  | 4 => .mark
  | 5 => .radv (Fin.ofNat 32 (fld w 21 5))
  | 6 => if fld w 11 5 = 0 then .chstatState (Fin.ofNat 32 (fld w 21 5)) (Fin.ofNat 32 (fld w 16 5))
    else if fld w 11 5 = 1 then .chstatDecl (Fin.ofNat 32 (fld w 21 5)) (Fin.ofNat 32 (fld w 16 5))
    else if fld w 11 5 = 2 then .chstatClose (Fin.ofNat 32 (fld w 21 5)) (Fin.ofNat 32 (fld w 16 5))
    else if fld w 11 10 = 3 then .chstatKword (Fin.ofNat 32 (fld w 21 5))
    else if fld w 11 10 = 4 then .chstatRound (Fin.ofNat 32 (fld w 21 5))
    else .chstatSeq (Fin.ofNat 32 (fld w 21 5)) (Fin.ofNat 32 (fld w 16 5))
  | 7 => if fld w 21 5 = 0 then .kickRing (Fin.ofNat 32 (fld w 16 5)) (Fin.ofNat 32 (fld w 11 5))
    else if fld w 21 5 = 1 then .kickMbox (Fin.ofNat 32 (fld w 16 5)) (Fin.ofNat 32 (fld w 11 5))
    else if fld w 21 5 = 2 then .kickDone (Fin.ofNat 32 (fld w 16 5)) (Fin.ofNat 32 (fld w 11 5))
    else .kickDonerec (Fin.ofNat 32 (fld w 16 5)) (Fin.ofNat 32 (fld w 11 5))
  | _ => .illegalInstr

/-- Major 0x19: barriers. -/
noncomputable def build19 (w : Nat) : Instr :=
  match fld w 0 11 with
  | 0 => .bcfg (Fin.ofNat 32 (fld w 16 5)) (Fin.ofNat 4 (fld w 11 2))
  | 1 => .barr (Fin.ofNat 4 (fld w 11 2))
  | 2 => .bwait (Fin.ofNat 4 (fld w 11 2))
  | 3 => .bsync (Fin.ofNat 4 (fld w 11 2))
  | 4 => .btest (Fin.ofNat 32 (fld w 21 5)) (Fin.ofNat 4 (fld w 11 2))
  | _ => .illegalInstr

/-- Major 0x1A: work queues. -/
noncomputable def build1A (w : Nat) : Instr :=
  match fld w 0 11 with
  | 0 => .rqpush (decide (fld w 21 1 = 1)) (Fin.ofNat 32 (fld w 16 5)) (Fin.ofNat 32 (fld w 11 5))
  | 1 => .next (Fin.ofNat 32 (fld w 16 5))
  | 2 => .nextw (Fin.ofNat 32 (fld w 21 5))
  | 3 => .append (Fin.ofNat 32 (fld w 21 5)) (Fin.ofNat 32 (fld w 16 5)) (Fin.ofNat 32 (fld w 11 5))
  | 4 => if fld w 11 5 = 0 then .take (Fin.ofNat 32 (fld w 21 5)) (Fin.ofNat 32 (fld w 16 5))
    else .takeEndHold (Fin.ofNat 32 (fld w 21 5)) (Fin.ofNat 32 (fld w 16 5))
  | 5 => .tdarm (Fin.ofNat 32 (fld w 16 5)) (Fin.ofNat 32 (fld w 11 5))
  | _ => .illegalInstr

/-- Major 0x1B: kernels and groups. -/
noncomputable def build1B (w : Nat) : Instr :=
  match fld w 0 11 with
  | 0 => .launch (Fin.ofNat 32 (fld w 21 5)) (Fin.ofNat 32 (fld w 16 5)) (Fin.ofNat 32 (fld w 11 5))
  | 1 => .lwait (Fin.ofNat 32 (fld w 21 5)) (Fin.ofNat 32 (fld w 16 5))
  | 2 => .cancel (Fin.ofNat 32 (fld w 21 5)) (Fin.ofNat 32 (fld w 16 5))
  | 3 => .cntrd (Fin.ofNat 32 (fld w 21 5)) (Fin.ofNat 32 (fld w 16 5))
  | 4 => .ginfo (Fin.ofNat 32 (fld w 21 5)) (Fin.ofNat 32 (fld w 16 5)) (Fin.ofNat 32 (fld w 11 5))
  | 5 => .gdone (Fin.ofNat 32 (fld w 16 5))
  | _ => .illegalInstr

/-- Major 0x1C: events, contexts and pages. -/
noncomputable def build1C (w : Nat) : Instr :=
  match fld w 0 11 with
  | 0 => .evpop (Fin.ofNat 32 (fld w 21 5)) (Fin.ofNat 32 (fld w 16 5))
  | 1 => .evpush (Fin.ofNat 32 (fld w 21 5)) (Fin.ofNat 32 (fld w 16 5)) (Fin.ofNat 32 (fld w 11 5))
  | 2 => .preempt (Fin.ofNat 32 (fld w 21 5)) (Fin.ofNat 32 (fld w 16 5))
  | 3 => .save (Fin.ofNat 32 (fld w 21 5)) (Fin.ofNat 32 (fld w 16 5))
  | 4 => .restore (Fin.ofNat 32 (fld w 21 5)) (Fin.ofNat 32 (fld w 16 5))
  | 5 => .pinv (Fin.ofNat 32 (fld w 21 5)) (Fin.ofNat 32 (fld w 16 5)) (Fin.ofNat 32 (fld w 11 5))
  | 6 => .pprobe (Fin.ofNat 32 (fld w 21 5)) (Fin.ofNat 32 (fld w 16 5)) (Fin.ofNat 32 (fld w 11 5))
  | 7 => .chkpair (Fin.ofNat 32 (fld w 21 5)) (Fin.ofNat 32 (fld w 16 5))
  | 8 => .hmigrate (Fin.ofNat 32 (fld w 21 5)) (Fin.ofNat 32 (fld w 16 5))
  | _ => .illegalInstr

/-- Major 0x1D: frames, time and links. -/
noncomputable def build1D (w : Nat) : Instr :=
  match fld w 0 11 with
  | 0 => .frpop (Fin.ofNat 32 (fld w 21 5)) (Fin.ofNat 32 (fld w 16 5))
  | 1 => .timerd (Fin.ofNat 32 (fld w 21 5)) (Fin.ofNat 32 (fld w 16 5))
  | 2 => if fld w 11 5 = 0 then .lstatRead (Fin.ofNat 32 (fld w 21 5)) (Fin.ofNat 32 (fld w 16 5))
    else if fld w 11 5 = 1 then .lstatEnable (Fin.ofNat 32 (fld w 21 5)) (Fin.ofNat 32 (fld w 16 5))
    else if fld w 11 5 = 2 then .lstatDisable (Fin.ofNat 32 (fld w 21 5)) (Fin.ofNat 32 (fld w 16 5))
    else .lstatRetrain (Fin.ofNat 32 (fld w 21 5)) (Fin.ofNat 32 (fld w 16 5))
  | _ => .illegalInstr

/-- Major 0x20: float arithmetic. -/
noncomputable def build20 (w : Nat) : Instr :=
  match fld w 0 4 with
  | 0 => .fadd (Fin.ofNat 32 (fld w 21 5)) (Fin.ofNat 32 (fld w 16 5)) (Fin.ofNat 32 (fld w 11 5)) (Fin.ofNat 8 (fld w 8 3)) (Fin.ofNat 16 (fld w 4 4))
  | 1 => .fsub (Fin.ofNat 32 (fld w 21 5)) (Fin.ofNat 32 (fld w 16 5)) (Fin.ofNat 32 (fld w 11 5)) (Fin.ofNat 8 (fld w 8 3)) (Fin.ofNat 16 (fld w 4 4))
  | 2 => .fmul (Fin.ofNat 32 (fld w 21 5)) (Fin.ofNat 32 (fld w 16 5)) (Fin.ofNat 32 (fld w 11 5)) (Fin.ofNat 8 (fld w 8 3)) (Fin.ofNat 16 (fld w 4 4))
  | 3 => .fdiv (Fin.ofNat 32 (fld w 21 5)) (Fin.ofNat 32 (fld w 16 5)) (Fin.ofNat 32 (fld w 11 5)) (Fin.ofNat 8 (fld w 8 3)) (Fin.ofNat 16 (fld w 4 4))
  | 4 => .fsqrt (Fin.ofNat 32 (fld w 21 5)) (Fin.ofNat 32 (fld w 16 5)) (Fin.ofNat 8 (fld w 8 3)) (Fin.ofNat 16 (fld w 4 4))
  | 5 => .fmin (Fin.ofNat 32 (fld w 21 5)) (Fin.ofNat 32 (fld w 16 5)) (Fin.ofNat 32 (fld w 11 5)) (Fin.ofNat 8 (fld w 8 3)) (Fin.ofNat 16 (fld w 4 4))
  | 6 => .fmax (Fin.ofNat 32 (fld w 21 5)) (Fin.ofNat 32 (fld w 16 5)) (Fin.ofNat 32 (fld w 11 5)) (Fin.ofNat 8 (fld w 8 3)) (Fin.ofNat 16 (fld w 4 4))
  | 7 => .fsgnj (Fin.ofNat 32 (fld w 21 5)) (Fin.ofNat 32 (fld w 16 5)) (Fin.ofNat 32 (fld w 11 5)) (Fin.ofNat 8 (fld w 8 3)) (Fin.ofNat 16 (fld w 4 4))
  | 8 => .fsgnjn (Fin.ofNat 32 (fld w 21 5)) (Fin.ofNat 32 (fld w 16 5)) (Fin.ofNat 32 (fld w 11 5)) (Fin.ofNat 8 (fld w 8 3)) (Fin.ofNat 16 (fld w 4 4))
  | 9 => .fsgnjx (Fin.ofNat 32 (fld w 21 5)) (Fin.ofNat 32 (fld w 16 5)) (Fin.ofNat 32 (fld w 11 5)) (Fin.ofNat 8 (fld w 8 3)) (Fin.ofNat 16 (fld w 4 4))
  | 10 => .fclass (Fin.ofNat 32 (fld w 21 5)) (Fin.ofNat 32 (fld w 16 5)) (Fin.ofNat 8 (fld w 8 3)) (Fin.ofNat 16 (fld w 4 4))
  | 11 => .fmov (Fin.ofNat 32 (fld w 21 5)) (Fin.ofNat 32 (fld w 16 5)) (Fin.ofNat 8 (fld w 8 3)) (Fin.ofNat 16 (fld w 4 4))
  | _ => .illegalInstr

/-- Major 0x21: fused float arithmetic. -/
noncomputable def build21 (w : Nat) : Instr :=
  match fld w 0 4 with
  | 0 => .fmadd (Fin.ofNat 32 (fld w 21 5)) (Fin.ofNat 32 (fld w 16 5)) (Fin.ofNat 32 (fld w 11 5)) (Fin.ofNat 32 (fld w 6 5)) (Fin.ofNat 4 (fld w 4 2))
  | 1 => .fmsub (Fin.ofNat 32 (fld w 21 5)) (Fin.ofNat 32 (fld w 16 5)) (Fin.ofNat 32 (fld w 11 5)) (Fin.ofNat 32 (fld w 6 5)) (Fin.ofNat 4 (fld w 4 2))
  | 2 => .fnmadd (Fin.ofNat 32 (fld w 21 5)) (Fin.ofNat 32 (fld w 16 5)) (Fin.ofNat 32 (fld w 11 5)) (Fin.ofNat 32 (fld w 6 5)) (Fin.ofNat 4 (fld w 4 2))
  | 3 => .fnmsub (Fin.ofNat 32 (fld w 21 5)) (Fin.ofNat 32 (fld w 16 5)) (Fin.ofNat 32 (fld w 11 5)) (Fin.ofNat 32 (fld w 6 5)) (Fin.ofNat 4 (fld w 4 2))
  | _ => .illegalInstr

/-- Major 0x22: float conversions and compares. -/
noncomputable def build22 (w : Nat) : Instr :=
  match fld w 0 4 with
  | 0 => .fcvt (Fin.ofNat 32 (fld w 21 5)) (Fin.ofNat 32 (fld w 16 5)) (Fin.ofNat 16 (fld w 11 4)) (Fin.ofNat 8 (fld w 8 3)) (Fin.ofNat 16 (fld w 4 4))
  | 1 => .feq (Fin.ofNat 32 (fld w 21 5)) (Fin.ofNat 32 (fld w 16 5)) (Fin.ofNat 32 (fld w 11 5)) (Fin.ofNat 8 (fld w 8 3)) (Fin.ofNat 16 (fld w 4 4))
  | 2 => .flt (Fin.ofNat 32 (fld w 21 5)) (Fin.ofNat 32 (fld w 16 5)) (Fin.ofNat 32 (fld w 11 5)) (Fin.ofNat 8 (fld w 8 3)) (Fin.ofNat 16 (fld w 4 4))
  | 3 => .fle (Fin.ofNat 32 (fld w 21 5)) (Fin.ofNat 32 (fld w 16 5)) (Fin.ofNat 32 (fld w 11 5)) (Fin.ofNat 8 (fld w 8 3)) (Fin.ofNat 16 (fld w 4 4))
  | 4 => .funord (Fin.ofNat 32 (fld w 21 5)) (Fin.ofNat 32 (fld w 16 5)) (Fin.ofNat 32 (fld w 11 5)) (Fin.ofNat 8 (fld w 8 3)) (Fin.ofNat 16 (fld w 4 4))
  | 5 => .fcvtfl (Fin.ofNat 32 (fld w 21 5)) (Fin.ofNat 32 (fld w 16 5)) (Fin.ofNat 8 (fld w 8 3)) (Fin.ofNat 16 (fld w 4 4))
  | 6 => .fcvtlf (Fin.ofNat 32 (fld w 21 5)) (Fin.ofNat 32 (fld w 16 5)) (Fin.ofNat 8 (fld w 8 3)) (Fin.ofNat 16 (fld w 4 4))
  | _ => .illegalInstr

/-- Major 0x23: integers in f. -/
noncomputable def build23 (w : Nat) : Instr :=
  match fld w 0 4 with
  | 0 => .iadd (Fin.ofNat 32 (fld w 21 5)) (Fin.ofNat 32 (fld w 16 5)) (Fin.ofNat 32 (fld w 11 5)) (Fin.ofNat 8 (fld w 8 3))
  | 1 => .isub (Fin.ofNat 32 (fld w 21 5)) (Fin.ofNat 32 (fld w 16 5)) (Fin.ofNat 32 (fld w 11 5)) (Fin.ofNat 8 (fld w 8 3))
  | 2 => .imul (Fin.ofNat 32 (fld w 21 5)) (Fin.ofNat 32 (fld w 16 5)) (Fin.ofNat 32 (fld w 11 5)) (Fin.ofNat 8 (fld w 8 3))
  | 3 => .iand (Fin.ofNat 32 (fld w 21 5)) (Fin.ofNat 32 (fld w 16 5)) (Fin.ofNat 32 (fld w 11 5)) (Fin.ofNat 8 (fld w 8 3))
  | 4 => .ior (Fin.ofNat 32 (fld w 21 5)) (Fin.ofNat 32 (fld w 16 5)) (Fin.ofNat 32 (fld w 11 5)) (Fin.ofNat 8 (fld w 8 3))
  | 5 => .ixor (Fin.ofNat 32 (fld w 21 5)) (Fin.ofNat 32 (fld w 16 5)) (Fin.ofNat 32 (fld w 11 5)) (Fin.ofNat 8 (fld w 8 3))
  | 6 => .isll (Fin.ofNat 32 (fld w 21 5)) (Fin.ofNat 32 (fld w 16 5)) (Fin.ofNat 32 (fld w 11 5)) (Fin.ofNat 8 (fld w 8 3))
  | 7 => .isrl (Fin.ofNat 32 (fld w 21 5)) (Fin.ofNat 32 (fld w 16 5)) (Fin.ofNat 32 (fld w 11 5)) (Fin.ofNat 8 (fld w 8 3))
  | 8 => .isra (Fin.ofNat 32 (fld w 21 5)) (Fin.ofNat 32 (fld w 16 5)) (Fin.ofNat 32 (fld w 11 5)) (Fin.ofNat 8 (fld w 8 3))
  | 9 => .imin (Fin.ofNat 32 (fld w 21 5)) (Fin.ofNat 32 (fld w 16 5)) (Fin.ofNat 32 (fld w 11 5)) (Fin.ofNat 8 (fld w 8 3))
  | 10 => .imax (Fin.ofNat 32 (fld w 21 5)) (Fin.ofNat 32 (fld w 16 5)) (Fin.ofNat 32 (fld w 11 5)) (Fin.ofNat 8 (fld w 8 3))
  | 11 => .iminu (Fin.ofNat 32 (fld w 21 5)) (Fin.ofNat 32 (fld w 16 5)) (Fin.ofNat 32 (fld w 11 5)) (Fin.ofNat 8 (fld w 8 3))
  | 12 => .imaxu (Fin.ofNat 32 (fld w 21 5)) (Fin.ofNat 32 (fld w 16 5)) (Fin.ofNat 32 (fld w 11 5)) (Fin.ofNat 8 (fld w 8 3))
  | 13 => .islt (Fin.ofNat 32 (fld w 21 5)) (Fin.ofNat 32 (fld w 16 5)) (Fin.ofNat 32 (fld w 11 5)) (Fin.ofNat 8 (fld w 8 3))
  | 14 => .isltu (Fin.ofNat 32 (fld w 21 5)) (Fin.ofNat 32 (fld w 16 5)) (Fin.ofNat 32 (fld w 11 5)) (Fin.ofNat 8 (fld w 8 3))
  | 15 => .imovi (Fin.ofNat 32 (fld w 21 5)) (BitVec.ofNat 10 (fld w 11 10)) (Fin.ofNat 8 (fld w 8 3))
  | _ => .illegalInstr

/-- Major 0x28: integer lanes. -/
noncomputable def build28 (w : Nat) : Instr :=
  match fld w 0 4 with
  | 0 => .vadd (Fin.ofNat 32 (fld w 21 5)) (Fin.ofNat 32 (fld w 16 5)) (Fin.ofNat 32 (fld w 11 5)) (Fin.ofNat 8 (fld w 8 3)) (Fin.ofNat 16 (fld w 4 4))
  | 1 => .vsub (Fin.ofNat 32 (fld w 21 5)) (Fin.ofNat 32 (fld w 16 5)) (Fin.ofNat 32 (fld w 11 5)) (Fin.ofNat 8 (fld w 8 3)) (Fin.ofNat 16 (fld w 4 4))
  | 2 => .vmul (Fin.ofNat 32 (fld w 21 5)) (Fin.ofNat 32 (fld w 16 5)) (Fin.ofNat 32 (fld w 11 5)) (Fin.ofNat 8 (fld w 8 3)) (Fin.ofNat 16 (fld w 4 4))
  | 3 => .vmin (Fin.ofNat 32 (fld w 21 5)) (Fin.ofNat 32 (fld w 16 5)) (Fin.ofNat 32 (fld w 11 5)) (Fin.ofNat 8 (fld w 8 3)) (Fin.ofNat 16 (fld w 4 4))
  | 4 => .vmax (Fin.ofNat 32 (fld w 21 5)) (Fin.ofNat 32 (fld w 16 5)) (Fin.ofNat 32 (fld w 11 5)) (Fin.ofNat 8 (fld w 8 3)) (Fin.ofNat 16 (fld w 4 4))
  | 5 => .vminu (Fin.ofNat 32 (fld w 21 5)) (Fin.ofNat 32 (fld w 16 5)) (Fin.ofNat 32 (fld w 11 5)) (Fin.ofNat 8 (fld w 8 3)) (Fin.ofNat 16 (fld w 4 4))
  | 6 => .vmaxu (Fin.ofNat 32 (fld w 21 5)) (Fin.ofNat 32 (fld w 16 5)) (Fin.ofNat 32 (fld w 11 5)) (Fin.ofNat 8 (fld w 8 3)) (Fin.ofNat 16 (fld w 4 4))
  | 7 => .vand (Fin.ofNat 32 (fld w 21 5)) (Fin.ofNat 32 (fld w 16 5)) (Fin.ofNat 32 (fld w 11 5)) (Fin.ofNat 8 (fld w 8 3)) (Fin.ofNat 16 (fld w 4 4))
  | 8 => .vor (Fin.ofNat 32 (fld w 21 5)) (Fin.ofNat 32 (fld w 16 5)) (Fin.ofNat 32 (fld w 11 5)) (Fin.ofNat 8 (fld w 8 3)) (Fin.ofNat 16 (fld w 4 4))
  | 9 => .vxor (Fin.ofNat 32 (fld w 21 5)) (Fin.ofNat 32 (fld w 16 5)) (Fin.ofNat 32 (fld w 11 5)) (Fin.ofNat 8 (fld w 8 3)) (Fin.ofNat 16 (fld w 4 4))
  | 10 => .vsll (Fin.ofNat 32 (fld w 21 5)) (Fin.ofNat 32 (fld w 16 5)) (Fin.ofNat 32 (fld w 11 5)) (Fin.ofNat 8 (fld w 8 3)) (Fin.ofNat 16 (fld w 4 4))
  | 11 => .vsrl (Fin.ofNat 32 (fld w 21 5)) (Fin.ofNat 32 (fld w 16 5)) (Fin.ofNat 32 (fld w 11 5)) (Fin.ofNat 8 (fld w 8 3)) (Fin.ofNat 16 (fld w 4 4))
  | 12 => .vsra (Fin.ofNat 32 (fld w 21 5)) (Fin.ofNat 32 (fld w 16 5)) (Fin.ofNat 32 (fld w 11 5)) (Fin.ofNat 8 (fld w 8 3)) (Fin.ofNat 16 (fld w 4 4))
  | 13 => .vmulh (Fin.ofNat 32 (fld w 21 5)) (Fin.ofNat 32 (fld w 16 5)) (Fin.ofNat 32 (fld w 11 5)) (Fin.ofNat 8 (fld w 8 3)) (Fin.ofNat 16 (fld w 4 4))
  | 14 => .vmulhu (Fin.ofNat 32 (fld w 21 5)) (Fin.ofNat 32 (fld w 16 5)) (Fin.ofNat 32 (fld w 11 5)) (Fin.ofNat 8 (fld w 8 3)) (Fin.ofNat 16 (fld w 4 4))
  | 15 => .vabsd (Fin.ofNat 32 (fld w 21 5)) (Fin.ofNat 32 (fld w 16 5)) (Fin.ofNat 32 (fld w 11 5)) (Fin.ofNat 8 (fld w 8 3)) (Fin.ofNat 16 (fld w 4 4))
  | _ => .illegalInstr

/-- Major 0x29: float lanes. -/
noncomputable def build29 (w : Nat) : Instr :=
  match fld w 0 4 with
  | 0 => .vfadd (Fin.ofNat 32 (fld w 21 5)) (Fin.ofNat 32 (fld w 16 5)) (Fin.ofNat 32 (fld w 11 5)) (Fin.ofNat 8 (fld w 8 3)) (Fin.ofNat 16 (fld w 4 4))
  | 1 => .vfsub (Fin.ofNat 32 (fld w 21 5)) (Fin.ofNat 32 (fld w 16 5)) (Fin.ofNat 32 (fld w 11 5)) (Fin.ofNat 8 (fld w 8 3)) (Fin.ofNat 16 (fld w 4 4))
  | 2 => .vfmul (Fin.ofNat 32 (fld w 21 5)) (Fin.ofNat 32 (fld w 16 5)) (Fin.ofNat 32 (fld w 11 5)) (Fin.ofNat 8 (fld w 8 3)) (Fin.ofNat 16 (fld w 4 4))
  | 3 => .vfdiv (Fin.ofNat 32 (fld w 21 5)) (Fin.ofNat 32 (fld w 16 5)) (Fin.ofNat 32 (fld w 11 5)) (Fin.ofNat 8 (fld w 8 3)) (Fin.ofNat 16 (fld w 4 4))
  | 4 => .vfsqrt (Fin.ofNat 32 (fld w 21 5)) (Fin.ofNat 32 (fld w 16 5)) (Fin.ofNat 8 (fld w 8 3)) (Fin.ofNat 16 (fld w 4 4))
  | 5 => .vfmin (Fin.ofNat 32 (fld w 21 5)) (Fin.ofNat 32 (fld w 16 5)) (Fin.ofNat 32 (fld w 11 5)) (Fin.ofNat 8 (fld w 8 3)) (Fin.ofNat 16 (fld w 4 4))
  | 6 => .vfmax (Fin.ofNat 32 (fld w 21 5)) (Fin.ofNat 32 (fld w 16 5)) (Fin.ofNat 32 (fld w 11 5)) (Fin.ofNat 8 (fld w 8 3)) (Fin.ofNat 16 (fld w 4 4))
  | 7 => .vfabs (Fin.ofNat 32 (fld w 21 5)) (Fin.ofNat 32 (fld w 16 5)) (Fin.ofNat 8 (fld w 8 3)) (Fin.ofNat 16 (fld w 4 4))
  | 8 => .vfneg (Fin.ofNat 32 (fld w 21 5)) (Fin.ofNat 32 (fld w 16 5)) (Fin.ofNat 8 (fld w 8 3)) (Fin.ofNat 16 (fld w 4 4))
  | 9 => .vfeq (Fin.ofNat 32 (fld w 21 5)) (Fin.ofNat 32 (fld w 16 5)) (Fin.ofNat 32 (fld w 11 5)) (Fin.ofNat 8 (fld w 8 3)) (Fin.ofNat 16 (fld w 4 4))
  | 10 => .vflt (Fin.ofNat 32 (fld w 21 5)) (Fin.ofNat 32 (fld w 16 5)) (Fin.ofNat 32 (fld w 11 5)) (Fin.ofNat 8 (fld w 8 3)) (Fin.ofNat 16 (fld w 4 4))
  | 11 => .vfle (Fin.ofNat 32 (fld w 21 5)) (Fin.ofNat 32 (fld w 16 5)) (Fin.ofNat 32 (fld w 11 5)) (Fin.ofNat 8 (fld w 8 3)) (Fin.ofNat 16 (fld w 4 4))
  | 12 => .vsel (Fin.ofNat 32 (fld w 21 5)) (Fin.ofNat 32 (fld w 16 5)) (Fin.ofNat 32 (fld w 11 5)) (Fin.ofNat 8 (fld w 8 3)) (Fin.ofNat 16 (fld w 4 4))
  | _ => .illegalInstr

/-- Major 0x2A: fused float lanes. -/
noncomputable def build2A (w : Nat) : Instr :=
  match fld w 0 2 with
  | 0 => .vfmadd (Fin.ofNat 32 (fld w 21 5)) (Fin.ofNat 32 (fld w 16 5)) (Fin.ofNat 32 (fld w 11 5)) (Fin.ofNat 32 (fld w 6 5)) (Fin.ofNat 4 (fld w 4 2)) (Fin.ofNat 4 (fld w 2 2))
  | 1 => .vfmsub (Fin.ofNat 32 (fld w 21 5)) (Fin.ofNat 32 (fld w 16 5)) (Fin.ofNat 32 (fld w 11 5)) (Fin.ofNat 32 (fld w 6 5)) (Fin.ofNat 4 (fld w 4 2)) (Fin.ofNat 4 (fld w 2 2))
  | 2 => .vfnmadd (Fin.ofNat 32 (fld w 21 5)) (Fin.ofNat 32 (fld w 16 5)) (Fin.ofNat 32 (fld w 11 5)) (Fin.ofNat 32 (fld w 6 5)) (Fin.ofNat 4 (fld w 4 2)) (Fin.ofNat 4 (fld w 2 2))
  | 3 => .vfnmsub (Fin.ofNat 32 (fld w 21 5)) (Fin.ofNat 32 (fld w 16 5)) (Fin.ofNat 32 (fld w 11 5)) (Fin.ofNat 32 (fld w 6 5)) (Fin.ofNat 4 (fld w 4 2)) (Fin.ofNat 4 (fld w 2 2))
  | _ => .illegalInstr

/-- Major 0x2B: permutes and reductions. -/
noncomputable def build2B (w : Nat) : Instr :=
  match fld w 0 4 with
  | 0 => .vperm (Fin.ofNat 32 (fld w 21 5)) (Fin.ofNat 32 (fld w 16 5)) (Fin.ofNat 32 (fld w 11 5)) (Fin.ofNat 8 (fld w 8 3)) (Fin.ofNat 16 (fld w 4 4))
  | 1 => .vbcast (Fin.ofNat 32 (fld w 21 5)) (Fin.ofNat 32 (fld w 16 5)) (Fin.ofNat 8 (fld w 8 3)) (Fin.ofNat 16 (fld w 4 4))
  | 2 => .vslup (Fin.ofNat 32 (fld w 21 5)) (Fin.ofNat 32 (fld w 16 5)) (Fin.ofNat 32 (fld w 11 5)) (Fin.ofNat 8 (fld w 8 3)) (Fin.ofNat 16 (fld w 4 4))
  | 3 => .vsldn (Fin.ofNat 32 (fld w 21 5)) (Fin.ofNat 32 (fld w 16 5)) (Fin.ofNat 32 (fld w 11 5)) (Fin.ofNat 8 (fld w 8 3)) (Fin.ofNat 16 (fld w 4 4))
  | 4 => .vcompr (Fin.ofNat 32 (fld w 21 5)) (Fin.ofNat 32 (fld w 16 5)) (Fin.ofNat 8 (fld w 8 3)) (Fin.ofNat 16 (fld w 4 4))
  | 5 => .vexpnd (Fin.ofNat 32 (fld w 21 5)) (Fin.ofNat 32 (fld w 16 5)) (Fin.ofNat 8 (fld w 8 3)) (Fin.ofNat 16 (fld w 4 4))
  | 6 => .vrsum (Fin.ofNat 32 (fld w 21 5)) (Fin.ofNat 32 (fld w 16 5)) (Fin.ofNat 8 (fld w 8 3)) (Fin.ofNat 16 (fld w 4 4))
  | 7 => .vrmax (Fin.ofNat 32 (fld w 21 5)) (Fin.ofNat 32 (fld w 16 5)) (Fin.ofNat 8 (fld w 8 3)) (Fin.ofNat 16 (fld w 4 4))
  | 8 => .vrmin (Fin.ofNat 32 (fld w 21 5)) (Fin.ofNat 32 (fld w 16 5)) (Fin.ofNat 8 (fld w 8 3)) (Fin.ofNat 16 (fld w 4 4))
  | 9 => .vtopk (Fin.ofNat 32 (fld w 21 5)) (Fin.ofNat 32 (fld w 16 5)) (Fin.ofNat 32 (fld w 11 5)) (Fin.ofNat 8 (fld w 8 3)) (Fin.ofNat 16 (fld w 4 4))
  | 10 => .vzip (Fin.ofNat 32 (fld w 21 5)) (Fin.ofNat 32 (fld w 16 5)) (Fin.ofNat 32 (fld w 11 5)) (Fin.ofNat 8 (fld w 8 3)) (Fin.ofNat 16 (fld w 4 4))
  | 11 => .vunzip (Fin.ofNat 32 (fld w 21 5)) (Fin.ofNat 32 (fld w 16 5)) (Fin.ofNat 32 (fld w 11 5)) (Fin.ofNat 8 (fld w 8 3)) (Fin.ofNat 16 (fld w 4 4))
  | 12 => .vrev (Fin.ofNat 32 (fld w 21 5)) (Fin.ofNat 32 (fld w 16 5)) (Fin.ofNat 8 (fld w 8 3)) (Fin.ofNat 16 (fld w 4 4))
  | _ => .illegalInstr

/-- Major 0x2C: predicates. -/
noncomputable def build2C (w : Nat) : Instr :=
  match fld w 0 4 with
  | 0 => .pand (Fin.ofNat 32 (fld w 21 5)) (Fin.ofNat 32 (fld w 16 5)) (Fin.ofNat 32 (fld w 11 5)) (Fin.ofNat 8 (fld w 8 3))
  | 1 => .por (Fin.ofNat 32 (fld w 21 5)) (Fin.ofNat 32 (fld w 16 5)) (Fin.ofNat 32 (fld w 11 5)) (Fin.ofNat 8 (fld w 8 3))
  | 2 => .pxor (Fin.ofNat 32 (fld w 21 5)) (Fin.ofNat 32 (fld w 16 5)) (Fin.ofNat 32 (fld w 11 5)) (Fin.ofNat 8 (fld w 8 3))
  | 3 => .pnot (Fin.ofNat 32 (fld w 21 5)) (Fin.ofNat 32 (fld w 16 5)) (Fin.ofNat 8 (fld w 8 3))
  | 4 => .loopp (Fin.ofNat 32 (fld w 21 5)) (Fin.ofNat 32 (fld w 16 5)) (Fin.ofNat 32 (fld w 11 5)) (Fin.ofNat 8 (fld w 8 3)) (Fin.ofNat 16 (fld w 4 4))
  | 5 => .vcmpeq (Fin.ofNat 32 (fld w 21 5)) (Fin.ofNat 32 (fld w 16 5)) (Fin.ofNat 32 (fld w 11 5)) (Fin.ofNat 8 (fld w 8 3)) (Fin.ofNat 16 (fld w 4 4))
  | 6 => .vcmplt (Fin.ofNat 32 (fld w 21 5)) (Fin.ofNat 32 (fld w 16 5)) (Fin.ofNat 32 (fld w 11 5)) (Fin.ofNat 8 (fld w 8 3)) (Fin.ofNat 16 (fld w 4 4))
  | 7 => .vcmpltu (Fin.ofNat 32 (fld w 21 5)) (Fin.ofNat 32 (fld w 16 5)) (Fin.ofNat 32 (fld w 11 5)) (Fin.ofNat 8 (fld w 8 3)) (Fin.ofNat 16 (fld w 4 4))
  | 8 => .vcmple (Fin.ofNat 32 (fld w 21 5)) (Fin.ofNat 32 (fld w 16 5)) (Fin.ofNat 32 (fld w 11 5)) (Fin.ofNat 8 (fld w 8 3)) (Fin.ofNat 16 (fld w 4 4))
  | 9 => .vcmpleu (Fin.ofNat 32 (fld w 21 5)) (Fin.ofNat 32 (fld w 16 5)) (Fin.ofNat 32 (fld w 11 5)) (Fin.ofNat 8 (fld w 8 3)) (Fin.ofNat 16 (fld w 4 4))
  | 10 => .pcnt (Fin.ofNat 32 (fld w 21 5)) (Fin.ofNat 32 (fld w 16 5)) (Fin.ofNat 8 (fld w 8 3)) (Fin.ofNat 16 (fld w 4 4))
  | 11 => .pfirst (Fin.ofNat 32 (fld w 21 5)) (Fin.ofNat 32 (fld w 16 5)) (Fin.ofNat 8 (fld w 8 3)) (Fin.ofNat 16 (fld w 4 4))
  | _ => .illegalInstr

/-- Major 0x2D: conversions and rotations. -/
noncomputable def build2D (w : Nat) : Instr :=
  match fld w 0 4 with
  | 0 => .vcvt (Fin.ofNat 32 (fld w 21 5)) (Fin.ofNat 32 (fld w 16 5)) (Fin.ofNat 16 (fld w 11 4)) (Fin.ofNat 8 (fld w 8 3)) (Fin.ofNat 16 (fld w 4 4))
  | 1 => .vcvtr (Fin.ofNat 32 (fld w 21 5)) (Fin.ofNat 32 (fld w 16 5)) (Fin.ofNat 16 (fld w 11 4)) (Fin.ofNat 8 (fld w 8 3)) (Fin.ofNat 16 (fld w 4 4))
  | 2 => .vderot (Fin.ofNat 32 (fld w 21 5)) (Fin.ofNat 32 (fld w 16 5)) (Fin.ofNat 16 (fld w 11 4)) (Fin.ofNat 8 (fld w 8 3)) (Fin.ofNat 16 (fld w 4 4))
  | 3 => .hsld (Fin.ofNat 32 (fld w 21 5)) (Fin.ofNat 32 (fld w 16 5)) (Fin.ofNat 4 (fld w 11 2))
  | 4 => .hsrd (Fin.ofNat 32 (fld w 21 5)) (Fin.ofNat 8 (fld w 16 3))
  | _ => .illegalInstr

/-- Major 0x2E: tables, ranges and moves. -/
noncomputable def build2E (w : Nat) : Instr :=
  match fld w 0 4 with
  | 0 => .vppe (Fin.ofNat 32 (fld w 21 5)) (Fin.ofNat 32 (fld w 16 5)) (Fin.ofNat 32 (fld w 11 5)) (Fin.ofNat 8 (fld w 8 3))
  | 1 => .ppld (Fin.ofNat 32 (fld w 21 5)) (Fin.ofNat 32 (fld w 16 5)) (Fin.ofNat 32 (fld w 11 5)) (Fin.ofNat 8 (fld w 8 3))
  | 2 => .vrng (Fin.ofNat 32 (fld w 21 5)) (Fin.ofNat 32 (fld w 16 5)) (Fin.ofNat 32 (fld w 11 5)) (Fin.ofNat 8 (fld w 8 3)) (Fin.ofNat 16 (fld w 4 4))
  | 3 => .vlq (Fin.ofNat 32 (fld w 21 5))
  | 4 => .vmovf (Fin.ofNat 32 (fld w 21 5)) (Fin.ofNat 32 (fld w 16 5)) (Fin.ofNat 32 (fld w 11 5)) (Fin.ofNat 16 (fld w 4 4))
  | _ => .illegalInstr

/-- Major 0x30: matrix commands. -/
noncomputable def build30 (w : Nat) : Instr :=
  match fld w 0 11 with
  | 0 => .mma (Fin.ofNat 32 (fld w 21 5)) (Fin.ofNat 32 (fld w 16 5)) (Fin.ofNat 32 (fld w 11 5))
  | 1 => .mmaz (Fin.ofNat 32 (fld w 21 5)) (Fin.ofNat 32 (fld w 16 5)) (Fin.ofNat 32 (fld w 11 5))
  | 2 => .mmaad (Fin.ofNat 32 (fld w 21 5)) (Fin.ofNat 32 (fld w 16 5)) (Fin.ofNat 32 (fld w 11 5))
  | 3 => .msca (Fin.ofNat 32 (fld w 21 5)) (Fin.ofNat 32 (fld w 16 5)) (Fin.ofNat 32 (fld w 11 5))
  | 4 => .mscars (Fin.ofNat 32 (fld w 21 5)) (Fin.ofNat 32 (fld w 16 5)) (Fin.ofNat 32 (fld w 11 5))
  | 5 => .geom (Fin.ofNat 32 (fld w 21 5)) (Fin.ofNat 32 (fld w 16 5))
  | 6 => .msync
  | 7 => .psrd (Fin.ofNat 32 (fld w 21 5)) (Fin.ofNat 32 (fld w 16 5)) (Fin.ofNat 32 (fld w 11 5))
  | _ => .illegalInstr

/-- Major 0x31: handles. -/
noncomputable def build31 (w : Nat) : Instr :=
  match fld w 0 11 with
  | 0 => .halloc (Fin.ofNat 32 (fld w 21 5)) (Fin.ofNat 32 (fld w 16 5))
  | 1 => .hfree (Fin.ofNat 32 (fld w 16 5))
  | 2 => .hcfg (Fin.ofNat 32 (fld w 16 5)) (Fin.ofNat 32 (fld w 11 5))
  | 3 => .hrowld (Fin.ofNat 32 (fld w 16 5)) (Fin.ofNat 32 (fld w 11 5))
  | 4 => .hrowst (Fin.ofNat 32 (fld w 21 5)) (Fin.ofNat 32 (fld w 16 5))
  | 5 => .hcolld (Fin.ofNat 32 (fld w 16 5)) (Fin.ofNat 32 (fld w 11 5))
  | 6 => .hcolst (Fin.ofNat 32 (fld w 21 5)) (Fin.ofNat 32 (fld w 16 5))
  | 7 => .hzero (Fin.ofNat 32 (fld w 16 5))
  | 8 => .hdrain (Fin.ofNat 32 (fld w 16 5))
  | 9 => .hrescale (Fin.ofNat 32 (fld w 16 5))
  | 10 => .hstat (Fin.ofNat 32 (fld w 21 5)) (Fin.ofNat 32 (fld w 16 5))
  | _ => .illegalInstr

/-- Major 0x32: reductions and adapters. -/
noncomputable def build32 (w : Nat) : Instr :=
  match fld w 0 11 with
  | 0 => .reda (Fin.ofNat 32 (fld w 21 5)) (Fin.ofNat 32 (fld w 16 5)) (Fin.ofNat 32 (fld w 11 5))
  | 1 => .redx (Fin.ofNat 32 (fld w 21 5)) (Fin.ofNat 32 (fld w 16 5)) (Fin.ofNat 32 (fld w 11 5))
  | 16 => .adtbl (Fin.ofNat 32 (fld w 16 5)) (Fin.ofNat 32 (fld w 11 5))
  | 17 => .ainv (Fin.ofNat 32 (fld w 16 5))
  | 18 => .apref (Fin.ofNat 32 (fld w 16 5)) (Fin.ofNat 32 (fld w 11 5))
  | 19 => .astat (Fin.ofNat 32 (fld w 21 5)) (Fin.ofNat 32 (fld w 16 5))
  | _ => .illegalInstr

/-- Major 0x38: external loads and stores. -/
noncomputable def build38 (w : Nat) : Instr :=
  match fld w 0 11 with
  | 0 => .xld (Fin.ofNat 32 (fld w 21 5)) (Fin.ofNat 32 (fld w 16 5))
  | 1 => .xst (Fin.ofNat 32 (fld w 21 5)) (Fin.ofNat 32 (fld w 16 5))
  | 2 => .xldcol (Fin.ofNat 32 (fld w 21 5)) (Fin.ofNat 32 (fld w 16 5))
  | 3 => .xstcol (Fin.ofNat 32 (fld w 21 5)) (Fin.ofNat 32 (fld w 16 5))
  | _ => .illegalInstr

/-- Major 0x39: external gathers and scatters. -/
noncomputable def build39 (w : Nat) : Instr :=
  match fld w 0 11 with
  | 0 => .xgath (Fin.ofNat 32 (fld w 21 5)) (Fin.ofNat 32 (fld w 16 5))
  | 1 => .xscat (Fin.ofNat 32 (fld w 21 5)) (Fin.ofNat 32 (fld w 16 5))
  | 2 => .xred (Fin.ofNat 32 (fld w 21 5)) (Fin.ofNat 32 (fld w 16 5))
  | 3 => .xprog (Fin.ofNat 32 (fld w 21 5)) (Fin.ofNat 32 (fld w 16 5))
  | _ => .illegalInstr

/-- Major 0x3A: transfers. -/
noncomputable def build3A (w : Nat) : Instr :=
  match fld w 0 11 with
  | 0 => .xpush (Fin.ofNat 32 (fld w 21 5)) (Fin.ofNat 32 (fld w 16 5)) (Fin.ofNat 32 (fld w 11 5))
  | 1 => .xpull (Fin.ofNat 32 (fld w 21 5)) (Fin.ofNat 32 (fld w 16 5)) (Fin.ofNat 32 (fld w 11 5))
  | 2 => .xwait (Fin.ofNat 32 (fld w 21 5)) (Fin.ofNat 32 (fld w 16 5))
  | 3 => .xsect (Fin.ofNat 32 (fld w 21 5)) (Fin.ofNat 32 (fld w 16 5)) (Fin.ofNat 32 (fld w 11 5))
  | _ => .illegalInstr

/-- Major 0x3B: expansion. -/
noncomputable def build3B (w : Nat) : Instr :=
  match fld w 0 11 with
  | 0 => .xexp24 (Fin.ofNat 32 (fld w 21 5)) (Fin.ofNat 32 (fld w 16 5)) (Fin.ofNat 32 (fld w 11 5))
  | 1 => .xbdot (Fin.ofNat 32 (fld w 21 5)) (Fin.ofNat 32 (fld w 16 5)) (Fin.ofNat 32 (fld w 11 5))
  | _ => .illegalInstr

/-- The instruction of a word, where it is one: by its major opcode (R32, R37). -/
noncomputable def build (w : Nat) : Instr :=
  match fld w 26 6 with
  | 1 => build01 w
  | 2 => build02 w
  | 3 => build03 w
  | 4 => build04 w
  | 5 => build05 w
  | 6 => build06 w
  | 8 => build08 w
  | 9 => build09 w
  | 10 => build0A w
  | 11 => build0B w
  | 16 => build10 w
  | 17 => build11 w
  | 18 => build12 w
  | 19 => build13 w
  | 20 => build14 w
  | 21 => build15 w
  | 22 => build16 w
  | 24 => build18 w
  | 25 => build19 w
  | 26 => build1A w
  | 27 => build1B w
  | 28 => build1C w
  | 29 => build1D w
  | 32 => build20 w
  | 33 => build21 w
  | 34 => build22 w
  | 35 => build23 w
  | 40 => build28 w
  | 41 => build29 w
  | 42 => build2A w
  | 43 => build2B w
  | 44 => build2C w
  | 45 => build2D w
  | 46 => build2E w
  | 48 => build30 w
  | 49 => build31 w
  | 50 => build32 w
  | 56 => build38 w
  | 57 => build39 w
  | 58 => build3A w
  | 59 => build3B w
  | _ => .illegalInstr

/-- Decoding a word (R40): total, and a word that is no instruction is rejected by name. -/
noncomputable def decode (w : BitVec 32) : Except BadWord Instr :=
  match checkWord w.toNat with
  | some e => .error e
  | none => .ok (build w.toNat)

/-- What the decoder reads from a row of the opcode table: an instruction is one word of 32 bits (R31). -/
noncomputable def decodeTableWord (nbits w : Nat) : Option Instr :=
  match decode (BitVec.ofNat 32 (w % 2 ^ nbits)) with
  | .ok i => some i
  | .error _ => none

/-! ## Encoding -/

/-- A word: its fixed bits and one to six fields, each a value and the place of its lowest bit. -/
def put1 (base v1 l1 : Nat) : Nat := base + v1 * 2 ^ l1
def put2 (base v1 l1 v2 l2 : Nat) : Nat := put1 base v1 l1 + v2 * 2 ^ l2
def put3 (base v1 l1 v2 l2 v3 l3 : Nat) : Nat := put2 base v1 l1 v2 l2 + v3 * 2 ^ l3
def put4 (base v1 l1 v2 l2 v3 l3 v4 l4 : Nat) : Nat := put3 base v1 l1 v2 l2 v3 l3 + v4 * 2 ^ l4
def put5 (base v1 l1 v2 l2 v3 l3 v4 l4 v5 l5 : Nat) : Nat := put4 base v1 l1 v2 l2 v3 l3 v4 l4 + v5 * 2 ^ l5
def put6 (base v1 l1 v2 l2 v3 l3 v4 l4 v5 l5 v6 l6 : Nat) : Nat :=
  put5 base v1 l1 v2 l2 v3 l3 v4 l4 v5 l5 + v6 * 2 ^ l6

/-- The word of an instruction as a number: the fixed bits of its row and its fields at their places; a device step
has none. -/
def encodeNat : Instr → Option Nat
  | .hintImm d => some (put1 0x04000000 d.toNat 0)
  | .hintMod m => some (put1 0x04400000 m.toNat 0)
  | .hintBr b => some (put1 0x04800000 b.toNat 0)
  | .trap c => some (put1 0x08000000 c.toNat 0)
  | .hret => some 0x08001000
  | .wait d a l e => some (put4 0x08002000 d.val 21 a.val 16 (bit l) 11 e.toNat 0)
  | .csrr d c => some (put2 0x08003000 d.val 21 c.toNat 0)
  | .csrw d a c => some (put3 0x08004000 d.val 21 a.val 16 c.toNat 0)
  | .csrs d a c => some (put3 0x08005000 d.val 21 a.val 16 c.toNat 0)
  | .csrc d a c => some (put3 0x08006000 d.val 21 a.val 16 c.toNat 0)
  | .setxb d a => some (put2 0x08007000 d.val 21 a.val 16)
  | .gangForm d n => some (put2 0x08008000 d.val 21 n.val 0)
  | .gangJoin d => some (put1 0x08008100 d.val 21)
  | .gangEnd d => some (put1 0x08008200 d.val 21)
  | .nop => some 0x08009000
  | .beq a b o => some (put3 0x0C000000 a.val 21 b.val 16 o.toNat 0)
  | .bne a b o => some (put3 0x0C002000 a.val 21 b.val 16 o.toNat 0)
  | .blt a b o => some (put3 0x0C004000 a.val 21 b.val 16 o.toNat 0)
  | .bge a b o => some (put3 0x0C006000 a.val 21 b.val 16 o.toNat 0)
  | .bltu a b o => some (put3 0x0C008000 a.val 21 b.val 16 o.toNat 0)
  | .bgeu a b o => some (put3 0x0C00A000 a.val 21 b.val 16 o.toNat 0)
  | .jal d o => some (put2 0x10000000 d.val 21 o.toNat 0)
  | .call d o => some (put2 0x10080000 d.val 21 o.toNat 0)
  | .jalr d a i => some (put3 0x10100000 d.val 21 a.val 14 i.toNat 0)
  | .ret a => some (put1 0x10180000 a.val 14)
  | .bpany p o => some (put2 0x14000000 p.val 21 o.toNat 0)
  | .bpnone p o => some (put2 0x14002000 p.val 21 o.toNat 0)
  | .bpall p o => some (put2 0x14004000 p.val 21 o.toNat 0)
  | .bpnall p o => some (put2 0x14006000 p.val 21 o.toNat 0)
  | .bfz f o => some (put2 0x14008000 f.val 21 o.toNat 0)
  | .bfnz f o => some (put2 0x1400A000 f.val 21 o.toNat 0)
  | .bfltz f o => some (put2 0x1400C000 f.val 21 o.toNat 0)
  | .bfgez f o => some (put2 0x1400E000 f.val 21 o.toNat 0)
  | .pushmG d a => some (put2 0x18000000 d.val 21 a.val 16)
  | .pushmF d a => some (put2 0x18000001 d.val 21 a.val 16)
  | .pushmV d a => some (put2 0x18000002 d.val 21 a.val 16)
  | .popmG d a => some (put2 0x18000004 d.val 21 a.val 16)
  | .popmF d a => some (put2 0x18000005 d.val 21 a.val 16)
  | .popmV d a => some (put2 0x18000006 d.val 21 a.val 16)
  | .add d a b => some (put3 0x20000000 d.val 21 a.val 16 b.val 11)
  | .sub d a b => some (put3 0x20000001 d.val 21 a.val 16 b.val 11)
  | .and d a b => some (put3 0x20000002 d.val 21 a.val 16 b.val 11)
  | .or d a b => some (put3 0x20000003 d.val 21 a.val 16 b.val 11)
  | .xor d a b => some (put3 0x20000004 d.val 21 a.val 16 b.val 11)
  | .sll d a b => some (put3 0x20000005 d.val 21 a.val 16 b.val 11)
  | .srl d a b => some (put3 0x20000006 d.val 21 a.val 16 b.val 11)
  | .sra d a b => some (put3 0x20000007 d.val 21 a.val 16 b.val 11)
  | .slt d a b => some (put3 0x20000008 d.val 21 a.val 16 b.val 11)
  | .sltu d a b => some (put3 0x20000009 d.val 21 a.val 16 b.val 11)
  | .min d a b => some (put3 0x2000000A d.val 21 a.val 16 b.val 11)
  | .max d a b => some (put3 0x2000000B d.val 21 a.val 16 b.val 11)
  | .minu d a b => some (put3 0x2000000C d.val 21 a.val 16 b.val 11)
  | .maxu d a b => some (put3 0x2000000D d.val 21 a.val 16 b.val 11)
  | .rol d a b => some (put3 0x2000000E d.val 21 a.val 16 b.val 11)
  | .ror d a b => some (put3 0x2000000F d.val 21 a.val 16 b.val 11)
  | .clz d a => some (put2 0x20000010 d.val 21 a.val 16)
  | .ctz d a => some (put2 0x20000011 d.val 21 a.val 16)
  | .popc d a => some (put2 0x20000012 d.val 21 a.val 16)
  | .addi d a i => some (put3 0x24000000 d.val 21 a.val 16 i.toNat 0)
  | .andi d a i => some (put3 0x24001000 d.val 21 a.val 16 i.toNat 0)
  | .ori d a i => some (put3 0x24002000 d.val 21 a.val 16 i.toNat 0)
  | .xori d a i => some (put3 0x24003000 d.val 21 a.val 16 i.toNat 0)
  | .slti d a i => some (put3 0x24004000 d.val 21 a.val 16 i.toNat 0)
  | .sltiu d a i => some (put3 0x24005000 d.val 21 a.val 16 i.toNat 0)
  | .slli d a s => some (put3 0x24006000 d.val 21 a.val 16 s.val 0)
  | .srli d a s => some (put3 0x24007000 d.val 21 a.val 16 s.val 0)
  | .srai d a s => some (put3 0x24008000 d.val 21 a.val 16 s.val 0)
  | .rori d a s => some (put3 0x24009000 d.val 21 a.val 16 s.val 0)
  | .lui d i => some (put2 0x28000000 d.val 21 i.toNat 0)
  | .luih d i => some (put2 0x28010000 d.val 21 i.toNat 0)
  | .luit d i => some (put2 0x28020000 d.val 21 i.toNat 0)
  | .addpc d i => some (put2 0x28030000 d.val 21 i.toNat 0)
  | .mul d a b => some (put3 0x2C000000 d.val 21 a.val 16 b.val 11)
  | .mulh d a b => some (put3 0x2C000001 d.val 21 a.val 16 b.val 11)
  | .mulhu d a b => some (put3 0x2C000002 d.val 21 a.val 16 b.val 11)
  | .div d a b => some (put3 0x2C000003 d.val 21 a.val 16 b.val 11)
  | .divu d a b => some (put3 0x2C000004 d.val 21 a.val 16 b.val 11)
  | .rem d a b => some (put3 0x2C000005 d.val 21 a.val 16 b.val 11)
  | .remu d a b => some (put3 0x2C000006 d.val 21 a.val 16 b.val 11)
  | .ldb d a i => some (put3 0x40000000 d.val 21 a.val 16 i.toNat 0)
  | .ldbu d a i => some (put3 0x40001000 d.val 21 a.val 16 i.toNat 0)
  | .ldh d a i => some (put3 0x40002000 d.val 21 a.val 16 i.toNat 0)
  | .ldhu d a i => some (put3 0x40003000 d.val 21 a.val 16 i.toNat 0)
  | .ldw d a i => some (put3 0x40004000 d.val 21 a.val 16 i.toNat 0)
  | .ldwu d a i => some (put3 0x40005000 d.val 21 a.val 16 i.toNat 0)
  | .ldd d a i => some (put3 0x40006000 d.val 21 a.val 16 i.toNat 0)
  | .xpref a i => some (put2 0x40007000 a.val 16 i.toNat 0)
  | .stb s b i => some (put3 0x44000000 s.val 21 b.val 16 i.toNat 0)
  | .sth s b i => some (put3 0x44001000 s.val 21 b.val 16 i.toNat 0)
  | .stw s b i => some (put3 0x44002000 s.val 21 b.val 16 i.toNat 0)
  | .std s b i => some (put3 0x44003000 s.val 21 b.val 16 i.toNat 0)
  | .stn s b i => some (put3 0x44004000 s.val 21 b.val 16 i.toNat 0)
  | .amoadd d a b w => some (put4 0x48000000 d.val 21 a.val 16 b.val 11 (bit w) 8)
  | .amoand d a b w => some (put4 0x48000001 d.val 21 a.val 16 b.val 11 (bit w) 8)
  | .amoor d a b w => some (put4 0x48000002 d.val 21 a.val 16 b.val 11 (bit w) 8)
  | .amoxor d a b w => some (put4 0x48000003 d.val 21 a.val 16 b.val 11 (bit w) 8)
  | .amomin d a b w => some (put4 0x48000004 d.val 21 a.val 16 b.val 11 (bit w) 8)
  | .amomax d a b w => some (put4 0x48000005 d.val 21 a.val 16 b.val 11 (bit w) 8)
  | .amominu d a b w => some (put4 0x48000006 d.val 21 a.val 16 b.val 11 (bit w) 8)
  | .amomaxu d a b w => some (put4 0x48000007 d.val 21 a.val 16 b.val 11 (bit w) 8)
  | .amoswap d a b w => some (put4 0x48000008 d.val 21 a.val 16 b.val 11 (bit w) 8)
  | .amocas d a b w => some (put4 0x48000009 d.val 21 a.val 16 b.val 11 (bit w) 8)
  | .bind s a b => some (put3 0x4C000000 s.val 21 a.val 16 b.val 11)
  | .acq a => some (put1 0x4C000001 a.val 16)
  | .acqr a => some (put1 0x4C000002 a.val 16)
  | .rel a => some (put1 0x4C000003 a.val 16)
  | .fence s => some (put1 0x4C000004 s.val 16)
  | .discard m a b => some (put3 0x4C000005 m.val 21 a.val 16 b.val 11)
  | .scfg n a b => some (put3 0x50000000 n.val 21 a.val 16 b.val 11)
  | .sdim k n a b => some (put4 0x50000001 k.val 23 n.val 21 a.val 16 b.val 11)
  | .sind n m b => some (put3 0x50000002 n.val 21 m.val 16 b.val 11)
  | .sman n b => some (put2 0x50000003 n.val 21 b.val 11)
  | .sen n => some (put1 0x50000004 n.val 21)
  | .sdis n => some (put1 0x50000005 n.val 21)
  | .sflush n => some (put1 0x50000006 n.val 21)
  | .ldq n a => some (put2 0x54000000 n.val 21 a.val 16)
  | .stq n a => some (put2 0x54000001 n.val 21 a.val 16)
  | .qput a => some (put1 0x54000002 a.val 16)
  | .qget d => some (put1 0x54000003 d.val 21)
  | .rpt a m p l => some (put4 0x58000000 a.val 16 m.toNat 6 p.val 4 l.val 0)
  | .send c a b => some (put3 0x60000000 c.val 21 a.val 16 b.val 11)
  | .sendm c a b => some (put3 0x60000001 c.val 21 a.val 16 b.val 11)
  | .recv d a b => some (put3 0x60000002 d.val 21 a.val 16 b.val 11)
  | .recvm d a b => some (put3 0x60000003 d.val 21 a.val 16 b.val 11)
  | .mark => some 0x60000004
  | .radv d => some (put1 0x60000005 d.val 21)
  | .chstatState d a => some (put2 0x60000006 d.val 21 a.val 16)
  | .chstatDecl d a => some (put2 0x60000806 d.val 21 a.val 16)
  | .chstatClose d a => some (put2 0x60001006 d.val 21 a.val 16)
  | .chstatKword d => some (put1 0x60001806 d.val 21)
  | .chstatRound d => some (put1 0x60002006 d.val 21)
  | .chstatSeq d a => some (put2 0x60002806 d.val 21 a.val 16)
  | .kickRing a b => some (put2 0x60000007 a.val 16 b.val 11)
  | .kickMbox a b => some (put2 0x60200007 a.val 16 b.val 11)
  | .kickDone a b => some (put2 0x60400007 a.val 16 b.val 11)
  | .kickDonerec a b => some (put2 0x60600007 a.val 16 b.val 11)
  | .bcfg a k => some (put2 0x64000000 a.val 16 k.val 11)
  | .barr k => some (put1 0x64000001 k.val 11)
  | .bwait k => some (put1 0x64000002 k.val 11)
  | .bsync k => some (put1 0x64000003 k.val 11)
  | .btest d k => some (put2 0x64000004 d.val 21 k.val 11)
  | .rqpush c a b => some (put3 0x68000000 (bit c) 21 a.val 16 b.val 11)
  | .next a => some (put1 0x68000001 a.val 16)
  | .nextw d => some (put1 0x68000002 d.val 21)
  | .append d a b => some (put3 0x68000003 d.val 21 a.val 16 b.val 11)
  | .take d a => some (put2 0x68000004 d.val 21 a.val 16)
  | .takeEndHold d a => some (put2 0x68000804 d.val 21 a.val 16)
  | .tdarm a b => some (put2 0x68000005 a.val 16 b.val 11)
  | .launch d a b => some (put3 0x6C000000 d.val 21 a.val 16 b.val 11)
  | .lwait d a => some (put2 0x6C000001 d.val 21 a.val 16)
  | .cancel d a => some (put2 0x6C000002 d.val 21 a.val 16)
  | .cntrd d a => some (put2 0x6C000003 d.val 21 a.val 16)
  | .ginfo d i b => some (put3 0x6C000004 d.val 21 i.val 16 b.val 11)
  | .gdone a => some (put1 0x6C000005 a.val 16)
  | .evpop d a => some (put2 0x70000000 d.val 21 a.val 16)
  | .evpush d a b => some (put3 0x70000001 d.val 21 a.val 16 b.val 11)
  | .preempt d a => some (put2 0x70000002 d.val 21 a.val 16)
  | .save d a => some (put2 0x70000003 d.val 21 a.val 16)
  | .restore d a => some (put2 0x70000004 d.val 21 a.val 16)
  | .pinv d a b => some (put3 0x70000005 d.val 21 a.val 16 b.val 11)
  | .pprobe d a b => some (put3 0x70000006 d.val 21 a.val 16 b.val 11)
  | .chkpair d a => some (put2 0x70000007 d.val 21 a.val 16)
  | .hmigrate d a => some (put2 0x70000008 d.val 21 a.val 16)
  | .frpop d a => some (put2 0x74000000 d.val 21 a.val 16)
  | .timerd d a => some (put2 0x74000001 d.val 21 a.val 16)
  | .lstatRead d a => some (put2 0x74000002 d.val 21 a.val 16)
  | .lstatEnable d a => some (put2 0x74000802 d.val 21 a.val 16)
  | .lstatDisable d a => some (put2 0x74001002 d.val 21 a.val 16)
  | .lstatRetrain d a => some (put2 0x74001802 d.val 21 a.val 16)
  | .fadd d a b p t => some (put5 0x80000000 d.val 21 a.val 16 b.val 11 p.val 8 t.val 4)
  | .fsub d a b p t => some (put5 0x80000001 d.val 21 a.val 16 b.val 11 p.val 8 t.val 4)
  | .fmul d a b p t => some (put5 0x80000002 d.val 21 a.val 16 b.val 11 p.val 8 t.val 4)
  | .fdiv d a b p t => some (put5 0x80000003 d.val 21 a.val 16 b.val 11 p.val 8 t.val 4)
  | .fsqrt d a p t => some (put4 0x80000004 d.val 21 a.val 16 p.val 8 t.val 4)
  | .fmin d a b p t => some (put5 0x80000005 d.val 21 a.val 16 b.val 11 p.val 8 t.val 4)
  | .fmax d a b p t => some (put5 0x80000006 d.val 21 a.val 16 b.val 11 p.val 8 t.val 4)
  | .fsgnj d a b p t => some (put5 0x80000007 d.val 21 a.val 16 b.val 11 p.val 8 t.val 4)
  | .fsgnjn d a b p t => some (put5 0x80000008 d.val 21 a.val 16 b.val 11 p.val 8 t.val 4)
  | .fsgnjx d a b p t => some (put5 0x80000009 d.val 21 a.val 16 b.val 11 p.val 8 t.val 4)
  | .fclass d a p t => some (put4 0x8000000A d.val 21 a.val 16 p.val 8 t.val 4)
  | .fmov d a p t => some (put4 0x8000000B d.val 21 a.val 16 p.val 8 t.val 4)
  | .fmadd d a b c t => some (put5 0x84000000 d.val 21 a.val 16 b.val 11 c.val 6 t.val 4)
  | .fmsub d a b c t => some (put5 0x84000001 d.val 21 a.val 16 b.val 11 c.val 6 t.val 4)
  | .fnmadd d a b c t => some (put5 0x84000002 d.val 21 a.val 16 b.val 11 c.val 6 t.val 4)
  | .fnmsub d a b c t => some (put5 0x84000003 d.val 21 a.val 16 b.val 11 c.val 6 t.val 4)
  | .fcvt d a s p t => some (put5 0x88000000 d.val 21 a.val 16 s.val 11 p.val 8 t.val 4)
  | .feq d a b p t => some (put5 0x88000001 d.val 21 a.val 16 b.val 11 p.val 8 t.val 4)
  | .flt d a b p t => some (put5 0x88000002 d.val 21 a.val 16 b.val 11 p.val 8 t.val 4)
  | .fle d a b p t => some (put5 0x88000003 d.val 21 a.val 16 b.val 11 p.val 8 t.val 4)
  | .funord d a b p t => some (put5 0x88000004 d.val 21 a.val 16 b.val 11 p.val 8 t.val 4)
  | .fcvtfl d a p t => some (put4 0x88000005 d.val 21 a.val 16 p.val 8 t.val 4)
  | .fcvtlf d a p t => some (put4 0x88000006 d.val 21 a.val 16 p.val 8 t.val 4)
  | .iadd d a b p => some (put4 0x8C000000 d.val 21 a.val 16 b.val 11 p.val 8)
  | .isub d a b p => some (put4 0x8C000001 d.val 21 a.val 16 b.val 11 p.val 8)
  | .imul d a b p => some (put4 0x8C000002 d.val 21 a.val 16 b.val 11 p.val 8)
  | .iand d a b p => some (put4 0x8C000003 d.val 21 a.val 16 b.val 11 p.val 8)
  | .ior d a b p => some (put4 0x8C000004 d.val 21 a.val 16 b.val 11 p.val 8)
  | .ixor d a b p => some (put4 0x8C000005 d.val 21 a.val 16 b.val 11 p.val 8)
  | .isll d a b p => some (put4 0x8C000006 d.val 21 a.val 16 b.val 11 p.val 8)
  | .isrl d a b p => some (put4 0x8C000007 d.val 21 a.val 16 b.val 11 p.val 8)
  | .isra d a b p => some (put4 0x8C000008 d.val 21 a.val 16 b.val 11 p.val 8)
  | .imin d a b p => some (put4 0x8C000009 d.val 21 a.val 16 b.val 11 p.val 8)
  | .imax d a b p => some (put4 0x8C00000A d.val 21 a.val 16 b.val 11 p.val 8)
  | .iminu d a b p => some (put4 0x8C00000B d.val 21 a.val 16 b.val 11 p.val 8)
  | .imaxu d a b p => some (put4 0x8C00000C d.val 21 a.val 16 b.val 11 p.val 8)
  | .islt d a b p => some (put4 0x8C00000D d.val 21 a.val 16 b.val 11 p.val 8)
  | .isltu d a b p => some (put4 0x8C00000E d.val 21 a.val 16 b.val 11 p.val 8)
  | .imovi d i p => some (put3 0x8C00000F d.val 21 i.toNat 11 p.val 8)
  | .vadd d a b p t => some (put5 0xA0000000 d.val 21 a.val 16 b.val 11 p.val 8 t.val 4)
  | .vsub d a b p t => some (put5 0xA0000001 d.val 21 a.val 16 b.val 11 p.val 8 t.val 4)
  | .vmul d a b p t => some (put5 0xA0000002 d.val 21 a.val 16 b.val 11 p.val 8 t.val 4)
  | .vmin d a b p t => some (put5 0xA0000003 d.val 21 a.val 16 b.val 11 p.val 8 t.val 4)
  | .vmax d a b p t => some (put5 0xA0000004 d.val 21 a.val 16 b.val 11 p.val 8 t.val 4)
  | .vminu d a b p t => some (put5 0xA0000005 d.val 21 a.val 16 b.val 11 p.val 8 t.val 4)
  | .vmaxu d a b p t => some (put5 0xA0000006 d.val 21 a.val 16 b.val 11 p.val 8 t.val 4)
  | .vand d a b p t => some (put5 0xA0000007 d.val 21 a.val 16 b.val 11 p.val 8 t.val 4)
  | .vor d a b p t => some (put5 0xA0000008 d.val 21 a.val 16 b.val 11 p.val 8 t.val 4)
  | .vxor d a b p t => some (put5 0xA0000009 d.val 21 a.val 16 b.val 11 p.val 8 t.val 4)
  | .vsll d a b p t => some (put5 0xA000000A d.val 21 a.val 16 b.val 11 p.val 8 t.val 4)
  | .vsrl d a b p t => some (put5 0xA000000B d.val 21 a.val 16 b.val 11 p.val 8 t.val 4)
  | .vsra d a b p t => some (put5 0xA000000C d.val 21 a.val 16 b.val 11 p.val 8 t.val 4)
  | .vmulh d a b p t => some (put5 0xA000000D d.val 21 a.val 16 b.val 11 p.val 8 t.val 4)
  | .vmulhu d a b p t => some (put5 0xA000000E d.val 21 a.val 16 b.val 11 p.val 8 t.val 4)
  | .vabsd d a b p t => some (put5 0xA000000F d.val 21 a.val 16 b.val 11 p.val 8 t.val 4)
  | .vfadd d a b p t => some (put5 0xA4000000 d.val 21 a.val 16 b.val 11 p.val 8 t.val 4)
  | .vfsub d a b p t => some (put5 0xA4000001 d.val 21 a.val 16 b.val 11 p.val 8 t.val 4)
  | .vfmul d a b p t => some (put5 0xA4000002 d.val 21 a.val 16 b.val 11 p.val 8 t.val 4)
  | .vfdiv d a b p t => some (put5 0xA4000003 d.val 21 a.val 16 b.val 11 p.val 8 t.val 4)
  | .vfsqrt d a p t => some (put4 0xA4000004 d.val 21 a.val 16 p.val 8 t.val 4)
  | .vfmin d a b p t => some (put5 0xA4000005 d.val 21 a.val 16 b.val 11 p.val 8 t.val 4)
  | .vfmax d a b p t => some (put5 0xA4000006 d.val 21 a.val 16 b.val 11 p.val 8 t.val 4)
  | .vfabs d a p t => some (put4 0xA4000007 d.val 21 a.val 16 p.val 8 t.val 4)
  | .vfneg d a p t => some (put4 0xA4000008 d.val 21 a.val 16 p.val 8 t.val 4)
  | .vfeq d a b p t => some (put5 0xA4000009 d.val 21 a.val 16 b.val 11 p.val 8 t.val 4)
  | .vflt d a b p t => some (put5 0xA400000A d.val 21 a.val 16 b.val 11 p.val 8 t.val 4)
  | .vfle d a b p t => some (put5 0xA400000B d.val 21 a.val 16 b.val 11 p.val 8 t.val 4)
  | .vsel d a b p t => some (put5 0xA400000C d.val 21 a.val 16 b.val 11 p.val 8 t.val 4)
  | .vfmadd d a b c p t => some (put6 0xA8000000 d.val 21 a.val 16 b.val 11 c.val 6 p.val 4 t.val 2)
  | .vfmsub d a b c p t => some (put6 0xA8000001 d.val 21 a.val 16 b.val 11 c.val 6 p.val 4 t.val 2)
  | .vfnmadd d a b c p t => some (put6 0xA8000002 d.val 21 a.val 16 b.val 11 c.val 6 p.val 4 t.val 2)
  | .vfnmsub d a b c p t => some (put6 0xA8000003 d.val 21 a.val 16 b.val 11 c.val 6 p.val 4 t.val 2)
  | .vperm d a b p t => some (put5 0xAC000000 d.val 21 a.val 16 b.val 11 p.val 8 t.val 4)
  | .vbcast d a p t => some (put4 0xAC000001 d.val 21 a.val 16 p.val 8 t.val 4)
  | .vslup d a b p t => some (put5 0xAC000002 d.val 21 a.val 16 b.val 11 p.val 8 t.val 4)
  | .vsldn d a b p t => some (put5 0xAC000003 d.val 21 a.val 16 b.val 11 p.val 8 t.val 4)
  | .vcompr d a p t => some (put4 0xAC000004 d.val 21 a.val 16 p.val 8 t.val 4)
  | .vexpnd d a p t => some (put4 0xAC000005 d.val 21 a.val 16 p.val 8 t.val 4)
  | .vrsum d a p t => some (put4 0xAC000006 d.val 21 a.val 16 p.val 8 t.val 4)
  | .vrmax d a p t => some (put4 0xAC000007 d.val 21 a.val 16 p.val 8 t.val 4)
  | .vrmin d a p t => some (put4 0xAC000008 d.val 21 a.val 16 p.val 8 t.val 4)
  | .vtopk d a b p t => some (put5 0xAC000009 d.val 21 a.val 16 b.val 11 p.val 8 t.val 4)
  | .vzip d a b p t => some (put5 0xAC00000A d.val 21 a.val 16 b.val 11 p.val 8 t.val 4)
  | .vunzip d a b p t => some (put5 0xAC00000B d.val 21 a.val 16 b.val 11 p.val 8 t.val 4)
  | .vrev d a p t => some (put4 0xAC00000C d.val 21 a.val 16 p.val 8 t.val 4)
  | .pand d a b p => some (put4 0xB0000000 d.val 21 a.val 16 b.val 11 p.val 8)
  | .por d a b p => some (put4 0xB0000001 d.val 21 a.val 16 b.val 11 p.val 8)
  | .pxor d a b p => some (put4 0xB0000002 d.val 21 a.val 16 b.val 11 p.val 8)
  | .pnot d a p => some (put3 0xB0000003 d.val 21 a.val 16 p.val 8)
  | .loopp d a b p t => some (put5 0xB0000004 d.val 21 a.val 16 b.val 11 p.val 8 t.val 4)
  | .vcmpeq d a b p t => some (put5 0xB0000005 d.val 21 a.val 16 b.val 11 p.val 8 t.val 4)
  | .vcmplt d a b p t => some (put5 0xB0000006 d.val 21 a.val 16 b.val 11 p.val 8 t.val 4)
  | .vcmpltu d a b p t => some (put5 0xB0000007 d.val 21 a.val 16 b.val 11 p.val 8 t.val 4)
  | .vcmple d a b p t => some (put5 0xB0000008 d.val 21 a.val 16 b.val 11 p.val 8 t.val 4)
  | .vcmpleu d a b p t => some (put5 0xB0000009 d.val 21 a.val 16 b.val 11 p.val 8 t.val 4)
  | .pcnt d a p t => some (put4 0xB000000A d.val 21 a.val 16 p.val 8 t.val 4)
  | .pfirst d a p t => some (put4 0xB000000B d.val 21 a.val 16 p.val 8 t.val 4)
  | .vcvt d a s p t => some (put5 0xB4000000 d.val 21 a.val 16 s.val 11 p.val 8 t.val 4)
  | .vcvtr d a s k t => some (put5 0xB4000001 d.val 21 a.val 16 s.val 11 k.val 8 t.val 4)
  | .vderot d a s k t => some (put5 0xB4000002 d.val 21 a.val 16 s.val 11 k.val 8 t.val 4)
  | .hsld k a b => some (put3 0xB4000003 k.val 21 a.val 16 b.val 11)
  | .hsrd d k => some (put2 0xB4000004 d.val 21 k.val 16)
  | .vppe d a t p => some (put4 0xB8000070 d.val 21 a.val 16 t.val 11 p.val 8)
  | .ppld t a b p => some (put4 0xB8000001 t.val 21 a.val 16 b.val 11 p.val 8)
  | .vrng d a b p t => some (put5 0xB8000002 d.val 21 a.val 16 b.val 11 p.val 8 t.val 4)
  | .vlq d => some (put1 0xB8000003 d.val 21)
  | .vmovf d a b t => some (put4 0xB8000004 d.val 21 a.val 16 b.val 11 t.val 4)
  | .mma d a b => some (put3 0xC0000000 d.val 21 a.val 16 b.val 11)
  | .mmaz d a b => some (put3 0xC0000001 d.val 21 a.val 16 b.val 11)
  | .mmaad d a b => some (put3 0xC0000002 d.val 21 a.val 16 b.val 11)
  | .msca d a b => some (put3 0xC0000003 d.val 21 a.val 16 b.val 11)
  | .mscars d a b => some (put3 0xC0000004 d.val 21 a.val 16 b.val 11)
  | .geom d a => some (put2 0xC0000005 d.val 21 a.val 16)
  | .msync => some 0xC0000006
  | .psrd d k b => some (put3 0xC0000007 d.val 21 k.val 16 b.val 11)
  | .halloc d a => some (put2 0xC4000000 d.val 21 a.val 16)
  | .hfree a => some (put1 0xC4000001 a.val 16)
  | .hcfg a b => some (put2 0xC4000002 a.val 16 b.val 11)
  | .hrowld a b => some (put2 0xC4000003 a.val 16 b.val 11)
  | .hrowst d a => some (put2 0xC4000004 d.val 21 a.val 16)
  | .hcolld a b => some (put2 0xC4000005 a.val 16 b.val 11)
  | .hcolst d a => some (put2 0xC4000006 d.val 21 a.val 16)
  | .hzero a => some (put1 0xC4000007 a.val 16)
  | .hdrain a => some (put1 0xC4000008 a.val 16)
  | .hrescale a => some (put1 0xC4000009 a.val 16)
  | .hstat d a => some (put2 0xC400000A d.val 21 a.val 16)
  | .reda k a b => some (put3 0xC8000000 k.val 21 a.val 16 b.val 11)
  | .redx d k b => some (put3 0xC8000001 d.val 21 k.val 16 b.val 11)
  | .adtbl a b => some (put2 0xC8000010 a.val 16 b.val 11)
  | .ainv a => some (put1 0xC8000011 a.val 16)
  | .apref a b => some (put2 0xC8000012 a.val 16 b.val 11)
  | .astat d a => some (put2 0xC8000013 d.val 21 a.val 16)
  | .xld d a => some (put2 0xE0000000 d.val 21 a.val 16)
  | .xst d a => some (put2 0xE0000001 d.val 21 a.val 16)
  | .xldcol d a => some (put2 0xE0000002 d.val 21 a.val 16)
  | .xstcol d a => some (put2 0xE0000003 d.val 21 a.val 16)
  | .xgath d a => some (put2 0xE4000000 d.val 21 a.val 16)
  | .xscat d a => some (put2 0xE4000001 d.val 21 a.val 16)
  | .xred d a => some (put2 0xE4000002 d.val 21 a.val 16)
  | .xprog d a => some (put2 0xE4000003 d.val 21 a.val 16)
  | .xpush d a b => some (put3 0xE8000000 d.val 21 a.val 16 b.val 11)
  | .xpull d a b => some (put3 0xE8000001 d.val 21 a.val 16 b.val 11)
  | .xwait d a => some (put2 0xE8000002 d.val 21 a.val 16)
  | .xsect d a b => some (put3 0xE8000003 d.val 21 a.val 16 b.val 11)
  | .xexp24 d a w => some (put3 0xEC000000 d.val 21 a.val 16 w.val 11)
  | .xbdot d a b => some (put3 0xEC000001 d.val 21 a.val 16 b.val 11)
  | .placeCastOn _ _ => none
  | .ctxmapSelect _ _ => none
  | .ctxmapWriteSlot _ _ => none
  | .ctxmapWriteSab _ _ => none
  | .isocfgSelect _ _ => none
  | .isocfgSet _ _ => none
  | .arbwWrite _ _ => none
  | .evqbaseWrite _ _ => none
  | .registerWrite _ _ _ _ => none
  | .waitReasonClears _ _ => none
  | .waitDeadline _ _ => none
  | .streamRequest _ _ => none
  | .streamElementArrival _ _ => none
  | .streamWritePerform _ _ => none
  | .accessPerformed _ _ => none
  | .relaxedStoreAck _ => none
  | .matrixAccept _ _ => none
  | .arbiterTake _ => none
  | .matrixExecute _ => none
  | .matrixComplete _ _ => none
  | .hdrainImageAck _ _ => none
  | .adapterFillArrival _ _ => none
  | .rowReplay _ => none
  | .externalElement _ _ => none
  | .transferElement _ _ _ => none
  | .transferEnd _ _ => none
  | .sectorLineAccess _ _ _ _ => none
  | .stationWalkEnd _ => none
  | .faultQueueRoom _ => none
  | .remoteRequest _ _ _ => none
  | .recordDelivery _ _ => none
  | .creditReturn _ _ => none
  | .deliveryResume _ _ => none
  | .channelWaitExpiry _ => none
  | .barrierArrivalCombine _ _ => none
  | .barrierCornerFire _ _ => none
  | .barrierReleaseReceipt _ _ => none
  | .barrierBrokenNotice _ _ => none
  | .barrierBrokenRelease _ _ => none
  | .castOnOctetLoaded _ => none
  | .castOnImageFailure _ => none
  | .priorityAging _ _ => none
  | .groupPlacement _ => none
  | .rangeRequestArrival _ => none
  | .rangeStep _ => none
  | .rangeReturnHeld _ => none
  | .eventHeldStore _ => none
  | .vacateDeadline _ => none
  | .contextSaveBegin _ => none
  | .contextSaveComplete _ => none
  | .restoreComplete _ => none
  | .portTrainingEnd _ _ => none
  | .portTrainingTimeout _ => none
  | .portLaneLoss _ _ => none
  | .portFailure _ => none
  | .ptpMessage _ _ _ _ => none
  | .frameIngress _ _ _ => none
  | .frameBankFlip _ => none
  | .hostTailKick _ _ => none
  | .hostCmdLaunch _ => none
  | .hostCmdCancel _ => none
  | .hostCmdAdmit _ _ _ _ _ => none
  | .hostCmdRelease => none
  | .powerOn _ _ => none
  | .attestationRequest _ => none
  | .attestationReport => none
  | .updateImageWrite _ => none
  | .updateClusterSwitch _ _ => none
  | .islandStart _ => none
  | .islandIdleStop _ => none
  | .islandStopRequest _ => none
  | .partFault _ => none
  | .controlCoreReset _ => none
  | .illegalInstr => none
  | .fetchBoundary => none
  | .fetchEccFailure => none
  | .packagePowerLimit _ => none
  | .powerLoss => none
  | .hostMemoryAccess _ _ => none

/-- The word of an instruction. -/
def encode (i : Instr) : Option (BitVec 32) := (encodeNat i).map (BitVec.ofNat 32)

end Sys2Proof
end

