-- ==== Sys2Proof/Config.lean ====
section
/-! DEFINITION. What the spec leaves open: constants with no body, so that nothing can be proved of their values. DESIGN CHOICE, entry 7. -/

namespace Sys2Proof.Config

/-- A value the spec leaves open, numbered by State.free. -/
opaque freeWord : Nat → BitVec 64

/-- A yes-or-no choice the spec leaves open, numbered by State.free. -/
opaque freeBool : Nat → Bool

/-- What another device of the load-store domain answers (R268, R274, R429, R441, R442): a value (for a sync object, its record
as the home found it), a failed service, a rights failure, a granule found uncorrectable or poisoned, or nothing because the link
was lost. -/
inductive RemoteAns where
  | ok (v : Nat)
  | fault
  | rights
  | bad (poisoned : Bool)
  | lost
  deriving DecidableEq, Repr, Inhabited

/-- The answer to a request: by State.free, device, context, address and bytes. -/
opaque remoteAnswer : Nat → Nat → Nat → Nat → Nat → RemoteAns

/-- The bytes the expander of a CXL port backs (R445), before the bound of 2 TiB. -/
opaque cxlCapacity : Nat → Nat

/-- The check value over a skein's header and thread-state blocks (R408): the manual gives no formula. -/
opaque skeinCheck : List (Nat × BitVec 8) → BitVec 64

/-- Where the management firmware puts what it keeps in device memory (0), the virtual address at which it maps the frame-path tables
(1), and the SZL of context 0's host rings (2) (R439, R449, R457). -/
opaque bootChoice : Nat → BitVec 52

/-- Which of the usable ports of a kind, as many as the first number says, the requests to a 1 KiB sector take (R442). -/
opaque portChoice : Nat → Nat → Nat

/-- The octet number and the certificates a device was made with (R460), by number of the item. -/
opaque deviceIdentity : Nat → BitVec 64

/-- The signature of an attestation report over its bytes (R460). -/
opaque reportSignature : List (BitVec 8) → List (BitVec 8)

end Sys2Proof.Config
end

