-- ==== Sys2Proof/Machine/State.lean ====
section
/-! DEFINITION. The state of the device: every core, octet, cluster, die, stack, context, group, kernel,
port and the management plane, as plain data; the reasons a step can stop; the state after reset. -/

namespace Sys2Proof.Machine

/-! ## Threads (chapter The thread and its core) -/

/-- The states of a thread (R96). A thread in SAVED is one that a skein holds, with the state it is restored to. -/
inductive TState where
  | off | run | wait | trap | stop
  deriving DecidableEq, Repr

/-- Privilege levels, in the order of TSTAT.PRIV (R98). -/
inductive Priv where
  | user | handler | supervisor
  deriving DecidableEq, Repr

/-- Wait reasons, in the order of TSTAT.WREASON (R97). `none` is code 0: also the reason of an access that
the router holds (R266). -/
inductive WReason where
  | none | event | queue | stream | barrier | round | sync | matrix | work | launch | channel | gang | xb | fence | external
  deriving DecidableEq, Repr

/-- A HINT that has retired and whose consumer has not (R43, R47): never saved, left behind by no trap. -/
inductive Hint where
  | imm (d : BitVec 22)
  | mod (m : BitVec 4)
  | brx (b : BitVec 2)
  deriving DecidableEq, Repr

/-- STRSTAT (R158). -/
structure StrStat where
  slot : Fin 4
  valid : Bool
  late : Bool
  idxf : Bool
  cause : BitVec 8
  index : BitVec 48
  deriving DecidableEq, Repr

/-- RPTSTAT (R166). -/
structure RptStat where
  active : Bool
  body : BitVec 4
  len : BitVec 4
  period : BitVec 2
  mask : BitVec 4
  iter : BitVec 24
  count : BitVec 24
  deriving DecidableEq, Repr

/-- A relaxed store that its home has not acknowledged (R272): effective address, bytes, value, and the records that its thread had
sent before it and that were not yet delivered, each by its output, connection and sequence number (R293). -/
structure RStore where
  ea : Word
  size : Nat
  nibble : Bool
  value : Word
  behind : List (Nat × Nat × BitVec 32)
  deriving DecidableEq, Repr

/-- The operation of an external instruction (majors 0x38, 0x39). -/
inductive ExtOp where
  | xld | xst | xldcol | xstcol | xgath | xscat | xred
  deriving DecidableEq, Repr

/-- What a waiting instruction has already done when its thread waits (R97, R211, R302). A save drops it,
except where an entry says that the effect stays. -/
inductive Pend where
  | none
  | syncAsked (ea : Word) (write : Bool)
  | syncGranted (ea : Word) (write : Bool)
  | syncBad (ea : Word)
  | asked
  | index (i : BitVec 32)
  | item (v : Word)
  | external (op : ExtOp) (desc : List Word) (failed : Bool)
  | gang
  | put
  | take
  | pop (n : Fin 4)
  | push (n : Fin 4)
  | stq (n : Fin 4)
  | sen (n : Fin 4)
  | held (ea : Word)
  | object (n : Nat)
  deriving DecidableEq, Repr

/-- The mark of an ECC granule (R274): correct, uncorrectable and not yet found, or poisoned. -/
inductive Mark where
  | ok | bad | poisoned
  deriving DecidableEq, Repr

/-- The special state of a partial-sum element (R77). -/
inductive Special where
  | none | nan | pinf | ninf
  deriving DecidableEq, Repr

/-- One element of a partial-sum row: mantissa and special state (R77). -/
structure PsElem where
  m : Int
  sp : Special
  deriving DecidableEq, Repr

/-- A partial-sum row: its elements 0 to 15 (absent ones are zero) and its exponent (R77). -/
structure PsRow where
  e : Int
  el : Tbl PsElem
  deriving DecidableEq, Repr

/-- The matrix exception counters of R234 and the adapter counters of R262. -/
structure Counters where
  nxr : BitVec 16
  ufr : BitVec 16
  ofr : BitVec 16
  nvr : BitVec 16
  drop : BitVec 16
  hitRows : BitVec 16
  replays : BitVec 16
  fills : BitVec 16
  deriving DecidableEq, Repr

/-- Handle states (R228); FREE is held by the absence of the handle. -/
inductive HState where
  | free | configured | live | dirty
  deriving DecidableEq, Repr

/-- A handle (R227): whether it is FREE, GEN and DISC in the accepted view (R212); its state, GEN and DISC as the
commands executed so far left them; the numbers, from 1, of the commands that set each part of the accepted view; its elements, (r, n)
under 16r + n. -/
structure Handle where
  free : Bool
  gen : BitVec 8
  disc : Bool
  st : HState
  genX : BitVec 8
  discX : Bool
  freeBy : Nat
  genBy : Nat
  discBy : Nat
  el : Tbl (BitVec 32)
  deriving DecidableEq, Repr

/-- What a command found that has executed: the rows of its partial-sum register, its handle, the marks of the handle's memory; and what
it has counted (R241). -/
structure MxOld where
  rows : List PsRow
  handle : Option Handle
  marks : List (Nat × Mark)
  counted : Counters
  deriving DecidableEq, Repr

/-- The matrix unit's commands (R210). -/
inductive MxOp where
  | mma | mmaz | mmaad | msca | mscars | psrd
  | hfree | hcfg | halloc | hrowld | hrowst | hcolld | hcolst | hzero | hdrain | hrescale | hstat
  | reda | redx | adtbl | ainv | apref | astat
  deriving DecidableEq, Repr

/-- An adapter table entry, as its four words (R244). -/
structure AdEntry where
  w0 : Word
  w1 : Word
  w2 : Word
  w3 : Word
  deriving DecidableEq, Repr

/-- Where a command stands: accepted and queued, taken by the arbiter, executed but waiting for deferred
rows or for its completion, or an HDRAIN whose image is being written (R232, R242, R253). -/
inductive MxStage where
  | queued | taken | executed | draining
  deriving DecidableEq, Repr

/-- What an acceptance changed in the accepted view, as it stood before, with the number of the command that had set that: the
effect that a discarded command does not have (R212, R241). -/
inductive Undo where
  | tag (ps : Nat) (old : Option (BitVec 6))
  | free (h : Nat) (old : Bool) (setBy : Nat)
  | gen (h : Nat) (old : BitVec 8) (setBy : Nat)
  | disc (h : Nat) (old : Bool) (setBy : Nat)
  | slot (n : Nat) (old : AdEntry) (setBy : Nat)
  deriving DecidableEq, Repr

/-- A matrix command: its number in the order of acceptance within the octet, the core, the operation, the
register values staged at issue, and what acceptance bound (R210, R212, R249): `k` is the handle HALLOC chose or the
partial-sum register of PSRD, REDA and REDX, `c` the tag's factor (R202), `bound` the entries of the rows of an MMAAD
or the identifiers an ADTBL changed, `rows` the deferred rows, `cut` those that a failed fill has discarded (R256); `f`, `vres`
and `flags` are what it delivers, `old` what it found when it executed. -/
structure MxCmd where
  id : Nat
  core : Fin 8
  op : MxOp
  d : Word
  a : Word
  b : Word
  v : List VWord
  k : Nat
  c : Nat
  rm : BitVec 3
  sat : Bool
  exp : BitVec 8
  genOld : BitVec 8
  adt : BitVec 32
  bound : List (Nat × AdEntry)
  undo : List Undo
  rows : List Nat
  cut : List Nat
  stage : MxStage
  f : Option Word
  vres : List VWord
  flags : BitVec 5
  old : Option MxOld
  deriving DecidableEq, Repr

/-- How far an instruction of R211 has come: accepted as a command, its command completed, or failed (R211, R232). -/
inductive MxWait where
  | none
  | asked (id : Nat)
  | done (c : MxCmd)
  | failed (cause : BitVec 8) (tval : Word)
  deriving DecidableEq, Repr

/-- One thread: program counter, trap state, stack bounds and the CSRs of which each thread has its own
(R96, R100 to R105). `conv` and `dead` are CONVG and DEADG in an A-thread, CONVF and DEADF in an X-thread;
`convv` and `deadv` are CONVV and DEADV. The stack pointers hold bits [16:3] of their CSRs. -/
structure ThreadState where
  st : TState
  pc : Nat
  priv : Priv
  ppriv : Priv
  wreason : WReason
  tvec : BitVec 10
  tpc : BitVec 15
  tcause : BitVec 8
  tval : Word
  discarded : Bool
  wchan : Bool
  wkick : Bool
  ssp : BitVec 14
  sslo : BitVec 14
  sshi : BitVec 14
  conv : Word
  convv : Word
  dead : BitVec 32
  deadv : BitVec 32
  strstat : StrStat
  hint : Option Hint
  superTrap : Bool
  held : List (Word × Bool)
  relaxed : List RStore
  relaxFail : Option (BitVec 8 × Word)
  since : Option Nat
  pend : Pend
  mx : MxWait
  progK : BitVec 24
  progMiss : Bool
  progFl : BitVec 5
  progStash : List (BitVec 25 × BitVec 5)
  deriving DecidableEq, Repr

/-! ## Streams (chapter The stream) -/

/-- A stream descriptor (R141). `idx` names the index slot and the shift. -/
structure Desc where
  base : Word
  mode : Word
  n0 : Nat
  n1 : Nat
  n2 : Nat
  n3 : Nat
  s0 : Int
  s1 : Int
  s2 : Int
  s3 : Int
  idx : Option (Fin 4 × Nat)
  manual : Bool
  deriving DecidableEq, Repr

/-- A committed descriptor: the slot's own and, for an indirect one, the index slot's (R148); `no` numbers the
commits of a slot, so that two equal descriptors are told apart. -/
structure DescPair where
  own : Desc
  ix : Desc
  no : Nat
  deriving DecidableEq, Repr

/-- Slot states (R149). -/
inductive SlotState where
  | off | active | idle | ended | faulted
  deriving DecidableEq, Repr

/-- An entry of a load-data or address queue: requested and not yet arrived, an element (read) or an
address (write), or a fault mark (R151). -/
inductive Elem where
  | requested (addr : Int)
  | value (v : VWord)
  | mark (cause : BitVec 8) (addr : Word) (idxf : Bool)
  deriving DecidableEq, Repr

/-- A queue entry with the descriptor it belongs to and its index there. -/
structure Entry where
  desc : DescPair
  k : Nat
  elem : Elem
  deriving DecidableEq, Repr

/-- A pushed element and the byte lanes to be written (R142, R152). -/
structure Pushed where
  v : VWord
  lanes : PWord
  deriving DecidableEq, Repr

/-- A stream slot (R141, R149, R151). `next` is the generation position; `plan` holds the descriptors that
follow the current one after a flush or a fault; `serves` names the slot this one is the index slot of; `late` is a
write failure not yet reported (R157), with the descriptor and the index of the element. `commits`, `pushed` and
`done` count the descriptors committed, the elements pushed and the writes performed; `covered` is what R161 makes a
flush wait for. -/
structure Slot where
  state : SlotState
  staging : Desc
  cur : DescPair
  plan : List DescPair
  pending : Option DescPair
  next : Nat
  queue : List Entry
  store : List Pushed
  serves : Option (Fin 4)
  late : Option (BitVec 8 × Word × DescPair × Nat)
  commits : Nat
  pushed : Nat
  done : Nat
  covered : Nat
  deriving DecidableEq, Repr

/-! ## The X-thread's tables and the matrix unit's share of a core -/

/-- A sign register (R194). -/
structure SignReg where
  sign : BitVec 128
  blk : BitVec 2
  deriving DecidableEq, Repr

/-! ## Channels and barriers -/

/-- Endpoint states (R325). -/
inductive EpState where
  | closed | connecting | opened | pending
  deriving DecidableEq, Repr

/-- A record in staging: its words, its sequence number, whether it is a marker, whether it goes to the spill region,
and the writes a PUT makes first, as offset, bytes and value, with the words they take in staging (R326 to R335). -/
structure Rec where
  words : List Word
  seq : BitVec 32
  mark : Bool
  spill : Bool
  put : List (Nat × Nat × Nat)
  putWords : Nat
  deriving DecidableEq, Repr

/-- A record stored in a ring or a spill region: its words, and what its header says (R326). -/
structure InRec where
  w : Nat
  len : Nat
  mark : Bool
  seq : BitVec 32
  deriving DecidableEq, Repr

/-- A declared endpoint: the four words of its declaration (R322). -/
structure Decl where
  w0 : Word
  w1 : Word
  w2 : Word
  w3 : Word
  deriving DecidableEq, Repr

/-- An output endpoint: credit view, sequence number, sizes received on connection, staging (R325 to R328), and the number of its
last connection. -/
structure OutEp where
  st : EpState
  decl : Decl
  seq : BitVec 32
  mfree : Nat
  sfree : Nat
  sout : Nat
  land : Nat
  lsize : Nat
  staging : List Rec
  conn : Nat
  deriving DecidableEq, Repr

/-- An input endpoint: expected sequence number, the tails of its ring and spill region in words, the records in each,
oldest first, whether the peer has closed (R325 to R328, R344), and the number of its last connection. -/
structure InEp where
  st : EpState
  decl : Decl
  eseq : BitVec 32
  rtail : Nat
  ring : List InRec
  stail : Nat
  spill : List InRec
  closing : Bool
  conn : Nat
  deriving DecidableEq, Repr

/-- What the router carries to a core: freed ring and spill words, the change a CLOSE makes at the peer of an output or
of an input, or a kick with the cluster it came from (R328, R342, R343). -/
inductive RWhat where
  | credit (ring spill : Nat)
  | outClosed
  | inClosed
  | kick (v : Word) (src : Option (Fin 16))
  deriving DecidableEq, Repr

/-- A message of the router: the context and the kind of core it comes from, the target word, the endpoint and the connection it
is for (R342, R343). -/
structure RMsg where
  ctx : Nat
  kind : Kind
  word : Word
  ch : Fin 16
  conn : Nat
  what : RWhat
  deriving DecidableEq, Repr

/-- Barrier register states, in the order of BARSTAT (R350). -/
inductive BarState where
  | unconf | idle | arrived | done | broken
  deriving DecidableEq, Repr

/-- A combined arrival held at a core of the barrier network (R355). -/
structure BarMsg where
  shape : BitVec 16
  gen : BitVec 12
  fromRight : Bool
  deriving DecidableEq, Repr

/-- A barrier register and the core's node of the barrier network (R349, R352, R355): the combined arrivals that have
reached the core, whether it has forwarded its own of this generation, the releases on their way here in order (with true
for a broken one), and, at a corner, whether it has fired for this generation. -/
structure Bar where
  st : BarState
  shape : BitVec 16
  gen : BitVec 12
  owner : Thread
  sw : Bool
  inbox : List BarMsg
  forwarded : Bool
  releases : List Bool
  fired : Bool
  deriving DecidableEq, Repr

/-! ## The core -/

/-- Gang state of a core (R106, R124 to R128). `buf` holds the forwarded words, each with its address and the leader's next
address after it; `sent` says of a leader that the instruction it waits in has been forwarded. -/
structure Gang where
  nfol : Fin 8
  follower : Bool
  active : Bool
  compare : Bool
  leader : Fin 8
  pos : Fin 8
  joining : Bool
  buf : List (BitVec 32 × Nat × Nat)
  sent : Bool
  deriving DecidableEq, Repr

/-- A push or pull in progress (R310 to R312): its descriptor words, the mailbox value, the elements still
to be written, the flags gathered, and a failure's cause. -/
structure Xfer where
  id : Nat
  ctx : Nat
  past : Bool
  ticket : BitVec 32
  push : Bool
  desc : List Word
  sign : BitVec 128
  mbox : Word
  todo : List Nat
  flags : BitVec 5
  fail : Option (BitVec 8)
  deriving DecidableEq, Repr

/-- A core. Registers absent from their tables hold zero. `xaqTags` holds, for each entry of XAQ, how many elements
each slot had been pushed when the entry was put (R161); `flagLog` the sticky flags as they were, with the cycle
from which each value stood (R107). -/
structure Core where
  a : ThreadState
  x : ThreadState
  g : Tbl Word
  f : Tbl Word
  v : Tbl VWord
  p : Tbl PWord
  fcsr : BitVec 9
  rpt : RptStat
  rptBody : List (BitVec 32)
  slots : Tbl Slot
  hs : Tbl SignReg
  ppe : Tbl (BitVec 32)
  axq : List Word
  xaq : List Word
  xaqTags : List (List Nat)
  flagLog : List (Nat × BitVec 5)
  ctxid : BitVec 12
  xb : BitVec 9
  groupid : BitVec 24
  kernelid : BitVec 60
  griddim : BitVec 48
  gauge : BitVec 62
  gkey : Option GroupKey
  orow : Nat
  ocol : Nat
  ps : Tbl PsRow
  psTag : Tbl (Option (BitVec 6))
  cnt : Counters
  mgen : BitVec 8
  adtbase : BitVec 32
  mxErr : Option (BitVec 8 × Word)
  bars : Tbl Bar
  outs : Tbl OutEp
  ins : Tbl InEp
  round : BitVec 32
  marked : Bool
  kick : Word
  kickCl : Option (Fin 16)
  hold : Option Nat
  gang : Gang
  edgeStop : Bool
  islandStart : Nat
  tickets : BitVec 32
  xfers : List Xfer
  xferNo : Nat
  ended : List (BitVec 32 × Word)
  deriving DecidableEq, Repr

/-! ## The octet -/

/-- A line of the adapter cache: the entry it was read by, its bytes, and whether it has been invalidated while the commands
numbered in `users` held it, until that use ends (R246, R249, R259). The lines of an octet stand in the order of their last use. -/
structure AdLine where
  key : LineKey
  entry : AdEntry
  data : List Byte
  stale : Bool
  users : List Nat
  deriving DecidableEq, Repr

/-- A fill requested and not arrived: the line, the entry it is read by, and the core that asked for it (R252). -/
structure AdFill where
  key : LineKey
  entry : AdEntry
  core : Fin 8
  deriving DecidableEq, Repr

/-- An octet: owner (0 stands for NONE), discard mask, handles, adapter directory and cache, the matrix
unit's commands, the arbiter's place and weights, checked-pair modes, and the context that last owned it. -/
structure Octet where
  owner : Nat
  lastOwner : Nat
  dmask : BitVec 256
  handles : Tbl Handle
  dir : Tbl AdEntry
  dirBy : Tbl Nat
  lines : List AdLine
  fills : List AdFill
  cmds : List MxCmd
  nextCmd : Nat
  pass : Nat
  visit : Nat
  weights : BitVec 32
  pairConf : BitVec 4
  pairLive : BitVec 4
  freeSince : Nat
  retired : Bool
  oldMicro : Option CodeImage
  deriving DecidableEq, Repr

/-! ## Clusters, dies and stacks -/

/-- A completion record on its way into an event queue (R398): `seq` is the number its source gave it, none for the cluster's own
control-core stream, and `after` the core whose A-thread's earlier accesses come before it (R292, R399). -/
structure CRec where
  kind : Nat
  obj : Nat
  ctx : Nat
  status : Nat
  value : Word
  time : Word
  seq : Option Nat
  after : Option CoreName
  deriving DecidableEq, Repr

/-- What runs under PLACE: a cast-on, the checks of a restore from a record's CTX, GID, PO and S0, a restore, or a
migration until its save completes (R360, R411). -/
inductive PlaceOp where
  | cast (g : GroupKey)
  | check (ctx gid po s0 : Nat)
  | restore (g : GroupKey) (po : Nat)
  | migrate (g : GroupKey)
  deriving DecidableEq, Repr

/-- A cluster's control core: the state of its own CSRs, its event queue, the posts held there and those of other sources still on
their way (R25), and what its launch queues and its firmware do; `blocked` names the group that came first and did not fit (R373). -/
structure Cluster where
  placeRec : BitVec 11
  placeStatus : BitVec 2
  placeReason : BitVec 4
  placeOp : Option PlaceOp
  arbwOct : BitVec 5
  ctxmapCtx : BitVec 12
  ctxmapSlot : BitVec 5
  isoCtx : BitVec 12
  evSzl : BitVec 4
  evBase : BitVec 10
  evEn : Bool
  evCount : Nat
  evHead : Nat
  held : List CRec
  coming : List CRec
  seq : Nat
  stopped : Bool
  newFw : Bool
  blocked : Option GroupKey
  deriving DecidableEq, Repr

/-- A request for a range index (R384, R385): the asking core by its group and logical place, and the
answer's scratchpad offset for NEXT, none for NEXTW; `at_` is the cycle of its issue. -/
structure RangeReq where
  at_ : Nat
  g : GroupKey
  orow : Nat
  ocol : Nat
  x : Nat
  ans : Option Nat
  deriving DecidableEq, Repr

/-- A range state (R379): kernel, flag, live ranges by group id, waiting requests in order. -/
structure RangeState where
  ctx : Nat
  kid : Nat
  closed : Bool
  ranges : Tbl (Nat × Nat)
  waiting : List RangeReq
  deriving DecidableEq, Repr

/-- A task: kernel and interval. -/
structure Task where
  ctx : Nat
  kid : Nat
  lo : Nat
  hi : Nat
  deriving DecidableEq, Repr

/-- A die's range unit (R379, R380): requests on their way, states, task queue, returns held, answers to be
written to a group that is switched out. -/
structure RangeUnit where
  arriving : List RangeReq
  states : List RangeState
  tasks : List Task
  heldReturns : List Task
  heldAnswers : List (RangeReq × BitVec 32)
  deriving DecidableEq, Repr

/-- An entry of a station's cache, a leaf or a table entry (R423): context, level, page number at that level, entry. -/
structure TlbLeaf where
  ctx : Nat
  level : Nat
  page : Nat
  pte : Word
  deriving DecidableEq, Repr

/-- A requester that waits for the service of a page fault (R426). -/
inductive WaitReq where
  | xfer (c : CoreName) (id : Nat)
  | fill (o : OctName) (line : LineKey)
  | drain (o : OctName) (id : Nat)
  | cast (cl : Fin 16)
  | save (g : GroupKey)
  | remote (ctx va : Nat)
  deriving DecidableEq, Repr

/-- A fault entry (R427). -/
structure FaultEntry where
  ctx : Nat
  key : Nat
  code : Nat
  inService : Bool
  waiting : List WaitReq
  mask : BitVec 17
  wr : Bool
  trapped : Bool
  deriving DecidableEq, Repr

/-- A walk that requests are waiting for (R424). -/
structure Walk where
  ctx : Nat
  va : Nat
  wr : Bool
  req : WaitReq
  deriving DecidableEq, Repr

/-- A translation station (R423 to R427): what it holds, oldest first, the walks asked for, its fault queue, what waits for room
there, and the requests that have failed, each with its cause. -/
structure Station where
  tlb : List TlbLeaf
  walks : List Walk
  faults : List FaultEntry
  full : List FaultEntry
  failed : List (WaitReq × BitVec 8)
  deriving DecidableEq, Repr

/-- A sector of a stack's cache (R296, R297): owner, orientation, dirty, consecutive line accesses of the other kind, and the
cycle of its last use. -/
structure Sector where
  present : Bool
  o : Bool
  dirty : Bool
  other : Nat
  ctx : Nat
  used : Nat
  deriving DecidableEq, Repr

/-! ## Contexts, kernels and groups -/

/-- A window slot (R403). -/
inductive SlotMap where
  | empty
  | mapped (oct : Fin 24)
  | switched
  deriving DecidableEq, Repr

/-- Kernel states (R371). -/
inductive KState where
  | waiting | ready | running | finished
  deriving DecidableEq, Repr

/-- A kernel (R371): its launch block's fields, state, counters, the cluster its records go to, and the
host tag of a host launch. -/
structure Kernel where
  kid : Nat
  block : Nat
  ncol : Nat
  nrow : Nat
  h : Nat
  w : Nat
  prio : Nat
  gend : Bool
  arg : Word
  image : Nat
  ilen : Nat
  xbnd : Nat
  tvb : Nat
  xoff : Nat
  graph : Nat
  clmask : Nat
  preds : List Nat
  st : KState
  pcount : Nat
  kcount : Nat
  value : Word
  status : Nat
  readyAt : Nat
  eprio : Nat
  cl : Fin 16
  hostTag : Option Word
  deriving DecidableEq, Repr

/-- A graph instance (R374). -/
structure GraphInst where
  id : Nat
  closed : Bool
  gcount : Nat
  total : Nat
  cancelled : Bool
  done : Bool
  deriving DecidableEq, Repr

/-- A context (R402 to R404): residency, save base, isolation and shares, page-table root, window maps of
all clusters (by 24·cluster + slot), kernels, graph instances, the status of each JOB_DONE (R374), its host queue block (R439),
and the completions that wait for room in its ring. -/
structure Context where
  resident : Bool
  sab : BitVec 38
  iso : Bool
  sc : BitVec 6
  tc : BitVec 6
  bw : BitVec 7
  fix : Bool
  root : Nat
  slots : Tbl SlotMap
  nextKid : Nat
  kernels : List Kernel
  graphs : List GraphInst
  jobEnds : List Nat
  hostBlock : Option Nat
  hostCl : Fin 16
  hostDone : List (Word × Word)
  deriving DecidableEq, Repr

/-- Group states (R364). -/
inductive GState where
  | pending | casting | running | saved | done | cancelled
  deriving DecidableEq, Repr

/-- A vacating request (R405): when, whether at once, checkpoint, migration target, and whether the deadline
has passed and the save has begun. -/
structure Vacate where
  at_ : Nat
  status : Nat
  keep : Bool
  target : Option Nat
  deadline : Bool
  saving : Bool
  deriving DecidableEq, Repr

/-- A group (R364). `po` is its top-left physical octet in cluster `cl`; `cast` orders cast-ons and
restores; `loaded` names the octets loaded so far; `ending` is the GROUP_DONE record that a bind-off waits for (R399). -/
structure Group where
  key : GroupKey
  st : GState
  gr : Nat
  gc : Nat
  h : Nat
  w : Nat
  cl : Fin 16
  po : Nat
  s0 : Nat
  count : Nat
  value : Word
  cast : Nat
  loaded : List Nat
  vac : Option Vacate
  ending : Option CRec
  deriving DecidableEq, Repr

/-- What a save keeps of one logical octet beside the skein's bytes in memory (R407, R409): what the thread-state
blocks of its cores stand for. -/
structure Skein where
  ctx : Nat
  cl : Fin 16
  slot : Nat
  g : GroupKey
  h : Nat
  w : Nat
  cores : List Core
  deriving DecidableEq, Repr

/-! ## Ports, frames, device life -/

/-- Port states, in the order of LINK_EVENT (R435). -/
inductive PState where
  | down | training | up | degraded | failed
  deriving DecidableEq, Repr

/-- A port (R434, R436). -/
structure Port where
  st : PState
  lanes : Nat
  errors : BitVec 16
  retrains : BitVec 16
  deriving DecidableEq, Repr

/-- A frame queue's counters (R452, R453). -/
structure FrameQ where
  head : BitVec 32
  tail : BitVec 32
  free : BitVec 32
  fdrop : Nat
  posted : Bool
  deriving DecidableEq, Repr

/-- Device time (R446, R447): seconds, nanoseconds, fraction; whether the servo is locked. -/
structure Stamp where
  sec : BitVec 48
  ns : Nat
  frac : Nat
  locked : Bool
  deriving DecidableEq, Repr

/-- The device from power-on to replacement (R457 to R465): power, status word fields, flash, fuses, I3C registers, islands that run
(by number), parts retired; the image that runs and the one of an update, whether the update is being rolled back; the power-on step
under way, 8 once step 7 has ended; the nonce of the report asked for; by cluster, the coordinate its spare octet has taken. -/
structure Life where
  powered : Bool
  replace : Bool
  slotB : Bool
  updating : Bool
  upfail : Bool
  status : Nat
  mstop : Bool
  spare : BitVec 16
  flashA : Option Image
  flashB : Option Image
  selectB : Bool
  minVersion : Nat
  measurement : BitVec 384
  nonce : BitVec 256
  attreq : Nat
  report : List Byte
  islands : Tbl Bool
  retiredParts : Tbl Bool
  powerLimit : Bool
  domain : Nat
  image : Option Image
  next : Option Image
  rolling : Bool
  bootStep : Nat
  asked : BitVec 256
  spared : Tbl (Option (Fin 24))
  deriving DecidableEq, Repr

/-- A request that waits in the queue of a sync object (R285): of a thread of this device, or of another device under a context and
address, with word 1 of the record if it is granted (R279, R441). -/
inductive SyncReq where
  | own (c : CoreName) (t : Thread) (wr : Bool)
  | other (ctx va : Nat) (wr : Bool) (holder : Word)
  deriving DecidableEq, Repr

/-- Whose turn it is, and how many cycles have passed since the turn before: a thread issues, or a step of
the device takes place. -/
inductive Turn where
  | thread (c : CoreName) (t : Thread) (dt : Nat)
  | event (i : Instr) (dt : Nat)
  deriving DecidableEq, Repr

/-- The device. `turns` is the schedule still to come, with what the world outside supplies; `cur`, `thr` name
the thread whose turn it is and `ir` its instruction word, `ea` the last address it formed; `free` numbers the values the spec leaves open;
`slewRate` is the servo's last slew of device time, in parts per thousand million (R446); `conns` numbers the connections of channels. -/
structure State where
  turns : List Turn
  cur : CoreName
  thr : Thread
  ir : BitVec 32
  ea : Word
  cycle : Nat
  free : Nat
  cores : Tbl Core
  octets : Tbl Octet
  clusters : Tbl Cluster
  dies : Tbl RangeUnit
  stations : Tbl Station
  sectors : Tbl Sector
  mem : List Host.Cell
  marks : Tbl Mark
  syncq : Tbl (List SyncReq)
  takeq : Tbl (List (CoreName × Nat))
  router : List RMsg
  conns : Nat
  ctxs : Tbl Context
  groups : List Group
  skeins : List Skein
  castSeq : Nat
  memSeq : Tbl Nat
  mgmtSeq : Nat
  portSeq : Tbl Nat
  ports : Tbl Port
  frameQs : Tbl FrameQ
  frameBank : Bool
  badFrames : Nat
  ruleDrops : Nat
  time : Stamp
  slewRate : Int
  life : Life
  deriving DecidableEq, Repr

/-! ## The state after reset -/

/-- A thread as at its start (R90, R96, R104, R105). -/
def ThreadState.init : ThreadState where
  st := .off
  pc := 0
  priv := .user
  ppriv := .user
  wreason := .none
  tvec := 0
  tpc := 0
  tcause := 0
  tval := 0
  discarded := false
  wchan := false
  wkick := false
  ssp := 0
  sslo := 0
  sshi := 0
  conv := 0
  convv := 0
  dead := 0
  deadv := 0
  strstat := ⟨0, false, false, false, 0, 0⟩
  hint := Option.none
  superTrap := false
  held := []
  relaxed := []
  relaxFail := Option.none
  since := Option.none
  pend := .none
  mx := .none
  progK := 0
  progMiss := false
  progFl := 0
  progStash := []

/-- The staging descriptor after reset and after SDIS (R141). -/
def Desc.init : Desc := ⟨0, 0, 1, 1, 1, 1, 0, 0, 0, 0, Option.none, false⟩

/-- A slot after reset (R141, R149). -/
def Slot.init : Slot :=
  ⟨.off, Desc.init, ⟨Desc.init, Desc.init, 0⟩, [], Option.none, 0, [], [], Option.none, Option.none, 0, 0, 0, 0⟩

/-- A sign register at thread start (R194). -/
def SignReg.init : SignReg := ⟨0, 0⟩

/-- A partial-sum row zeroed other than by a command (R77, R222). -/
def PsRow.init : PsRow := ⟨-32768, []⟩

/-- The element of a partial-sum row that its table does not list. -/
def PsElem.init : PsElem := ⟨0, .none⟩

/-- An output endpoint that is CLOSED (R325). -/
def OutEp.init : OutEp := ⟨.closed, ⟨0, 0, 0, 0⟩, 0, 0, 0, 0, 0, 0, [], 0⟩

/-- An input endpoint that is CLOSED (R325). -/
def InEp.init : InEp := ⟨.closed, ⟨0, 0, 0, 0⟩, 0, 0, [], 0, [], false, 0⟩

/-- A barrier register after reset: UNCONF, GEN 0 (R352). -/
def Bar.init : Bar := ⟨.unconf, 0, 0, .a, false, [], false, [], false⟩

/-- The gang registers of a core in no gang (R106). -/
def Gang.init : Gang := ⟨0, false, false, false, 0, 0, false, [], false⟩

/-- A core after reset: both threads OFF, every register zero. -/
def Core.init : Core where
  a := ThreadState.init
  x := ThreadState.init
  g := []
  f := []
  v := []
  p := []
  fcsr := 0
  rpt := ⟨false, 0, 0, 0, 0, 0, 0⟩
  rptBody := []
  slots := []
  hs := []
  ppe := []
  axq := []
  xaq := []
  xaqTags := []
  flagLog := []
  ctxid := 0
  xb := 0
  groupid := 0
  kernelid := 0
  griddim := 0
  gauge := 0
  gkey := Option.none
  orow := 0
  ocol := 0
  ps := []
  psTag := []
  cnt := ⟨0, 0, 0, 0, 0, 0, 0, 0⟩
  mgen := 0
  adtbase := 0
  mxErr := Option.none
  bars := []
  outs := []
  ins := []
  round := 0
  marked := false
  kick := 0
  kickCl := Option.none
  hold := Option.none
  gang := Gang.init
  edgeStop := false
  islandStart := 0
  tickets := 0
  xfers := []
  xferNo := 0
  ended := []

/-- A handle that is FREE (R228). -/
def Handle.init : Handle := ⟨true, 0, false, .free, 0, false, 0, 0, 0, []⟩

/-- An adapter directory slot that is empty (R244). -/
def AdEntry.init : AdEntry := ⟨0, 0, 0, 0⟩

/-- An octet after reset: no owner, handles FREE, arbiter weights 1 (R214, R222, R228). -/
def Octet.init : Octet where
  owner := 0
  lastOwner := 0
  dmask := 0
  handles := []
  dir := []
  dirBy := []
  lines := []
  fills := []
  cmds := []
  nextCmd := 0
  pass := 0
  visit := 0
  weights := 0x11111111
  pairConf := 0
  pairLive := 0
  freeSince := 0
  retired := false
  oldMicro := Option.none

/-- A cluster's control-core registers after reset (R214, R360, R397, R403, R404). -/
def Cluster.init : Cluster where
  placeRec := 0
  placeStatus := 0
  placeReason := 0
  placeOp := Option.none
  arbwOct := 0
  ctxmapCtx := 0
  ctxmapSlot := 0
  isoCtx := 0
  evSzl := 0
  evBase := 0
  evEn := false
  evCount := 0
  evHead := 0
  held := []
  coming := []
  seq := 0
  stopped := false
  newFw := false
  blocked := Option.none

/-- A range unit with nothing in it (R379). -/
def RangeUnit.init : RangeUnit := ⟨[], [], [], [], []⟩

/-- A station with nothing cached and no fault (R423, R427). -/
def Station.init : Station := ⟨[], [], [], [], []⟩

/-- A sector that is not present (R296). -/
def Sector.init : Sector := ⟨false, false, false, 0, 0, 0⟩

/-- A context that is not resident (R402 to R404). -/
def Context.init : Context where
  resident := false
  sab := 0
  iso := false
  sc := 0
  tc := 0
  bw := 0
  fix := false
  root := 0
  slots := []
  nextKid := 1
  kernels := []
  graphs := []
  jobEnds := []
  hostBlock := Option.none
  hostCl := 0
  hostDone := []

/-- A port after reset (R434, R436). -/
def Port.init : Port := ⟨.down, 0, 0, 0⟩

/-- A frame queue after reset (R452). -/
def FrameQ.init : FrameQ := ⟨0, 0, 0, 0, false⟩

/-- The device before power-on (R457, R463). -/
def Life.init : Life where
  powered := false
  replace := false
  slotB := false
  updating := false
  upfail := false
  status := 0
  mstop := false
  spare := 0
  flashA := Option.none
  flashB := Option.none
  selectB := false
  minVersion := 0
  measurement := 0
  nonce := 0
  attreq := 0
  report := []
  islands := []
  retiredParts := []
  powerLimit := false
  domain := 0
  image := Option.none
  next := Option.none
  rolling := false
  bootStep := 0
  asked := 0
  spared := []

/-- The device right after reset: nothing powered or placed, every register at the value that chapter The
device and the chapters after it give, memory with nothing listed. The first step is the power-on (R457). DESIGN CHOICE, entry 1. -/
def State.reset : State where
  turns := []
  cur := .management
  thr := .a
  ir := 0
  ea := 0
  cycle := 0
  free := 0
  cores := []
  octets := []
  clusters := []
  dies := []
  stations := []
  sectors := []
  mem := []
  marks := []
  syncq := []
  takeq := []
  router := []
  conns := 0
  ctxs := []
  groups := []
  skeins := []
  castSeq := 0
  memSeq := []
  mgmtSeq := 0
  portSeq := []
  ports := []
  frameQs := []
  frameBank := false
  badFrames := 0
  ruleDrops := 0
  time := ⟨0, 0, 0, false⟩
  slewRate := 0
  life := Life.init

/-- Why a step stops with a fault. No meaning answers with one: what the spec calls a trap is a next state,
and an address with no home ends as R421 or R445 say. -/
inductive Fault where
  /-- Raised by nothing: the device has no behaviour that stops it with no state the spec gives (safe). -/
  | unreachable
  deriving DecidableEq, Repr

/-- Why a step is refused. -/
inductive Refusal where
  /-- Raised by exec for an instruction that has no meaning yet (safe: nothing is proved of it). -/
  | notModelled (mnemonic : String)
  deriving DecidableEq, Repr

end Sys2Proof.Machine
end

