-- ==== Sys2Proof/Machine/Memory.lean ====
section
/-! DEFINITION. The memories of the device as one list of bytes, and the marks of their ECC granules
(chapters The region and the sync object and The memory core). -/

namespace Sys2Proof.Machine

/-! ## Flat addresses -/

/-- The flat address of byte 0 of a core's local memory (64 KiB each, R116). -/
def localBase (c : CoreName) : Nat := 2 ^ 60 + c.index * 2 ^ 16

/-- The flat address of byte 0 of an octet's scratchpad (1 MiB each, R263). -/
def scratchBase (o : OctName) : Nat := 2 ^ 61 + o.index * 2 ^ 20

/-- The flat address of byte 0 of a handle's 1,024 bytes of accumulator memory (R241). -/
def accBase (o : OctName) (h : Nat) : Nat := 2 ^ 62 + (o.index * 256 + h) * 1024

/-- A physical address by its home (R417, R418): a die heap names the bytes of the direct range; none has
no home. -/
def homePA (pa : Nat) : Option Nat :=
  if pa < 12 * 2 ^ 36 then some pa
  else if 2 ^ 48 ≤ pa ∧ pa < 2 ^ 48 + 4 * 2 ^ 38 then
    let d := (pa - 2 ^ 48) / 2 ^ 38
    let q := (pa - 2 ^ 48) % 2 ^ 38
    let t := q / 1024
    if q < 3 * 2 ^ 36 then some ((3 * d + t % 3) * 2 ^ 36 + t / 3 * 1024 + q % 1024) else none
  else if 2 * 2 ^ 48 ≤ pa ∧ pa < 2 * 2 ^ 48 + 2 ^ 44 then some pa
  else if 3 * 2 ^ 48 ≤ pa ∧ pa < 4 * 2 ^ 48 then some pa
  else if 8 * 2 ^ 48 ≤ pa ∧ pa < 8 * 2 ^ 48 + 192 * 2 ^ 40 then some pa
  else none

/-- The bytes of the ECC granule that holds a flat address: 32 in device memory, 8 elsewhere (R274, R300). -/
def granule (a : Nat) : Nat := if a < 2 ^ 60 then 32 else 8

/-- The first byte of the granule of an address. -/
def granStart (a : Nat) : Nat := a / granule a * granule a

/-! ## Bytes -/

/-- Reading one byte: a byte that nothing has written reads as zero. DESIGN CHOICE, entry 3. -/
def State.byte (s : State) (a : Nat) : Byte := Tbl.get 0 s.mem a

/-- Writing one byte. -/
def State.putByte (s : State) (a : Nat) (b : Byte) : State := { s with mem := Tbl.set 0 s.mem a b }

/-- The canonical form of the memory list: rising addresses, no byte listed that reads as it would unlisted. -/
def Memory.wf (m : List Host.Cell) : Bool := Tbl.wf (0 : Byte) m

/-- The n bytes at an address as a little-endian number (R2). -/
def State.readLE (s : State) (a : Nat) : Nat → Nat
  | 0 => 0
  | n + 1 => (s.byte a).toNat + 256 * s.readLE (a + 1) n

/-- Storing the low n bytes of a number (R2). -/
def State.writeLE (s : State) (a : Nat) : Nat → Nat → State
  | 0, _ => s
  | n + 1, w => (s.putByte a (BitVec.ofNat 8 w)).writeLE (a + 1) n (w / 256)

/-- The n bytes at an address. -/
def State.readBytes (s : State) (a : Nat) : Nat → List Byte
  | 0 => []
  | n + 1 => s.byte a :: s.readBytes (a + 1) n

/-- Storing a list of bytes. -/
def State.writeBytes (s : State) (a : Nat) : List Byte → State
  | [] => s
  | b :: bs => (s.putByte a b).writeBytes (a + 1) bs

/-- Storing the bytes of one value where a lane mask allows (R142). -/
def State.writeLanes (s : State) (a : Nat) (lanes : Nat) : Nat → Nat → State
  | 0, _ => s
  | n + 1, w =>
    (if lanes % 2 = 1 then s.putByte a (BitVec.ofNat 8 w) else s).writeLanes (a + 1) (lanes / 2) n (w / 256)

/-- A 64-bit word in memory (R8). -/
def State.word (s : State) (a : Nat) : Word := BitVec.ofNat 64 (s.readLE a 8)

/-- Storing a 64-bit word. -/
def State.putWord (s : State) (a : Nat) (w : Word) : State := s.writeLE a 8 w.toNat

/-- The n low bytes of a number, the least significant first (R2). -/
def lowBytes : Nat → Nat → List Byte
  | 0, _ => []
  | n + 1, w => BitVec.ofNat 8 w :: lowBytes n (w / 256)

/-- Storing consecutive 64-bit words. -/
def State.putWords (s : State) (a : Nat) (ws : List Word) : State := s.writeBytes a (ws.flatMap fun w => lowBytes 8 w.toNat)

/-- n consecutive 64-bit words. -/
def State.words (s : State) (a : Nat) : Nat → List Word
  | 0 => []
  | n + 1 => s.word a :: s.words (a + 8) n

/-- Storing zeros. -/
def State.zeroBytes (s : State) (a n : Nat) : State :=
  { s with mem := s.mem.filter fun c => decide (c.1 < a ∨ a + n ≤ c.1) }

/-- Clearing a range: every byte zero, every granule correct. -/
def State.wipe (s : State) (a n : Nat) : State :=
  { s.zeroBytes a n with marks := s.marks.filter fun m => decide (m.1 < a ∨ a + n ≤ m.1) }

/-- Copying n bytes to a cleared range. -/
def State.copyBytes (s : State) (src dst n : Nat) : State :=
  let cells := s.mem.filter fun c => decide (src ≤ c.1 ∧ c.1 < src + n)
  cells.foldl (fun t c => t.putByte (c.1 - src + dst) c.2) (s.zeroBytes dst n)

/-! ## Granules -/

/-- The mark of the granule of an address. -/
def State.mark (s : State) (a : Nat) : Mark := Tbl.get Mark.ok s.marks (granStart a)

/-- Marking the granule of an address. -/
def State.putMark (s : State) (a : Nat) (m : Mark) : State :=
  { s with marks := Tbl.set Mark.ok s.marks (granStart a) m }

/-- The starts of the granules that hold bytes of [a, a + n). -/
def granules (a n : Nat) : List Nat :=
  if n = 0 then [] else
    let g := granule a
    (List.range ((a + n - 1) / g - a / g + 1)).map fun i => (a / g + i) * g

/-- Whether [a, a + n) covers a whole granule. -/
def covers (a n g : Nat) : Bool := decide (a ≤ g ∧ g + granule g ≤ a + n)

/-- A read's examination of its granules (R274): every granule found uncorrectable is poisoned; the first
that fails gives the cause and the lowest address of the access in it. -/
def State.examine (s : State) (a : Nat) : List Nat → State × Option (BitVec 8 × Nat)
  | [] => (s, none)
  | g :: gs =>
    let (s', r) := (if s.mark g = .bad then s.putMark g .poisoned else s).examine a gs
    match s.mark g with
    | .ok => (s', r)
    | .bad => (s', some (0x06, max a g))
    | .poisoned => (s', some (0x1A, max a g))

/-- Examining the granules a read of n bytes at a reaches. -/
def State.checkRead (s : State) (a n : Nat) : State × Option (BitVec 8 × Nat) := s.examine a (granules a n)

/-- A write's examination (R275): only the granules it covers in part. -/
def State.checkWrite (s : State) (a n : Nat) : State × Option (BitVec 8 × Nat) :=
  s.examine a ((granules a n).filter fun g => !covers a n g)

/-- A write that covers a whole granule clears its poison (R275). -/
def State.clearMarks (s : State) (a n : Nat) : State :=
  { s with marks := s.marks.filter fun m => !covers a n m.1 }

/-- Storing the low n bytes of a value at a flat address, granules replaced (R275). -/
def State.store (s : State) (a n w : Nat) : State := (s.clearMarks a n).writeLE a n w

/-- Storing whole words, granules replaced. -/
def State.storeWords (s : State) (a : Nat) (ws : List Word) : State :=
  (s.clearMarks a (8 * ws.length)).putWords a ws

/-- Whether a granule with a byte in a range is marked; used where a reader fails as a whole. -/
def State.badIn (s : State) (a n : Nat) : Bool :=
  s.marks.any fun m => decide (m.1 < a + n ∧ a < m.1 + granule m.1) && m.2 != .ok

end Sys2Proof.Machine
end

