-- ==== Sys2Proof/Machine/Ops.lean ====
section
/-! DEFINITION. The shared operations: parts of the state, records and kicks, taking a trap and returning from
one, and how a thread issues, waits, traps and retires (chapter The thread and its core). -/

namespace Sys2Proof

/-! ## Coordinates (R14 to R17) -/

/-- Octet row and column on the die (R14). -/
def OctName.row (o : OctName) : Nat := 6 * (o.cl.val % 4 / 2) + o.oct.val / 4
def OctName.col (o : OctName) : Nat := 4 * (o.cl.val % 2) + o.oct.val % 4

/-- The coordinate (row, column) of a core on its die (R14, R17). -/
def CoreName.coord : CoreName → Nat × Nat
  | .compute o x => (2 * o.row + x.val / 4, 4 * o.col + x.val % 4)
  | .transfer o => (2 * o.row, 4 * o.col)
  | .control cl => (12 * (cl.val % 4 / 2), 16 * (cl.val % 2))
  | .memory _ _ => (0, 0)
  | .management => (0, 0)

/-- COORD (R17). -/
def CoreName.coordWord (c : CoreName) : Nat :=
  c.coord.2 + c.coord.1 * 2 ^ 8 + c.die * 2 ^ 16 +
    (match c with | .memory s p => s.val * 2 ^ 20 + p.val * 2 ^ 24 | _ => 0)

/-- The cluster whose control core serves a core (R114, R347): its own cluster, else that of R428. -/
def CoreName.servedBy : CoreName → Fin 16
  | .compute o _ => o.cl
  | .transfer o => o.cl
  | .control cl => cl
  | .memory s _ => Fin.ofNat 16 (4 * (s.val / 3) + s.val % 3)
  | .management => 0

/-- The station a core's extended addresses are translated at (R265). -/
def CoreName.station : CoreName → Nat
  | .memory s _ => s.val
  | _ => 0

/-- The station the microcode of a cluster's octets uses (R479). -/
def clusterStation (cl : Fin 16) : Nat := 3 * (cl.val / 4) + cl.val % 4 % 3

/-- The yarn position of an octet index (R124): the order is 0, 1, 2, 3, 7, 6, 5, 4. -/
def yarnPos (x : Fin 8) : Nat := if x.val < 4 then x.val else 11 - x.val

/-- The octet index at a yarn position. -/
def yarnAt (p : Nat) : Fin 8 := if p < 4 then Fin.ofNat 8 p else Fin.ofNat 8 (11 - p)

/-- The core at a yarn position of a core's octet. -/
def CoreName.yarn (c : CoreName) (p : Nat) : CoreName :=
  match c with
  | .compute o _ => .compute o (yarnAt p)
  | _ => c

end Sys2Proof

namespace Sys2Proof.Machine

/-! ## Trap causes (R110) -/

namespace Cause
abbrev illegalInstr : BitVec 8 := 0x01
abbrev privilege : BitVec 8 := 0x02
abbrev fetchBoundary : BitVec 8 := 0x03
abbrev misaligned : BitVec 8 := 0x04
abbrev localRange : BitVec 8 := 0x05
abbrev eccUncorrectable : BitVec 8 := 0x06
abbrev streamFault : BitVec 8 := 0x07
abbrev queueProtocol : BitVec 8 := 0x08
abbrev stackOverflow : BitVec 8 := 0x09
abbrev stackUnderflow : BitVec 8 := 0x0A
abbrev gangDiverge : BitVec 8 := 0x0B
abbrev checkMismatch : BitVec 8 := 0x0C
abbrev tagMismatch : BitVec 8 := 0x11
abbrev handleUnconf : BitVec 8 := 0x12
abbrev handleRange : BitVec 8 := 0x13
abbrev scaleGen : BitVec 8 := 0x14
abbrev adapterTable : BitVec 8 := 0x16
abbrev pageFault : BitVec 8 := 0x18
abbrev accessRights : BitVec 8 := 0x19
abbrev poison : BitVec 8 := 0x1A
abbrev channelOverflow : BitVec 8 := 0x1C
abbrev overlap : BitVec 8 := 0x1D
abbrev syncProtocol : BitVec 8 := 0x1E
abbrev barrierShape : BitVec 8 := 0x1F
abbrev workProtocol : BitVec 8 := 0x21
abbrev brk : BitVec 8 := 0x22
abbrev hintMisuse : BitVec 8 := 0x23
end Cause

/-! ## Parts of the state -/

def State.core (s : State) (c : CoreName) : Core := Tbl.get Core.init s.cores c.index
def State.setCore (s : State) (c : CoreName) (k : Core) : State :=
  { s with cores := Tbl.set Core.init s.cores c.index k }
def State.updCore (s : State) (c : CoreName) (f : Core → Core) : State := s.setCore c (f (s.core c))

/-- A core's thread. -/
def Core.th (k : Core) : Thread → ThreadState
  | .a => k.a
  | .x => k.x
def Core.setTh (k : Core) (t : Thread) (h : ThreadState) : Core :=
  match t with
  | .a => { k with a := h }
  | .x => { k with x := h }
def State.th (s : State) (c : CoreName) (t : Thread) : ThreadState := (s.core c).th t
def State.updTh (s : State) (c : CoreName) (t : Thread) (f : ThreadState → ThreadState) : State :=
  s.updCore c fun k => k.setTh t (f (k.th t))

def State.octet (s : State) (o : OctName) : Octet := Tbl.get Octet.init s.octets o.index
def State.updOctet (s : State) (o : OctName) (f : Octet → Octet) : State :=
  { s with octets := Tbl.set Octet.init s.octets o.index (f (s.octet o)) }
def State.cluster (s : State) (cl : Fin 16) : Cluster := Tbl.get Cluster.init s.clusters cl.val
def State.updCluster (s : State) (cl : Fin 16) (f : Cluster → Cluster) : State :=
  { s with clusters := Tbl.set Cluster.init s.clusters cl.val (f (s.cluster cl)) }
def State.die (s : State) (d : Nat) : RangeUnit := Tbl.get RangeUnit.init s.dies d
def State.updDie (s : State) (d : Nat) (f : RangeUnit → RangeUnit) : State :=
  { s with dies := Tbl.set RangeUnit.init s.dies d (f (s.die d)) }
def State.station (s : State) (n : Nat) : Station := Tbl.get Station.init s.stations n
def State.updStation (s : State) (n : Nat) (f : Station → Station) : State :=
  { s with stations := Tbl.set Station.init s.stations n (f (s.station n)) }
def State.ctx (s : State) (c : Nat) : Context := Tbl.get Context.init s.ctxs c
def State.updCtx (s : State) (c : Nat) (f : Context → Context) : State :=
  { s with ctxs := Tbl.set Context.init s.ctxs c (f (s.ctx c)) }
def State.port (s : State) (p : PortName) : Port := Tbl.get Port.init s.ports p.index
def State.updPort (s : State) (p : PortName) (f : Port → Port) : State :=
  { s with ports := Tbl.set Port.init s.ports p.index (f (s.port p)) }

/-- A context is resident; context 0 always is (R402). -/
def State.resident (s : State) (c : Nat) : Bool := c = 0 || (s.ctx c).resident

/-- The group a core's octet belongs to. -/
def State.group? (s : State) (g : GroupKey) : Option Group := s.groups.find? fun x => x.key = g
def State.updGroup (s : State) (g : GroupKey) (f : Group → Group) : State :=
  { s with groups := s.groups.map fun x => if x.key = g then f x else x }

/-- Whether a group's rectangle holds an octet (R359). -/
def Group.holds (g : Group) (o : OctName) : Bool :=
  g.cl = o.cl && decide (g.po / 4 ≤ o.oct.val / 4 ∧ o.oct.val / 4 < g.po / 4 + g.h ∧
    g.po % 4 ≤ o.oct.val % 4 ∧ o.oct.val % 4 < g.po % 4 + g.w)

/-- The physical octets of a group in the order of its slots (R359). -/
def Group.octets (g : Group) : List OctName :=
  (List.range (g.h * g.w)).map fun i => ⟨g.cl, Fin.ofNat 24 (g.po + 4 * (i / g.w) + i % g.w)⟩

/-- The group that stands on an octet: casting or running. -/
def State.standing (s : State) (o : OctName) : Option Group :=
  s.groups.find? fun g => (g.st = .casting || g.st = .running) && g.holds o

/-- Whether an octet is part of a cast-on that has not finished (R362). -/
def State.loading (s : State) (o : OctName) : Bool := s.groups.any fun g => g.st = .casting && g.holds o

/-- The request to vacate the group a core belongs to (R405). -/
def State.vacating (s : State) (c : CoreName) : Option Vacate :=
  match c with
  | .compute o _ => (s.standing o).bind Group.vac
  | _ => none

/-- The next value the spec leaves open: the number it is drawn under. DESIGN CHOICE, entry 7. -/
def State.fresh (s : State) : Nat × State := (s.free, { s with free := s.free + 1 })

/-- Device time in nanoseconds (R446). -/
def State.nowNs (s : State) : Nat := s.time.sec.toNat * 1000000000 + s.time.ns

/-! ## Event queues (R397 to R399) -/

/-- Stores words in a core's local memory, the granules below its execute boundary left as they are (R117). DESIGN CHOICE, entry
16. -/
def State.storeAbove (s : State) (c : CoreName) (off : Nat) (ws : List Word) : State :=
  let n := ((s.core c).xb.toNat * 256 - off) / 8
  s.storeWords (localBase c + off + 8 * n) (ws.drop n)

/-- Stores one record at the tail of a cluster's ring: 32 bytes in its control core's local memory. -/
def State.storeRecord (s : State) (cl : Fin 16) (r : CRec) : State :=
  let q := s.cluster cl
  let seq := r.seq.getD q.seq
  let a := q.evBase.toNat * 64 + 32 * ((q.evHead + q.evCount) % 2 ^ q.evSzl.toNat)
  let w0 := r.obj % 2 ^ 36 + r.ctx % 2 ^ 12 * 2 ^ 36 + r.status % 2 ^ 8 * 2 ^ 48 + r.kind % 2 ^ 8 * 2 ^ 56
  let s := s.storeAbove (.control cl) a [BitVec.ofNat 64 w0, BitVec.ofNat 64 seq, r.value, r.time]
  s.updCluster cl fun q => { q with evCount := q.evCount + 1, seq := if r.seq.isSome then q.seq else q.seq + 1 }

/-- Whether the ring of a cluster takes a record (R397, R399); a stopped control core numbers none (R414). -/
def State.canStore (s : State) (cl : Fin 16) (r : CRec) : Bool :=
  let q := s.cluster cl
  q.evEn && decide (q.evCount < 2 ^ q.evSzl.toNat) && (r.seq.isSome || !q.stopped)

/-- Stores held posts in the order they were made, while there is room (R399). -/
def State.storeHeld (s : State) (cl : Fin 16) : State :=
  let step := fun (p : State × List CRec) r =>
    if p.1.canStore cl r then (p.1.storeRecord cl r, p.2) else (p.1, p.2 ++ [r])
  let p := (s.cluster cl).held.foldl step (s.updCluster cl fun q => { q with held := [] }, [])
  p.1.updCluster cl fun q => { q with held := p.2 }

/-- Puts a record behind the posts already held, stored when there is room (R399). One of another source than the cluster's own stream
is on its way first, for two of one source may arrive in either order (R25, R401); so is one that comes after accesses of its
poster. -/
def State.postRec (s : State) (cl : Fin 16) (r : CRec) : State :=
  if r.seq.isSome || r.after.isSome then s.updCluster cl fun q => { q with coming := q.coming ++ [r] }
  else (s.updCluster cl fun q => { q with held := q.held ++ [r] }).storeHeld cl

/-- Posts a record whose poster has no access outstanding (R399). -/
def State.post (s : State) (cl : Fin 16) (kind obj ctx status : Nat) (value : Word) (seq : Option Nat) : State :=
  s.postRec cl ⟨kind, obj, ctx, status, value, BitVec.ofNat 64 s.nowNs, seq, none⟩

/-- Whether a record that a core has sent is not delivered yet. -/
def State.unsent (s : State) (c : CoreName) : Bool := (s.core c).outs.any fun e => e.2.staging.any fun r => !r.mark

/-- Whether an access of a core's A-thread is not performed yet: a relaxed store, or the writes of a record it has sent (R272, R293). -/
def State.outstanding (s : State) (c : CoreName) : Bool := !(s.th c .a).relaxed.isEmpty || s.unsent c

/-- A core's thread posts a record, a release: its accesses before it come first (R292, R399). -/
def State.postBy (s : State) (c : CoreName) (t : Thread) (cl : Fin 16) (kind obj ctx status : Nat) (value : Word) (seq : Option Nat) : State :=
  s.postRec cl ⟨kind, obj, ctx, status, value, BitVec.ofNat 64 s.nowNs, seq, if t = .a ∧ s.outstanding c = true then some c else none⟩

/-- Whether what comes before a record is performed. -/
def State.due (s : State) (r : CRec) : Bool := r.after.all fun c => !s.outstanding c

/-- One of the records on their way to a cluster reaches it, an open choice which (R25). DESIGN CHOICE, entry 22. -/
def State.takeComing (s : State) (cl : Fin 16) : State :=
  let l := (s.cluster cl).coming.filter s.due
  let k := s.fresh
  match l[(Config.freeWord k.1).toNat % l.length]? with
  | none => s
  | some r => k.2.updCluster cl fun q => { q with held := q.held ++ [r], coming := q.coming.erase r }

/-! ## Kicks (R347) -/

/-- The island a core stands in, by its number in the order of R21; control cores and the management core stand in islands that
no step stops. -/
def islandOfCore : CoreName → Option Nat
  | .compute o _ => some (2 * o.index)
  | .transfer o => some (2 * o.index)
  | .memory s c => some (768 + 16 * s.val + c.val)
  | _ => none

/-- Whether a core's island runs (R21, R464). -/
def State.coreRuns (s : State) (c : CoreName) : Bool :=
  match islandOfCore c with
  | some n => Tbl.get false s.life.islands n
  | none => true

/-- The firmware image the device runs (R458). -/
def State.image? (s : State) : Option Image := s.life.image

/-- A thread as it starts (R90, R96): the trap vector and the stack bounds are the launch's. DESIGN CHOICE, entry 17: an engine's thread
keeps those of its last run under the same context, and WCHAN and WKICK with them. -/
def ThreadState.start (h : ThreadState) (p : Priv) (pc : Nat) : ThreadState :=
  { ThreadState.init with
      st := .run, priv := p, pc := pc, tvec := h.tvec, ssp := h.ssp, sslo := h.sslo, sshi := h.sshi,
      wchan := h.wchan, wkick := h.wkick }

/-- A core whose threads start: registers zero, tables zero, no repetition (R90, R189, R194, R280, R302, R339). -/
def Core.start (k : Core) (p : Priv) (x : Bool) (xpc : Nat) : Core :=
  { k with
      a := k.a.start p 0, x := if x then k.x.start .user xpc else k.x, g := [], f := [], v := [], p := [],
      fcsr := 0, rpt := Core.init.rpt, rptBody := [], slots := [], hs := [], ppe := [], axq := [], xaq := [], xaqTags := [],
      ps := [], psTag := [], tickets := 0, xfers := k.xfers.map fun x => { x with past := true }, ended := [],
      round := 0, marked := false, hold := none, gang := Gang.init, edgeStop := false }

/-- The shipped program of an engine core, as far as it lies below its execute boundary, and that boundary; an octet whose owner has
stayed since an update keeps its microcode (R459, R461). DESIGN CHOICE, entry 17. -/
def State.loadEngine (s : State) (c : CoreName) : State :=
  match s.image? with
  | none => s
  | some im =>
    let code := match c with
      | .transfer o => (s.octet o).oldMicro.getD im.xfer
      | _ => im.memory
    ((s.writeBytes (localBase c) (code.bytes.take (256 * code.xb))).updCore c fun k => { k with xb := BitVec.ofNat 9 code.xb })

/-- The X-thread's entry of an engine core. -/
def State.engineX (s : State) (c : CoreName) : Nat :=
  match s.image? with
  | none => 0
  | some im => if c.kind = .memory then im.memory.xEntry else 0

/-- A core with nothing left of a group or of a context in it, but for transfers that are still to end (R312). -/
def Core.vacant (k : Core) : Core := { Core.init with islandStart := k.islandStart, xfers := k.xfers, xferNo := k.xferNo }

/-- An engine core passes to a context: another one finds nothing of the last one's there (R26, R27, R402). DEDUCED, entry 17. -/
def State.handEngine (s : State) (c : CoreName) (ctx : BitVec 12) : State :=
  if (s.core c).ctxid = ctx then s
  else (s.wipe (localBase c) (2 ^ 16)).updCore c fun k => { k.vacant with ctxid := ctx }

/-- The context an engine core that is kicked starts under: a transfer core its octet's owner's, a memory core the kicker's. -/
def State.engineCtx (s : State) (c : CoreName) (ctx : BitVec 12) : BitVec 12 :=
  match c with
  | .transfer o => BitVec.ofNat 12 (s.octet o).owner
  | _ => ctx

/-- A RING: the kick word gains bits, WKICK is latched, and a transfer or memory core that is OFF starts: a transfer
core under its octet's owner, a memory core under the context of the kicker (R96, R347, R357); `src` is the cluster of the
core that issued it. DEDUCED, entry 16. DESIGN CHOICE, entry 17. -/
def State.ring (s : State) (c : CoreName) (v : Word) (src : Option (Fin 16)) (ctx : BitVec 12) : State :=
  let idle := (c.kind = .transfer || c.kind = .memory) && (s.th c .a).st = .off
  let s := if idle then s.handEngine c (s.engineCtx c ctx) else s
  let s := s.updCore c fun k => { k with kick := k.kick ||| v, a := { k.a with wkick := true } }
  if idle && s.coreRuns c then
    let s := s.loadEngine c
    let x := s.engineX c
    s.updCore c fun k => { k.start .user c.hasX x with kickCl := src }
  else s

/-! ## Taking a trap (R109 to R116) -/

/-- The address a trap reports: the instruction's, or its HINT's (R47). -/
def ThreadState.pcOf (h : ThreadState) : Nat := if h.hint.isSome then h.pc - 4 else h.pc

/-- The four trap registers of R111. -/
def ThreadState.trapRegs (h : ThreadState) (p : Nat) (cause : BitVec 8) (tval : Word) : ThreadState :=
  { h with
      tpc := BitVec.ofNat 15 (p / 4), tcause := cause, tval := tval, ppriv := h.priv, hint := none,
      wreason := .none, pend := .none, mx := .none, since := none }

/-- The entry a trap goes to (R111). -/
def ThreadState.entry (h : ThreadState) (cause : BitVec 8) : Nat :=
  h.tvec.toNat * 64 + (if cause = Cause.fetchBoundary then 0x40 else 0)

/-- What a trap of one of its threads does to a core's gang (R127, R128): a follower leaves it, with the leader's count unchanged and
words still passing; a leader's instruction that traps is no longer one that waits. -/
def State.leaveGang (s : State) (c : CoreName) (t : Thread) : State :=
  let g := (s.core c).gang
  if g.follower && !g.compare then s.updCore c fun k => { k with gang := Gang.init }
  else if g.sent && t = .a then s.updCore c fun k => { k with gang := { k.gang with sent := false } }
  else s

/-- Object id and word 2 of a TRAP_ESCALATED record (R114). -/
def escalationRecord (s : State) (c : CoreName) (t : Thread) (nested : Bool) (p : Nat) (cause : BitVec 8) : Nat × Word :=
  let obj := match c with
    | .compute _ _ => (s.core c).groupid.toNat
    | .transfer o => 0x800000000 + o.oct.val
    | .memory st cp => 0xC00000000 + 16 * st.val + cp.val
    | _ => 0
  let place := match c with
    | .memory st cp => st.val + 16 * cp.val
    | _ => c.coordWord % 2 ^ 16
  (obj, BitVec.ofNat 64 (cause.toNat + (if t = .x then 2 ^ 8 else 0) + (if nested then 2 ^ 9 else 0) + place * 2 ^ 16 +
    p % 2 ^ 16 * 2 ^ 32))

/-- The sequence number of a record that a core emits: a memory core counts its own, and the records of every other core belong to
the stream of the control core whose queue takes them (R24). -/
def State.ownSeq (s : State) (c : CoreName) : State × Option Nat :=
  match c with
  | .memory _ _ => ({ s with memSeq := Tbl.set 0 s.memSeq c.index (Tbl.get 0 s.memSeq c.index + 1) }, some (Tbl.get 0 s.memSeq c.index))
  | _ => (s, none)

/-- Escalation (R114): the thread stops and its cluster's event queue receives a record, a release of the thread's (R399). -/
def State.escalate (s : State) (c : CoreName) (t : Thread) (p : Nat) (cause : BitVec 8) (tval : Word) : State :=
  let h := s.th c t
  let e := escalationRecord s c t (h.priv = .handler) p cause
  let q := (s.updTh c t fun h => { h.trapRegs p cause tval with st := .stop }).ownSeq c
  q.1.postBy c t c.servedBy 7 e.1 (s.core c).ctxid.toNat 0 e.2 q.2

/-- A supervisor's second trap before its HRET stops the core (R115): the management core hears of a control
core, and the device status word shows a stopped management core. -/
def State.stopSupervisor (s : State) (c : CoreName) (t : Thread) (p : Nat) (cause : BitVec 8) (tval : Word) : State :=
  let s := s.updTh c t fun h => { h.trapRegs p cause tval with st := .stop }
  match c with
  | .control cl =>
    (s.updCluster cl fun q => { q with stopped := true }).ring .management (BitVec.ofNat 64 (2 ^ (16 + cl.val))) none 0
  | _ => { s with life := { s.life with mstop := true } }

/-- Taking a trap at address p (R111, R112, R115): the one operation every trap goes through. -/
def State.takeTrap (s : State) (c : CoreName) (t : Thread) (p : Nat) (cause : BitVec 8) (tval : Word) : State :=
  let h := s.th c t
  let s := if t = .x then s.updCore c fun k => { k with rptBody := [] } else s
  if h.priv = .supervisor then
    if h.superTrap then s.stopSupervisor c t p cause tval
    else s.updTh c t fun h => { h.trapRegs p cause tval with st := .run, pc := h.entry cause, superTrap := true }
  else
    let s := s.leaveGang c t
    if cause = Cause.checkMismatch ∨ h.priv = .handler then s.escalate c t p cause tval
    else s.updTh c t fun h => { h.trapRegs p cause tval with st := .trap, priv := .handler, pc := h.entry cause }

/-- The body of a repetition is captured again, from the address of its current word (R166). -/
def State.recapture (s : State) (c : CoreName) (pc : Nat) : State :=
  let r := (s.core c).rpt
  let base := pc - 4 * r.body.toNat
  let body := (List.range (r.len.toNat + 1)).map fun j => BitVec.ofNat 32 (s.readLE (localBase c + base + 4 * j) 4)
  s.updCore c fun k => { k with rptBody := body }

/-- The level a return goes to: PPRIV, but control cores and the management core run at supervisor level at all times (R98). -/
def returnPriv (c : CoreName) (h : ThreadState) : Priv :=
  if c.kind = .control ∨ c.kind = .management then .supervisor else h.ppriv

/-- The return from a trap (R113, R115). The repetition is recaptured where RPTSTAT is active (R166). -/
def State.hret (s : State) (c : CoreName) (t : Thread) : State :=
  let k := s.core c
  let h := k.th t
  let pc := h.tpc.toNat * 4
  let s := s.updTh c t fun h =>
    { h with
        pc := pc, priv := returnPriv c h, st := .run,
        superTrap := false, hint := none, wreason := .none, pend := .none, mx := .none,
        since := none }
  if t = .x ∧ k.rpt.active = true then s.recapture c pc else s

/-! ## Issuing an instruction -/

/-- How an instruction stops short of retiring: a trap or a wait, with the part of its work that stands, as a
change to the state at issue. -/
inductive Stop where
  | trap (cause : BitVec 8) (tval : Word) (edit : State → State)
  | wait (r : WReason) (edit : State → State)

/-- Where a retired instruction leaves the thread: at the next word, at a target, where the meaning put it, at
the next word with a HINT pending (R43), or at a BREAK trap after the next word's address is due (R137). -/
inductive Next where
  | seq
  | to (pc : Nat)
  | done
  | hinted (h : Hint)
  | brk (tval : Word)
  deriving DecidableEq, Repr

/-- The effect of an instruction: a statement takes effect only when the instruction retires (R8), so a trap or
a wait drops the state built so far unless it names one to keep. -/
abbrev M := StateT State (Except Stop)

/-- Ending with a trap after a change to the state at issue. -/
def trapWith {α : Type} (cause : BitVec 8) (tval : Word) (edit : State → State) : M α :=
  fun _ => .error (.trap cause tval edit)

/-- Ending with a trap (R109). -/
def trap {α : Type} (cause : BitVec 8) (tval : Word) : M α := trapWith cause tval id

/-- What stays of an instruction that traps: the address it formed, the poison it found, what the stations and the sector caches
hold and what was asked of the world outside; a trap changes nothing else (R109, R274, R423). -/
def State.keep (s0 s : State) : State :=
  { s0 with ea := s.ea, marks := s.marks, stations := s.stations, sectors := s.sectors, free := s.free }

/-- Ending with a trap that keeps no more than that. -/
def trapKeep {α : Type} (cause : BitVec 8) (tval : Word) : M α := fun s => .error (.trap cause tval fun s0 => s0.keep s)

/-- Ending with a trap that keeps every change made so far. -/
def trapAll {α : Type} (cause : BitVec 8) (tval : Word) : M α := fun s => .error (.trap cause tval fun _ => s)

/-- Not retiring, after a change to the state at issue. DEDUCED, entry 9. -/
def waitWith {α : Type} (r : WReason) (edit : State → State) : M α := fun _ => .error (.wait r edit)

/-- Not retiring for a reason of R97. -/
def wait {α : Type} (r : WReason) : M α := waitWith r id

/-- Not retiring, with the changes made so far kept. -/
def waitKeep {α : Type} (r : WReason) : M α := fun s => .error (.wait r fun _ => s)

/-- Reading something of the state. -/
def ask {α : Type} (f : State → α) : M α := fun s => .ok (f s, s)

/-- Changing the state. -/
def act (f : State → State) : M Unit := fun s => .ok ((), f s)

/-- The issuing core, its thread, and changes to them. -/
def myCore : M Core := ask fun s => s.core s.cur
def myThread : M ThreadState := ask fun s => s.th s.cur s.thr
def updMy (f : Core → Core) : M Unit := act fun s => s.updCore s.cur f
def updMyTh (f : ThreadState → ThreadState) : M Unit := act fun s => s.updTh s.cur s.thr f

/-- Recording what a waiting instruction waits for, and waiting. -/
def waitAs {α : Type} (r : WReason) (p : Pend) : M α :=
  waitWith r fun s => s.updTh s.cur s.thr fun h => { h with pend := p }

/-- Which threads and kinds of core may issue an instruction (R37, R38). -/
structure Who where
  a : Bool
  x : Bool
  kinds : List Kind
  deriving DecidableEq, Repr

/-- The hints an instruction accepts (R45): IMM, and a mask of modifiers (bit 0 SAT, 1 NT, 2 RELAXED, 3 NOFAULT). -/
structure Hints where
  imm : Bool
  mods : BitVec 4
  deriving DecidableEq, Repr

/-- Every kind of core. -/
def allKinds : List Kind := [.compute, .transfer, .control, .memory, .management]

/-- Whether a pending HINT is accepted (R45, R46). -/
def Hints.accepts (ok : Hints) : Option Hint → Bool
  | none => true
  | some (.imm _) => ok.imm
  | some (.mod m) => m &&& ~~~ok.mods = 0
  | some (.brx _) => true

/-- The pending HINT's modifier bit. -/
def modBit (n : Nat) : M Bool := do
  let h ← myThread
  return match h.hint with
    | some (.mod m) => m.getLsbD n
    | _ => false

/-- The SAT hint. -/
def satHint : M Bool := modBit 0

/-- An immediate of width w, sign-extended or widened by a HINT of kind IMM (R44). -/
def immediate (w : Nat) (f : Nat) : M Int := do
  let h ← myThread
  return match h.hint with
    | some (.imm d) => sext 22 d.toNat * 2 ^ w + (f : Int)
    | _ => sext w f

/-- The address of the issuing instruction. -/
def myPc : M Nat := do return (← myThread).pc

/-- The next address of a branch or jump: one outside 0 to 0x1_0000 traps before anything is written (R118). -/
def jumpTo (target : Int) : M Next :=
  if target < 0 ∨ 0x10000 < target then trap Cause.fetchBoundary (int64 target) else pure (.to target.toNat)

/-- The two threads of a core wait on each other at control queues (R94): both queue operations stay blocked. -/
def Core.queueBlocked (k : Core) : Thread → Bool
  | .a => k.a.wreason = .queue && ((k.a.pend = .take && k.xaq.isEmpty) || (k.a.pend = .put && k.axq.length = 8))
  | .x => k.x.wreason = .queue && ((k.x.pend = .take && k.axq.isEmpty) || (k.x.pend = .put && k.xaq.length = 8))

/-- A STREAM wait that only the other thread can complete (R156). -/
def Core.streamBlocked (k : Core) (t : Thread) : Bool :=
  let slot := fun n : Fin 4 => Tbl.get Slot.init k.slots n.val
  (k.th t).wreason = .stream &&
    match (k.th t).pend with
    | .pop n => (slot n).queue.isEmpty && ((slot n).state = .idle || (slot n).cur.own.manual)
    | .push n => (slot n).queue.isEmpty && (slot n).state = .idle
    | .stq n => (slot n).store.isEmpty
    | .sen n => (slot n).pending.isSome && k.x.pend != .pop n
    | _ => false

/-- A thread that runs or waits, and so can be blocked (R95). -/
def ThreadState.live (h : ThreadState) : Bool := h.st = .wait || (h.st = .trap && h.wreason != .none)

/-- Two threads each blocked on the other trap, each at its waiting instruction (R94, R156). -/
def State.deadlock (s : State) (c : CoreName) : State :=
  let k := s.core c
  if k.a.live && k.x.live then
    if k.queueBlocked .a && k.queueBlocked .x then
      (s.takeTrap c .a k.a.pcOf Cause.queueProtocol 1).takeTrap c .x k.x.pcOf Cause.queueProtocol 1
    else if (k.queueBlocked .a || k.streamBlocked .a) && (k.queueBlocked .x || k.streamBlocked .x) then
      (s.takeTrap c .a k.a.pcOf Cause.queueProtocol 10).takeTrap c .x k.x.pcOf Cause.queueProtocol 10
    else s
  else s

/-- The current thread waits (R96, R97): the waiting instruction has not retired. -/
def State.waitFor (s : State) (r : WReason) : State :=
  (s.updTh s.cur s.thr fun h =>
    { h with
        st := if h.st = .run then .wait else h.st, wreason := r,
        since := some (h.since.getD s.cycle) }).deadlock s.cur

/-- The next body word of a repetition, or its end (R165). -/
def Core.rptNext (k : Core) : Core :=
  let r := k.rpt
  if r.body < r.len then { k with rpt := { r with body := r.body + 1 }, x := { k.x with pc := k.x.pc + 4 } }
  else if r.iter.toNat + 1 < r.count.toNat then
    { k with rpt := { r with body := 0, iter := r.iter + 1 }, x := { k.x with pc := k.x.pc - 4 * r.len.toNat } }
  else { k with rpt := { r with active := false }, rptBody := [], x := { k.x with pc := k.x.pc + 4 } }

/-- Where a HINT leaves its thread: before the next word, with a repetition in whose body it stands not moved on unless it was
the body's last word, since the HINT and its consumer are one instruction (R46, R47, R165). -/
def Core.hinted (k : Core) (t : Thread) : Core :=
  let r := k.rpt
  if t = .x ∧ k.rptBody ≠ [] ∧ r.body = r.len ∧ r.count.toNat ≤ r.iter.toNat + 1 then k.rptNext
  else k.setTh t { k.th t with pc := (k.th t).pc + 4 }

/-- The thread's next address once its instruction has retired. -/
def State.advance (s : State) (n : Next) : State :=
  match n with
  | .seq =>
    if s.thr = .x ∧ (s.core s.cur).rptBody ≠ [] then s.updCore s.cur Core.rptNext
    else s.updTh s.cur s.thr fun h => { h with pc := h.pc + 4 }
  | .to p => s.updTh s.cur s.thr fun h => { h with pc := p }
  | .done => s
  | .hinted _ => s.updCore s.cur fun k => k.hinted s.thr
  | .brk _ => s.updTh s.cur s.thr fun h => { h with pc := h.pc + 4 }

/-- What follows retirement: a HINT stands pending, a TRAP traps. -/
def State.afterwards (s : State) (n : Next) : State :=
  match n with
  | .hinted h => s.updTh s.cur s.thr fun t => { t with hint := some h }
  | .brk v => s.takeTrap s.cur s.thr (s.th s.cur s.thr).pc Cause.brk v
  | _ => s

/-- A retired instruction leaves no wait reason and no pending HINT (R43, R96). -/
def ThreadState.retired (h : ThreadState) : ThreadState :=
  { h with st := if h.st = .wait then .run else h.st, wreason := .none, pend := .none, mx := .none, since := none, hint := none }

/-- The followers of a leader, with their hops (R124). -/
def State.followers (s : State) (c : CoreName) : List (CoreName × Nat) :=
  match c with
  | .compute _ x =>
    ((List.range (s.core c).gang.nfol.val).map fun i => (c.yarn (yarnPos x + i + 1), i + 1)).filter fun f =>
      let g := (s.core f.1).gang
      g.follower && !g.compare && g.leader = x
  | _ => []

/-- Words passed on to a leader's followers (R126). -/
def State.forward (s : State) (fs : List (CoreName × Nat)) (ws : List (BitVec 32 × Nat × Nat)) : State :=
  fs.foldl (fun t f => t.updCore f.1 fun k =>
    if k.gang.follower then { k with gang := { k.gang with buf := k.gang.buf ++ ws } } else k) s

/-- Whether a core is the leader of a gang that forwards (R125, R126). -/
def State.leads (s : State) : Bool :=
  s.thr = .a && (s.core s.cur).gang.active && !(s.core s.cur).gang.follower && !(s.core s.cur).gang.compare &&
    (s.th s.cur .a).priv = .user

/-- Whether the current thread issues forwarded words (R125). -/
def State.follows (s : State) : Bool :=
  s.thr = .a && (s.core s.cur).gang.follower && !(s.core s.cur).gang.compare && (s.th s.cur .a).pend != .gang

/-- The word of a HINT (R42). -/
def Hint.word : Hint → BitVec 32
  | .imm d => BitVec.ofNat 32 (0x04000000 + d.toNat)
  | .mod m => BitVec.ofNat 32 (0x04400000 + m.toNat)
  | .brx b => BitVec.ofNat 32 (0x04800000 + b.toNat)

/-- The words that go over the yarn with the current instruction: the HINT before it too, since the two behave as one
instruction (R47, R48); `next` is the leader's next address after it. -/
def State.issuedWords (s : State) (next : Nat) : List (BitVec 32 × Nat × Nat) :=
  let h := s.th s.cur .a
  match h.hint with
  | some i => [(i.word, h.pc - 4, h.pc), (s.ir, h.pc, next)]
  | none => [(s.ir, h.pc, next)]

/-- A leader forwards the instruction it issues at `s0`, once (R125, R126); its later state is `s`. DEDUCED, entry 12. -/
def State.sendWord (s0 s : State) (next : Nat) : State :=
  if s0.leads && !(s0.core s0.cur).gang.sent then s.forward (s0.followers s0.cur) (s0.issuedWords next) else s

/-- An instruction that waits has issued: its leader forwards it now and not again when it retires (R125, R126). -/
def State.sendWaiting (s0 s : State) : State :=
  if s0.leads && !(s0.core s0.cur).gang.sent then
    (s0.sendWord s ((s0.th s0.cur .a).pc + 4)).updCore s0.cur fun k => { k with gang := { k.gang with sent := true } }
  else s

/-- A leader's instruction has retired: what it issues next is forwarded again. -/
def State.sendRetired (s0 s : State) : State :=
  let t := s0.sendWord s (s.th s0.cur .a).pc
  if (s0.core s0.cur).gang.sent then t.updCore s0.cur fun k => { k with gang := { k.gang with sent := false } } else t

/-- The current instruction traps at its address or its HINT's (R47), forwarded like any other (R48, R125). -/
def State.trapIssued (s0 s : State) (cause : BitVec 8) (tval : Word) : State :=
  (s0.sendWord s ((s0.th s0.cur .a).pc + 4)).takeTrap s0.cur s0.thr (s0.th s0.cur s0.thr).pcOf cause tval

/-- Keeping the sticky flags that an instruction has just changed, with the cycle in which they changed; a value
older than 16 cycles is kept only where no other has taken its place by then (R107). -/
def Core.noteFlags (k : Core) (now : Nat) (old : BitVec 5) : Core :=
  let new : BitVec 5 := k.fcsr.setWidth 5
  if new = old then k
  else
    let log := (if k.flagLog.isEmpty then [(0, old)] else k.flagLog) ++ [(now, new)]
    { k with flagLog := log.drop ((log.filter fun e => decide (e.1 + 16 ≤ now)).length - 1) }

/-- The sticky flags of a core as they stood 16 cycles ago (R107). -/
def Core.flagsSeen (k : Core) (now : Nat) : BitVec 5 :=
  match (k.flagLog.filter fun e => decide (e.1 + 16 ≤ now)).getLast? with
  | some e => e.2
  | none => if k.flagLog.isEmpty then k.fcsr.setWidth 5 else 0

/-- A HINT and nothing else. -/
def Next.isHint : Next → Bool
  | .hinted _ => true
  | _ => false

/-- Retirement: the program counter moves, the wait ends, a leader forwards, and a follower compares its next
address with the leader's (R86, R96, R126, R127). DESIGN CHOICE, entry 12: a jump out of range or misaligned traps as such before
its address is compared. -/
def State.retire (s0 s : State) (n : Next) : State :=
  let c := s0.cur
  let s1 := (((s.advance n).updTh c s0.thr ThreadState.retired).updCore c fun k =>
    k.noteFlags s0.cycle ((s0.core c).fcsr.setWidth 5))
  if s0.leads && !n.isHint then (s0.sendRetired s1).afterwards n
  else if s0.follows then
    match (s0.core c).gang.buf with
    | [] => s1.afterwards n
    | w :: ws =>
      let own := (s1.th c .a).pc
      if n ≠ .done ∧ own ≠ w.2.2 then (s0.takeTrap c .a (s0.th c .a).pcOf Cause.gangDiverge (BitVec.ofNat 64 own))
      else if (s1.core c).gang.follower then
        (s1.updCore c fun k => { k with gang := { k.gang with buf := ws } }).afterwards n
      else s1.afterwards n
  else s1.afterwards n

/-- What comes of an effect: retirement, a trap or a wait. -/
def State.settle (s0 : State) : Except Stop (Next × State) → State
  | .ok (n, s) => s0.retire s n
  | .error (.trap cause tval edit) => s0.trapIssued (edit s0) cause tval
  | .error (.wait r edit) => (s0.sendWaiting (edit s0)).waitFor r

/-- Whether the words a leader has forwarded leave no room for those of its next instruction (R126). DEDUCED, entry 12. -/
def State.yarnFull (s : State) : Bool :=
  s.leads && !(s.core s.cur).gang.sent &&
    (s.followers s.cur).any fun f => decide (8 * f.2 < (s.core f.1).gang.buf.length + (s.issuedWords 0).length)

/-- An instruction that stands in the body of a repetition behind a HINT of that body (R46). -/
def State.hintedBody (s : State) : Bool := s.thr = .x && !(s.core s.cur).rptBody.isEmpty && (s.th s.cur .x).hint.isSome

/-- The thread class and the kind of core allow the instruction (R40). -/
def Who.legal (who : Who) (s : State) : Bool :=
  (match s.thr with | .a => who.a | .x => who.x) && who.kinds.contains s.cur.kind

/-- The checks before an entry's own (R41): class and kind, the HINT, privilege; then the effect. -/
def State.issuePlain (s : State) (legal : State → Bool) (ok : Hints) (need : Priv) (body : M Next) : State :=
  let h := s.th s.cur s.thr
  let w : Word := s.ir.setWidth 64
  if s.yarnFull then s.waitFor .gang
  else if !legal s then s.trapIssued s Cause.illegalInstr w
  else if !ok.accepts h.hint ∨ s.hintedBody = true then s.trapIssued s Cause.hintMisuse w
  else if need = .handler ∧ h.priv = .user then s.trapIssued s Cause.privilege w
  else s.settle (body s)

/-! ## Checked pairs (R416) -/

/-- The follower of a checked pair's leader. -/
def State.pairOf (s : State) (c : CoreName) : Option CoreName :=
  match c with
  | .compute o x =>
    let g := (s.core c).gang
    if g.compare && !g.follower then some (.compute o (Fin.ofNat 8 (x.val + 1))) else none
  | _ => none
def State.pairFollower? (s : State) : Option CoreName := s.pairOf s.cur

/-- Whether a core is the follower of a checked pair. -/
def Core.pairFollows (k : Core) : Bool := k.gang.compare && k.gang.follower

/-- The bytes of a core's local memory. -/
def State.localCells (s : State) (c : CoreName) : List Host.Cell :=
  s.mem.filter fun m => decide (localBase c ≤ m.1 ∧ m.1 < localBase c + 65536)

/-- A core's local memory replaced by the bytes of another's. -/
def State.setLocal (s : State) (c : CoreName) (from_ : CoreName) (cells : List Host.Cell) : State :=
  let rest := s.mem.filter fun m => !decide (localBase c ≤ m.1 ∧ m.1 < localBase c + 65536)
  { s with mem := cells.foldl (fun t m => Tbl.set 0 t (m.1 - localBase from_ + localBase c) m.2) rest }

/-- A follower of a checked pair with its own registers, streams and control queues, and everything else its leader's: the CSRs that it
reads as its leader's, the place of its threads, its channels, barriers, holds and replies (R416). -/
def Core.twin (own lead : Core) : Core :=
  { lead with
      g := own.g, f := own.f, v := own.v, p := own.p, rptBody := own.rptBody, slots := own.slots, hs := own.hs, ppe := own.ppe,
      axq := own.axq, xaq := own.xaq, xaqTags := own.xaqTags, flagLog := own.flagLog,
      gang := { own.gang with follower := true, compare := true, pos := lead.gang.pos } }

/-- A barrier register of the follower after its leader's went from `b` to `b'`: it arrives and takes releases with it where the shape
holds the follower too, and stays out of a rectangle that does not (R349, R352, R416). -/
def Bar.mirror (own b b' : Bar) (inside : Bool) : Bar :=
  if b' = b then own
  else if inside then { own with st := b'.st, shape := b'.shape, gen := b'.gen, owner := b'.owner, sw := b'.sw, forwarded := false }
  else { own with st := .unconf, sw := false }

/-- Whether a barrier shape holds a core's cell of its group's logical grid (R349). -/
def Core.inShape (k : Core) (x : Fin 8) (w : BitVec 16) : Bool :=
  let r := 2 * k.orow + x.val / 4
  let c := 4 * k.ocol + x.val % 4
  decide (bits w.toNat 0 4 ≤ r ∧ r ≤ bits w.toNat 0 4 + bits w.toNat 8 4 ∧ bits w.toNat 4 4 ≤ c ∧ c ≤ bits w.toNat 4 4 + bits w.toNat 12 4)

/-- What a step leaves of the follower `old`, whose copy ran as `ran` beside the leader's core, which was `lead`: its registers, its
threads and the CSRs that it has written are the copy's, what only the leader performs is as it was (R416). -/
def Core.afterTwin (old lead ran : Core) (x : Fin 8) : Core :=
  { old with
      a := { ran.a with relaxed := [] }, x := ran.x, g := ran.g, f := ran.f, v := ran.v, p := ran.p, fcsr := ran.fcsr, rpt := ran.rpt,
      rptBody := ran.rptBody, slots := ran.slots, hs := ran.hs, ppe := ran.ppe, axq := ran.axq, xaq := ran.xaq, xaqTags := ran.xaqTags,
      flagLog := ran.flagLog, xb := ran.xb, mgen := ran.mgen, adtbase := ran.adtbase, edgeStop := ran.edgeStop,
      bars := (List.range 4).foldl (fun t i => Tbl.set Bar.init t i
        ((Tbl.get Bar.init old.bars i).mirror (Tbl.get Bar.init lead.bars i) (Tbl.get Bar.init ran.bars i)
          (old.inShape x (Tbl.get Bar.init ran.bars i).shape))) old.bars }

/-- A core without its registers and without the CSRs that an instruction writes: the rest is what a checked pair compares. -/
def ThreadState.bare (h : ThreadState) : ThreadState :=
  { h with
      conv := 0, convv := 0, dead := 0, deadv := 0, ssp := 0, sslo := 0, sshi := 0, tvec := 0, tpc := 0, tcause := 0, tval := 0,
      strstat := ThreadState.init.strstat }
def Core.bare (k : Core) : Core :=
  { Core.init.twin k with
      a := k.a.bare, x := k.x.bare, fcsr := 0, rpt := Core.init.rpt, mgen := 0, adtbase := 0, gang := Gang.init }

/-- What a step of a core changed outside its registers and its local memory: the accesses that a checked pair's mesh port compares
(R416), with the address the instruction formed. -/
def State.outside (s : State) (c : CoreName) : State :=
  { s.setLocal c c [] with cores := Tbl.set Core.init (Tbl.erase c.index s.cores) c.index (s.core c).bare, marks := [] }

/-- The stream elements that a step of a core has written: their addresses and values (R416). -/
def Core.performed (k k' : Core) : List (Option Elem × Option Pushed) :=
  [0, 1, 2, 3].filterMap fun n =>
    let q := Tbl.get Slot.init k.slots n
    if (Tbl.get Slot.init k'.slots n).done = q.done then none else some (q.queue.head?.map Entry.elem, q.store.head?)

/-- The bytes of its local memory that a core changed in its step from `s0` to `s1`. -/
def State.changedBytes (s0 s1 : State) (c : CoreName) : List Nat :=
  let old := s0.localCells c
  let new := s1.localCells c
  (new.filter (fun m => !old.contains m) ++ old.filter fun m => !new.contains m).map Prod.fst

/-- The bytes of its local memory that a store or an atomic names, where it has retired. -/
def State.namedBytes (s0 s1 : State) (c : CoreName) : List Nat :=
  let w := s0.ir.toNat
  let n := if bits w 26 6 = 0x11 then (if bits w 12 4 < 4 then 2 ^ bits w 12 4 else 1) else if bits w 26 6 = 0x12 then (if w.testBit 8 then 8 else 4) else 0
  if s1.ea.toNat < 65536 ∧ (s1.th c s0.thr).pc = (s0.th c s0.thr).pc + 4 then (List.range n).map fun i => localBase c + s1.ea.toNat + i else []

/-- A core's thread waits. -/
def State.waits? (s : State) (c : CoreName) (t : Thread) : Bool := (s.th c t).live

/-- The state in which the follower's copy of a step of its leader runs: the follower's registers and local memory stand where the
leader's do. -/
def State.pairCopy (s : State) (l f : CoreName) : State :=
  (s.setLocal l f (s.localCells f)).setCore l ((s.core f).twin (s.core l))

/-- The leader's step from `s` to `s1` and the copy's from `t` to `s2` agree in what they store, send and command (R416). -/
def State.pairAgrees (s s1 t s2 : State) (l : CoreName) (named : List Nat) : Bool :=
  s1.outside l = s2.outside l && (s.core l).performed (s1.core l) = (t.core l).performed (s2.core l) &&
    (s.changedBytes s1 l ++ t.changedBytes s2 l ++ named).all fun a => s1.byte a = s2.byte a

/-- The accesses of the leader's step are performed once, and the copy's in the follower's own memory and registers (R416). -/
def State.pairJoin (s s1 s2 : State) (l f : CoreName) : State :=
  (s1.setLocal f l (s2.localCells l)).setCore f ((s.core f).afterTwin (s.core l) (s2.core l)
    (match f with | .compute _ x => x | _ => 0))

/-- A mismatch: neither step is performed, and both cores trap (R416). -/
def State.pairMismatch (s : State) (l f : CoreName) (t : Thread) (tval : Word) : State :=
  let p := (s.th l t).pcOf
  (s.takeTrap l t p Cause.checkMismatch tval).takeTrap f t p Cause.checkMismatch tval

/-- A checked pair executes one word in both cores, the follower's copy beside the leader's, with the leader's CSRs and the
replies the leader has had; what they store, send and command must agree, and is performed once. Where either waits, both
do (R416). DEDUCED, entry 12. -/
def State.issuePair (s : State) (run : State → State) : State :=
  match s.pairFollower? with
  | none => run s
  | some f =>
    let l := s.cur
    let t := s.pairCopy l f
    let s1 := run s
    let s2 := run t
    if s1.waits? l s.thr ≠ s2.waits? l s.thr then
      let w := if s1.waits? l s.thr then s1 else s.waitFor (s2.th l s.thr).wreason
      w.updTh f s.thr fun h => { h with st := (w.th l s.thr).st, wreason := (w.th l s.thr).wreason }
    else if s.pairAgrees s1 t s2 l (s.namedBytes s1 l ++ t.namedBytes s2 l) then s.pairJoin s1 s2 l f
    else s.pairMismatch l f s.thr s1.ea

/-- A step of a core that no instruction makes: a checked pair makes it once, for both cores (R416). -/
def State.pairStep (s : State) (c : CoreName) (tval : Word) (run : State → State) : State :=
  if (s.core c).pairFollows then s
  else match s.pairOf c with
    | none => run s
    | some f =>
      let t := s.pairCopy c f
      let s1 := run s
      let s2 := run t
      if s.pairAgrees s1 t s2 c [] then s.pairJoin s1 s2 c f else s.pairMismatch c f .x tval

/-- Issuing an instruction: the one wrapper every instruction's meaning goes through; `legal` is what R40 asks
beyond the word itself. DEDUCED, entry 10. -/
def issueIf (legal : State → Bool) (ok : Hints) (need : Priv) (body : M Next) (s : State) :
    Host.Outcome State Fault Refusal :=
  .next (s.issuePair fun t => t.issuePlain legal ok need body)

/-- Issuing an instruction that some threads and kinds of core may issue. -/
def issue (who : Who) (ok : Hints) (need : Priv) (body : M Next) (s : State) : Host.Outcome State Fault Refusal :=
  issueIf who.legal ok need body s

/-- An effect that goes on to the next word. -/
def seq (body : M Unit) : M Next := do body; return .seq

/-- A step of the device that no instruction makes. DESIGN CHOICE, entry 4. -/
def event (f : State → State) (s : State) : Host.Outcome State Fault Refusal := .next (f s)

/-- No hint but BRX. -/
def noHint : Hints := ⟨false, 0⟩

/-- The A-thread of any kind, the X-thread of kinds C and M, both. -/
def aAll : Who := ⟨true, false, allKinds⟩
def xAll : Who := ⟨false, true, [.compute, .memory]⟩
def axAll : Who := ⟨true, true, allKinds⟩

end Sys2Proof.Machine
end

