-- ==== Sys2Proof/Machine/Translate.lean ====
section
/-! DEFINITION. Translation: the page walk, the stations' caches and fault queues (chapter The page). -/

namespace Sys2Proof.Machine

/-- The lowest VA bit of a level's index (R419); a leaf there maps 2^that bytes. -/
def levelLo (l : Nat) : Nat := [51, 42, 33, 29, 21, 16].getD l 16

/-- The index bits of a level (R419). -/
def levelBits (l : Nat) : Nat := [9, 9, 9, 4, 8, 5].getD l 5

/-- The physical address field of an entry (R420). -/
def ptePA (e : Word) : Nat := bits e.toNat 12 40 * 4096

def pteV (e : Word) : Bool := e.getLsbD 0
def pteLeaf (e : Word) : Bool := e.getLsbD 1
def pteR (e : Word) : Bool := e.getLsbD 2
def pteW (e : Word) : Bool := e.getLsbD 3
def pteTwoD (e : Word) : Bool := e.getLsbD 4
def ptePitch (e : Word) : Nat := bits e.toNat 52 12

/-- Whether a number is a power of two. -/
def isPow2 (n : Nat) : Bool := n != 0 && n &&& (n - 1) = 0

/-- A valid entry that breaks a rule of R421 or R422. -/
def malformed (l : Nat) (e : Word) : Bool :=
  bits e.toNat 5 7 != 0 ||
  (if pteLeaf e then
    l < 2 || ptePA e % 2 ^ levelLo l != 0 || (homePA (ptePA e)).isNone ||
    (8 * 2 ^ 48 ≤ ptePA e && ptePA e % 2 ^ 40 != 0) ||
    (if pteTwoD e then
      !(ptePA e < 12 * 2 ^ 36 && isPow2 (ptePitch e) && 32 * 1024 * ptePitch e ≤ 2 ^ levelLo l)
    else ptePitch e != 0)
  else
    l = 5 || pteR e || pteW e || pteTwoD e || ptePitch e != 0 || (homePA (ptePA e)).isNone)

/-- How a walk ends (R421): at a leaf, or with a code (1 NOTVALID, 2 MALFORMED, 3 NOROOT) at a level; with 4 or 5 where the entry
to be read is uncorrectable or poisoned. `at_` is where its last entry stands, `via` the table entries before it, `reads` where each
entry that it has read stands. -/
structure WalkEnd where
  level : Nat
  code : Nat
  pte : Word
  at_ : Nat
  via : List TlbLeaf
  reads : List Nat
  deriving DecidableEq, Repr

/-- Where the entry of a table that a level's index names stands: each entry by its own address (R418, R419). -/
def entryAt (table va l : Nat) : Nat :=
  let pa := table + 8 * bits va (levelLo l) (levelBits l)
  (homePA pa).getD pa

/-- A walk from a table at a level, at most `n` levels on (R419, R421). DEDUCED, entry 26. -/
def State.walkFrom (s : State) (ctx va : Nat) : Nat → Nat → Nat → WalkEnd
  | 0, l, _ => ⟨l, 2, 0, 0, [], []⟩
  | n + 1, l, table =>
    let a := entryAt table va l
    let e := s.word a
    match s.mark a with
    | .bad => ⟨l, 4, 0, a, [], [a]⟩
    | .poisoned => ⟨l, 5, 0, a, [], [a]⟩
    | .ok =>
      if !pteV e then ⟨l, 1, e, a, [], [a]⟩
      else if malformed l e then ⟨l, 2, e, a, [], [a]⟩
      else if pteLeaf e then ⟨l, 0, e, a, [], [a]⟩
      else
        let r := s.walkFrom ctx va n (l + 1) (ptePA e)
        { r with via := ⟨ctx, l, va / 2 ^ levelLo l, e⟩ :: r.via, reads := a :: r.reads }

/-- The trap cause of a walk that met a granule that is not correct (R29, R274). DESIGN CHOICE, entry 26. -/
def WalkEnd.eccCause (w : WalkEnd) : Option (BitVec 8) :=
  if w.code = 4 then some Cause.eccUncorrectable else if w.code = 5 then some Cause.poison else none

/-- The cached table entry of a level that covers an address (R423). -/
def State.cachedTable (s : State) (st ctx va l : Nat) : Option TlbLeaf :=
  (s.station st).tlb.find? fun t => t.ctx = ctx && t.level = l && t.page = va / 2 ^ levelLo l && !pteLeaf t.pte

/-- A walk at a station: from the deepest table entry it holds, else from the context's root (R419, R423). -/
def State.walk (s : State) (st ctx va : Nat) : WalkEnd :=
  match [4, 3, 2, 1, 0].filterMap (s.cachedTable st ctx va) with
  | t :: _ => s.walkFrom ctx va (5 - t.level) (t.level + 1) (ptePA t.pte)
  | [] => if (s.ctx ctx).root = 0 then ⟨0, 3, 0, 0, [], []⟩ else s.walkFrom ctx va 6 0 (s.ctx ctx).root

/-! ## Shares of the shared caches (R28, R404) -/

/-- Whether two contexts share a partition: an isolated context has its own, and every other shares what is left (R404). -/
def State.samePart (s : State) (c d : Nat) : Bool :=
  if (s.ctx c).iso || (s.ctx d).iso then c = d else true

/-- The size of a context's partition of something divided into `units`, of which isolated contexts hold `f` each (R404). -/
def State.share (s : State) (ctx units : Nat) (f : Context → Nat) : Nat :=
  if (s.ctx ctx).iso then f (s.ctx ctx) else units - ((s.ctxs.filter fun c => c.2.iso).map fun c => f c.2).sum

/-- The entries of a station's 8,192, and the sectors of a stack's 32,768, that a context's partition has (R11, R404, R423); what
the last walk found is held in any case. -/
def State.tlbShare (s : State) (ctx : Nat) : Nat := max 1 (256 * s.share ctx 32 fun c => c.tc.toNat)
def State.sectorShare (s : State) (ctx : Nat) : Nat := 1024 * s.share ctx 32 fun c => c.sc.toNat

/-- A list without its first n elements that satisfy p. -/
def dropFirst {α : Type} (p : α → Bool) : Nat → List α → List α
  | _, [] => []
  | 0, l => l
  | n + 1, x :: l => if p x then dropFirst p n l else x :: dropFirst p (n + 1) l

/-- A station's entries without the oldest ones that a context's partition has no room for (R28, R404, R423). DESIGN CHOICE,
entry 26. -/
def State.trimTlb (s : State) (ctx : Nat) (l : List TlbLeaf) : List TlbLeaf :=
  let mine := fun t : TlbLeaf => s.samePart ctx t.ctx
  dropFirst mine ((l.filter mine).length - s.tlbShare ctx) l

/-- The outcome of a translation: the home of the byte, a remote device, a fault with its code, a walk that met a granule that is
not correct, or a refusal. -/
inductive Tr where
  | home (a : Nat)
  | remote (n : Nat)
  | fault (code : Nat)
  | ecc (cause : BitVec 8)
  | rights
  | lost
  deriving DecidableEq, Repr

/-- Whether a port carries traffic (R434). -/
def Port.live (q : Port) : Bool := q.st = .up || q.st = .degraded

/-- The ports of a kind that carry requests (R442). -/
def State.usable (s : State) (k : PortKind) : List PortName :=
  ((List.range 18).map fun i => (⟨k, Fin.ofNat 18 i⟩ : PortName)).filter fun p => (s.port p).live

/-- Whether some port of a kind carries requests. -/
def State.portUp (s : State) (k : PortKind) : Bool := s.usable k != []

/-- The kind of port by which the home of a physical address is reached; none in the device's own stacks (R417, R442). -/
def portKindOf (pa : Nat) : Option PortKind :=
  if 8 * 2 ^ 48 ≤ pa then some .scaleUp else if 3 * 2 ^ 48 ≤ pa then some .umval else if 2 * 2 ^ 48 ≤ pa then some .cxl else none

/-- The port that the requests to a sector take: a fixed function of the address and of the usable ports (R442). -/
def State.portFor (s : State) (k : PortKind) (a : Nat) : Option PortName :=
  let l := s.usable k
  l[Config.portChoice l.length (a / 1024) % l.length]?

/-- The home of a physical address as a request meets it (R417, R442, R445); a request to this device itself takes no port (R441). -/
def State.homeOf (s : State) (pa : Nat) : Tr :=
  match portKindOf pa with
  | some .scaleUp =>
    let n := (pa - 8 * 2 ^ 48) / 2 ^ 40
    if n = s.life.domain || s.portUp .scaleUp then .remote n else .lost
  | some .cxl =>
    if !s.portUp .cxl then .lost
    else if (pa - 2 * 2 ^ 48) % 2 ^ 41 < Config.cxlCapacity ((pa - 2 * 2 ^ 48) / 2 ^ 41) then .home pa else .rights
  | some _ => if s.portUp .umval then .home pa else .lost
  | none => match homePA pa with
    | some a => .home a
    | none => .rights

/-- What a request to a device of the load-store domain comes to (R429, R441): a request to this device meets the walk of its own
station, which ends in a remote leaf and so is a failed service. -/
def State.askDevice (s : State) (n ctx va size : Nat) : State × Config.RemoteAns :=
  if n = s.life.domain then (s, .fault)
  else
    let k := s.fresh
    (k.2, Config.remoteAnswer k.1 n ctx va size)

/-- What a leaf gives an access (R420, R421). -/
def State.leafGives (s : State) (va : Nat) (level : Nat) (e : Word) (rd wr : Bool) : Tr :=
  if (rd && !pteR e) || (wr && !pteW e) then .rights
  else s.homeOf (ptePA e + va % 2 ^ levelLo level)

/-- The cached leaf that maps an address (R423). -/
def State.cachedLeaf (s : State) (st ctx va : Nat) : Option TlbLeaf :=
  (s.station st).tlb.find? fun t => t.ctx = ctx && t.page = va / 2 ^ levelLo t.level && pteLeaf t.pte

/-- The kick that tells the servicing core of a station's fault (R428). -/
def State.kickService (s : State) (st : Nat) : State :=
  s.ring (.control (Fin.ofNat 16 (4 * (st / 3) + st % 3))) (BitVec.ofNat 64 (2 ^ (40 + st % 3))) none 0

/-- The bit of a trapped requester in an entry's mask (R427). -/
def trapBit : CoreName → BitVec 17
  | .memory _ c => BitVec.ofNat 17 (2 ^ c.val)
  | _ => BitVec.ofNat 17 (2 ^ 16)

/-- Adds a request to the entry of its key, if the list has one. -/
def joinFault (l : List FaultEntry) (e : FaultEntry) : Option (List FaultEntry) :=
  if l.any fun f => f.ctx = e.ctx && f.key = e.key then
    some (l.map fun f => if f.ctx = e.ctx ∧ f.key = e.key then
      { f with waiting := f.waiting ++ e.waiting, mask := f.mask ||| e.mask, wr := f.wr || e.wr, trapped := f.trapped || e.trapped }
    else f)
  else none

/-- Posts or joins a fault entry (R427): with the queue full, or with others that wait for room in it, the request is kept for when room
appears. -/
def State.postFault (s : State) (st : Nat) (e : FaultEntry) : State :=
  let q := s.station st
  match joinFault q.faults e with
  | some l => s.updStation st fun q => { q with faults := l }
  | none =>
    if q.faults.length < 64 ∧ q.full = [] then (s.updStation st fun q => { q with faults := q.faults ++ [e] }).kickService st
    else match joinFault q.full e with
      | some l => s.updStation st fun q => { q with full := l }
      | none => s.updStation st fun q => { q with full := q.full ++ [e] }

/-- A page fault of a precise requester (R426, R427). -/
def State.trapFault (s : State) (c : CoreName) (ctx va code : Nat) (wr : Bool) : State :=
  s.postFault c.station ⟨ctx, va / 2 ^ 16, code, false, [], trapBit c, wr, true⟩

/-- A page fault of a request that waits for service (R426, R427). -/
def State.waitFault (s : State) (st ctx va code : Nat) (wr : Bool) (r : WaitReq) : State :=
  s.postFault st ⟨ctx, va / 2 ^ 16, code, false, [r], 0, wr, false⟩

/-- Whether a requester waits at a station: for a walk to start or for a fault's service. -/
def State.waitsAt (s : State) (st : Nat) (r : WaitReq) : Bool :=
  let q := s.station st
  (q.faults ++ q.full).any (fun f => f.waiting.contains r) || q.walks.any fun w => w.req = r

/-- The cause of which a requester's walk or its fault's service has failed (R427), and the state without that mark. -/
def State.serviceFailed (s : State) (st : Nat) (r : WaitReq) : Option (BitVec 8) :=
  ((s.station st).failed.find? fun x => x.1 = r).map (·.2)
def State.clearFailed (s : State) (st : Nat) (r : WaitReq) : State :=
  s.updStation st fun q => { q with failed := q.failed.filter fun x => x.1 != r }

/-! ## The sector caches (R296 to R299) -/

/-- The sector that holds a home address reached through a virtual address: in a 2-D page, the 32 rows of 32 bytes of
R296; anywhere else, 1,024 consecutive bytes. -/
def State.sectorKey (s : State) (st ctx va a : Nat) : Nat :=
  match s.cachedLeaf st ctx va with
  | some t =>
    if pteTwoD t.pte then
      let o := va % 2 ^ levelLo t.level
      let p := 1024 * ptePitch t.pte
      ptePA t.pte / 1024 + o / p / 32 * (p / 32) + o % p / 32
    else a / 1024
  | none => a / 1024

/-- One line access to a sector: a miss takes its orientation, and four in a row of the other kind flip it (R297,
R298). -/
def Sector.access (q : Sector) (col write : Bool) : Sector :=
  let q := if q.present then q else { q with present := true, o := col, other := 0 }
  let q := if q.o = col then { q with other := 0 }
    else if 3 ≤ q.other then { q with o := col, other := 0 }
    else { q with other := q.other + 1 }
  { q with dirty := q.dirty || write }

/-- Line accesses of one kind to a sector, one after another. -/
def Sector.accesses (q : Sector) (col write : Bool) : Nat → Sector
  | 0 => q
  | n + 1 => (q.access col write).accesses col write n

/-- The number of a context's partition of the shared caches: an isolated context has its own, and every other shares one (R404). -/
def State.partition (s : State) (ctx : Nat) : Nat := if (s.ctx ctx).iso then ctx + 1 else 0

/-- The tag of a sector in a context's partition: what a context finds present depends on its own partition alone (R28, R299). DESIGN
CHOICE, entry 27. -/
def State.sectorTag (s : State) (key ctx : Nat) : Nat := key * 2 ^ 13 + s.partition ctx

/-- A sector by its tag. -/
def State.sector (s : State) (tag : Nat) : Sector := Tbl.get Sector.init s.sectors tag
def State.updSector (s : State) (tag : Nat) (f : Sector → Sector) : State :=
  { s with sectors := Tbl.upd Sector.init s.sectors tag f }

/-- The sector of a list used longest ago. -/
def oldestSector : List (Nat × Sector) → Option (Nat × Sector)
  | [] => none
  | e :: l => match oldestSector l with
    | none => some e
    | some m => if e.2.used ≤ m.2.used then some e else some m

/-- At most n evictions from a stack, of the sectors used longest ago, until a partition holds no more than `keep` (R299,
R404). DESIGN CHOICE, entry 27. -/
def State.evict (s : State) (stack part keep : Nat) : Nat → State
  | 0 => s
  | n + 1 =>
    let l := s.sectors.filter fun e => e.1 / 2 ^ 39 = stack && e.1 % 2 ^ 13 = part && e.2.present
    if l.length ≤ keep then s
    else match oldestSector l with
      | none => s
      | some e => (s.updSector e.1 fun _ => Sector.init).evict stack part keep n

/-- Line accesses of a context to a sector of a stack (R296, R297): where the sector is not present in the context's partition it
enters there, and one of the partition makes room (R11, R299). DESIGN CHOICE, entry 27: an access whose hint is NT enters and makes
room like any other; R45, R268 and the note under R318 name its non-temporal placement and never say what it is. -/
def State.lineAccess (s : State) (key ctx : Nat) (col write : Bool) (n : Nat) : State :=
  let tag := s.sectorTag key ctx
  let q := s.sector tag
  let enter := fun (s : State) (ctx : Nat) => s.updSector tag fun q => { q.accesses col write n with ctx := ctx, used := s.cycle }
  if q.present then enter s q.ctx
  else if s.sectorShare ctx = 0 then s
  else enter (s.evict (key / 2 ^ 26) (s.partition ctx) (s.sectorShare ctx - 1) 1) ctx

/-- The row lines that n bytes of an address reach, each by its first byte of theirs (R296). -/
def rowLines (va n : Nat) : List Nat := (List.range ((va + n - 1) / 32 - va / 32 + 1)).map fun i => max va (32 * (va / 32 + i))

/-- Neighbours that are equal, counted. -/
def runLengths : List Nat → List (Nat × Nat)
  | [] => []
  | x :: l => match runLengths l with
    | (y, n) :: r => if x = y then (y, n + 1) :: r else (x, 1) :: (y, n) :: r
    | [] => [(x, 1)]

/-- The line accesses that n bytes of one page cost the sector caches of their home, each row line one; only the stacks' memory has
sectors (R296). -/
def State.touch (s : State) (st ctx va a n : Nat) (col write : Bool) : State :=
  if a < 12 * 2 ^ 36 then
    (runLengths ((rowLines va n).map fun v => s.sectorKey st ctx v (a + (v - va)))).foldl (fun s k => s.lineAccess k.1 ctx col write k.2) s
  else s

/-- Bringing a sector into the cache of its home (R271, R296). -/
def State.touchSector (s : State) (key ctx : Nat) : State :=
  if key < 12 * 2 ^ 26 then s.lineAccess key ctx false false 1 else s

/-! ## Walks (R423, R424) -/

/-- Enters what a walk read into its station's cache; nothing that ended with a code (R423). Each entry is read through the sector
cache of its home, and an uncorrectable one is poisoned (R274). DEDUCED, entry 26. -/
def State.fillTlb (s : State) (st ctx va : Nat) (w : WalkEnd) : State :=
  let leaf := if w.code = 0 then [(⟨ctx, w.level, va / 2 ^ levelLo w.level, w.pte⟩ : TlbLeaf)] else []
  let s := if w.code = 4 then s.putMark w.at_ .poisoned else s
  let s := w.reads.foldl (fun s a => s.touchSector (a / 1024) ctx) s
  s.updStation st fun q => { q with tlb := s.trimTlb ctx (q.tlb ++ w.via ++ leaf) }

/-- A walk of a page ends at a station, for every request of that page that waits for one (R424): what it read is cached, a code is a
page fault for which each of them waits (R426), and where an entry's granule is not correct each of them fails. -/
def State.walked (s : State) (st ctx va : Nat) (w : WalkEnd) : State :=
  let same := fun x : Walk => x.ctx = ctx && x.va / 2 ^ 16 = va / 2 ^ 16
  let l := (s.station st).walks.filter same
  let s := (s.fillTlb st ctx va w).updStation st fun q => { q with walks := q.walks.filter fun x => !same x }
  if w.code = 0 then s
  else match w.eccCause with
    | some cause => s.updStation st fun q => { q with failed := q.failed ++ l.map fun x => (x.req, cause) }
    | none => l.foldl (fun s x => s.waitFault st x.ctx x.va w.code x.wr x.req) s

/-- Translates one address at a station, from its cache or by a walk (R423 to R426). -/
def State.translate (s : State) (st ctx va : Nat) (rd wr : Bool) : State × Tr :=
  if !s.resident ctx then (s, .rights)
  else match s.cachedLeaf st ctx va with
    | some t => (s, s.leafGives va t.level t.pte rd wr)
    | none =>
      let w := s.walk st ctx va
      let s' := s.walked st ctx va w
      if w.code = 0 then (s', s'.leafGives va w.level w.pte rd wr)
      else match w.eccCause with
        | some cause => (s', .ecc cause)
        | none => (s', .fault w.code)

end Sys2Proof.Machine
end

