-- ==== Sys2Proof/Machine/Operands.lean ====
section
/-! DEFINITION. Operand forms: registers with their stream aliases, near and extended addresses, and the reads
and writes of memory that instructions make (chapters The stream and The region and the sync object). -/

namespace Sys2Proof.Machine

/-! ## Registers (R89 to R91, R121) -/

/-- g[n]: g0 reads zero; a dead register holds zero. -/
def Core.gr (k : Core) (n : Nat) : Word := if n = 0 then 0 else Tbl.get 0 k.g n

/-- Writing g[n]: g0 discards; the register becomes live. -/
def Core.setG (k : Core) (n : Nat) (w : Word) : Core :=
  if n = 0 then k
  else { k with g := Tbl.set 0 k.g n w, a := { k.a with dead := k.a.dead &&& ~~~BitVec.ofNat 32 (2 ^ n) } }

def Core.fr (k : Core) (n : Nat) : Word := Tbl.get 0 k.f n
def Core.setF (k : Core) (n : Nat) (w : Word) : Core :=
  { k with f := Tbl.set 0 k.f n w, x := { k.x with dead := k.x.dead &&& ~~~BitVec.ofNat 32 (2 ^ n) } }
def Core.vr (k : Core) (n : Nat) : VWord := Tbl.get 0 k.v n
def Core.setV (k : Core) (n : Nat) (w : VWord) : Core :=
  { k with v := Tbl.set 0 k.v n w, x := { k.x with deadv := k.x.deadv &&& ~~~BitVec.ofNat 32 (2 ^ n) } }

/-- p[n]: p0 reads all ones and discards writes. -/
def Core.pr (k : Core) (n : Nat) : PWord := if n = 0 then BitVec.allOnes 128 else Tbl.get 0 k.p n
def Core.setP (k : Core) (n : Nat) (w : PWord) : Core := if n = 0 then k else { k with p := Tbl.set 0 k.p n w }

/-- Marking registers dead: each then reads zero until it is written (R121). -/
def Core.killG (k : Core) (m : BitVec 32) : Core :=
  let m := m &&& ~~~(1 : BitVec 32)
  { k with g := k.g.filter fun r => !m.getLsbD r.1, a := { k.a with dead := k.a.dead ||| m } }
def Core.killF (k : Core) (m : BitVec 32) : Core :=
  { k with f := k.f.filter fun r => !m.getLsbD r.1, x := { k.x with dead := k.x.dead ||| m } }
def Core.killV (k : Core) (m : BitVec 32) : Core :=
  { k with v := k.v.filter fun r => !m.getLsbD r.1, x := { k.x with deadv := k.x.deadv ||| m } }

/-! ## Stream slots as registers (R91, R149 to R157) -/

def Core.slot (k : Core) (n : Nat) : Slot := Tbl.get Slot.init k.slots n
def Core.setSlot (k : Core) (n : Nat) (q : Slot) : Core := { k with slots := Tbl.set Slot.init k.slots n q }
def Core.updSlot (k : Core) (n : Nat) (f : Slot → Slot) : Core := k.setSlot n (f (k.slot n))

/-- Whether some descriptor that slot n still holds names slot m as its index slot. -/
def Slot.usesIndex (q : Slot) (m : Nat) : Bool :=
  q.state != .off &&
    ((q.queue.map fun e => e.desc) ++ [q.cur] ++ q.plan ++ q.pending.toList).any fun d =>
      d.own.idx.any fun i => i.1.val = m

/-- An index slot follows the state of the slot it serves, and serves none once no descriptor names it (R150). DESIGN CHOICE, entry 13:
it is then OFF. What was ever pushed to it stays counted, since entries of XAQ name that count (R161). -/
def Core.syncIndex (k : Core) (n : Fin 4) : Core :=
  let q := k.slot n.val
  [0, 1, 2, 3].foldl (fun k m =>
    if m = n.val then k
    else if q.usesIndex m then k.updSlot m fun i => { i with state := q.state, serves := some n }
    else if (k.slot m).serves = some n then
      k.updSlot m fun i =>
        if q.state = .off then { Slot.init with commits := i.commits, pushed := i.pushed, done := i.pushed }
        else { i with state := .off, serves := none }
    else k) k

/-- Changing slot n, its index slot following. -/
def Core.moveSlot (k : Core) (n : Fin 4) (f : Slot → Slot) : Core := (k.updSlot n.val f).syncIndex n

/-- Fields of the mode word (R142). -/
def Desc.write (d : Desc) : Bool := d.mode.getLsbD 0
def Desc.esize (d : Desc) : Nat := bits d.mode.toNat 1 3
def Desc.signed (d : Desc) : Bool := d.mode.getLsbD 4
def Desc.last (d : Desc) : Bool := d.mode.getLsbD 5
def Desc.maskw (d : Desc) : Bool := d.mode.getLsbD 7
def Desc.ndim (d : Desc) : Nat := bits d.mode.toNat 8 2 + 1

/-- The bytes of an element (R142). -/
def Desc.bytes (d : Desc) : Nat := if d.esize = 4 then 128 else 2 ^ d.esize

/-- The slot that f(28+n) and v(28+n) are aliases of while it is enabled and no index slot (R91, R150). -/
def Core.alias? (k : Core) (r : Nat) : Option (Fin 4) :=
  if r < 28 then none
  else
    let n : Fin 4 := Fin.ofNat 4 (r - 28)
    let q := k.slot n.val
    if q.state ≠ .off ∧ q.serves.isNone then some n else none

/-- The misuses of R153 that a register operand can be: reading a write slot, writing a read slot, an alias of
the wrong width. DESIGN CHOICE, entry 13: the first two before the third. -/
def aliasMisuse (q : Slot) (vec write : Bool) : Option Nat :=
  if write && !q.cur.own.write then some 4
  else if !write && q.cur.own.write then some 5
  else if vec != (q.cur.own.esize = 4) then some 6
  else none

/-- An operand of an X-thread instruction, for the checks of R153. -/
structure Opnd where
  vec : Bool
  write : Bool
  reg : Nat
  deriving DecidableEq, Repr

/-- f and v operands, read and written. -/
def fIn (r : Reg) : Opnd := ⟨false, false, r.val⟩
def fOut (r : Reg) : Opnd := ⟨false, true, r.val⟩
def vIn (r : Reg) : Opnd := ⟨true, false, r.val⟩
def vOut (r : Reg) : Opnd := ⟨true, true, r.val⟩

/-- The misuse checks of an instruction's operands, before anything is popped or pushed (R153). DESIGN CHOICE, entry 13: the first
operand of the list that is misused is reported. -/
def checkAliases (l : List Opnd) : M Unit := do
  let k ← myCore
  match l.findSome? fun o => (k.alias? o.reg).bind fun n => aliasMisuse (k.slot n.val) o.vec o.write with
  | some t => trap Cause.queueProtocol (BitVec.ofNat 64 t)
  | none => pure ()

/-- The descriptors of a list, each once, in order. -/
def DescPair.distinct (l : List DescPair) : List DescPair :=
  l.foldl (fun acc d => if acc.any fun e => e.no = d.no then acc else acc ++ [d]) []

/-- Generation goes back to element k of a descriptor: the descriptors of the entries after it, then the current one,
then those planned before, follow it (R154, R157, R158). -/
def Slot.rewind (q : Slot) (d : DescPair) (k : Nat) (rest : List Entry) : Slot :=
  let later := (rest.map fun e => e.desc) ++ [q.cur] ++ q.plan
  { q with cur := d, next := k, plan := DescPair.distinct (later.filter fun e => e.no != d.no) }

/-- The element count of a descriptor (R143): every bound of its dimensions; a manual one has none to count. -/
def Desc.count (d : Desc) : Nat :=
  let n := d.ndim
  d.n0 * (if 1 < n then d.n1 else 1) * (if 2 < n then d.n2 else 1) * (if 3 < n then d.n3 else 1)
def DescPair.count (p : DescPair) : Nat := if p.own.idx.isSome then p.ix.count else p.own.count

/-- The next descriptor once the current one is used up, or the slot's IDLE or END state (R149). -/
def Slot.promote (q : Slot) : Nat → Slot
  | 0 => q
  | n + 1 =>
    if q.state ≠ .active ∨ q.cur.own.manual = true ∨ q.next < q.cur.count then q
    else match q.plan, q.pending with
      | d :: ds, _ => ({ q with cur := d, next := 0, plan := ds }).promote n
      | [], some d => ({ q with cur := d, next := 0, pending := none }).promote n
      | [], none => { q with state := if q.cur.own.last then .ended else .idle }

/-- Promotion through every descriptor the slot holds. -/
def Slot.settled (q : Slot) : Slot := q.promote (q.plan.length + 3)

/-- Whether an entry is a fault mark. -/
def Entry.marked (e : Entry) : Bool := match e.elem with | .mark _ _ _ => true | _ => false

/-- A FAULTED slot becomes ACTIVE and generates the faulted element again, what stands before it in its queue kept (R149, R155); a
manual one requests it again, and what was requested since comes after it. -/
def Slot.restart (q : Slot) : Slot :=
  let before := q.queue.takeWhile fun e => !e.marked
  match q.queue.drop before.length with
  | ⟨d, k, .mark _ addr _⟩ :: rest =>
    if d.own.manual then
      { q with
          state := .active, next := q.next + 1,
          queue := before ++ ⟨d, k, .requested (addr.toNat : Int)⟩ :: rest.map fun e => { e with k := e.k + 1 } }
    else ({ q with state := .active, queue := before }).settled
  | _ => ({ q with state := .active }).settled

/-- A fault mark that is met (R154): the entries behind it go, those before it stay, generation stands at it. -/
def Slot.faultAt (q : Slot) (e : Entry) : Slot :=
  let before := q.queue.takeWhile fun e => !e.marked
  if e.desc.own.manual then { q with state := .faulted, next := e.k, queue := before ++ [e] }
  else { q.rewind e.desc e.k (q.queue.drop (before.length + 1)) with state := .faulted, queue := before ++ [e] }

/-- STRSTAT after a stream fault is reported (R154, R157). -/
def strOf (n : Fin 4) (late idxf : Bool) (cause : BitVec 8) (k : Nat) : StrStat :=
  ⟨n, true, late, idxf, cause, BitVec.ofNat 48 k⟩

/-- The trap of a pop or push that meets a fault mark (R154). -/
def streamFault {α : Type} (n : Fin 4) (e : Entry) (cause : BitVec 8) (addr : Word) (idxf : Bool) : M α :=
  trapWith Cause.streamFault addr fun s =>
    (s.updCore s.cur fun k => k.moveSlot n fun q => q.faultAt e).updTh s.cur s.thr fun h =>
      { h with strstat := strOf n false idxf cause e.k }

/-- The report of a late failure of a write slot (R157). -/
def lateFault {α : Type} (n : Fin 4) (cause : BitVec 8) (addr : Word) (d : DescPair) (k : Nat) : M α :=
  trapWith Cause.streamFault addr fun s =>
    (s.updCore s.cur fun c => c.moveSlot n fun q =>
      { q.rewind d (k + 1) q.queue with state := .faulted, queue := [], late := none }).updTh s.cur s.thr fun h =>
      { h with strstat := strOf n true false cause k }

/-- Taking the head entry of a read slot (R151, R152). -/
def popSlot (n : Fin 4) : M VWord := do
  let k ← myCore
  let q := k.slot n.val
  if q.state = .faulted then
    waitWith .stream fun s => (s.updCore s.cur fun k => k.moveSlot n Slot.restart).updTh s.cur s.thr fun h =>
      { h with pend := .pop n }
  match q.queue with
  | [] => if q.state = .ended then trap Cause.queueProtocol 3 else waitAs .stream (.pop n)
  | e :: rest =>
    match e.elem with
    | .requested _ => waitAs .stream (.pop n)
    | .mark cause addr idxf => streamFault n e cause addr idxf
    | .value v =>
      updMy fun k => k.updSlot n.val fun q => { q with queue := rest }
      pure v

/-- Adding an element to a write slot (R149, R152). -/
def pushSlot (n : Fin 4) (v : VWord) (lanes : PWord) : M Unit := do
  let k ← myCore
  let q := k.slot n.val
  match q.late with
  | some l => lateFault n l.1 l.2.1 l.2.2.1 l.2.2.2
  | none => pure ()
  if q.state = .faulted then
    waitWith .stream fun s => (s.updCore s.cur fun k => k.moveSlot n Slot.restart).updTh s.cur s.thr fun h =>
      { h with pend := .push n }
  match q.queue with
  | ⟨d, i, .mark cause addr idxf⟩ :: _ => streamFault n ⟨d, i, .mark cause addr idxf⟩ cause addr idxf
  | _ => pure ()
  if q.state = .ended ∧ q.queue.length ≤ q.store.length then trap Cause.queueProtocol 3
  if (q.state = .idle ∧ q.queue.length ≤ q.store.length) ∨ 16 ≤ q.store.length then waitAs .stream (.push n)
  updMy fun k => k.updSlot n.val fun q => { q with store := q.store ++ [⟨v, lanes⟩], pushed := q.pushed + 1 }

/-- Reading and writing registers as an instruction does. -/
def rdG (r : Reg) : M Word := do return (← myCore).gr r.val
def wrG (r : Reg) (w : Word) : M Unit := updMy fun k => k.setG r.val w

/-- The low bytes of a popped element, extended by SX (R142, R152). -/
def Desc.extend (d : Desc) (v : Nat) : Word :=
  let n := 8 * d.bytes
  if d.signed ∧ d.esize < 3 then int64 (sext n v) else BitVec.ofNat 64 (v % 2 ^ n)

/-- The descriptor of the element to be popped next. -/
def Slot.headDesc (q : Slot) : Desc :=
  match q.queue with
  | e :: _ => e.desc.own
  | [] => q.cur.own

def rdF (r : Reg) : M Word := do
  let k ← myCore
  match k.alias? r.val with
  | none => return k.fr r.val
  | some n =>
    let v ← popSlot n
    return (k.slot n.val).headDesc.extend v.toNat
def wrF (r : Reg) (w : Word) : M Unit := do
  let k ← myCore
  match k.alias? r.val with
  | none => updMy fun k => k.setF r.val w
  | some n => pushSlot n (w.setWidth 1024) (BitVec.allOnes 128)
def rdV (r : Reg) : M VWord := do
  let k ← myCore
  match k.alias? r.val with
  | none => return k.vr r.val
  | some n => popSlot n
def rdP (n : Nat) : M PWord := do return (← myCore).pr n
def wrP (n : Nat) (w : PWord) : M Unit := updMy fun k => k.setP n w

/-- Writing a v register whole; `lanes` are the byte lanes a push stores where MASKW is set (R152). -/
def wrV (r : Reg) (w : VWord) (lanes : PWord) : M Unit := do
  let k ← myCore
  match k.alias? r.val with
  | none => updMy fun k => k.setV r.val w
  | some n => pushSlot n w lanes

/-- Registers of majors 0x02, 0x04 and 0x15: g in an A-thread, f in an X-thread (R135, R136, R167). -/
def rdR (r : Reg) : M Word := do if (← ask State.thr) = .a then rdG r else rdF r
def wrR (r : Reg) (w : Word) : M Unit := do if (← ask State.thr) = .a then wrG r w else wrF r w

/-- The alias checks of such registers in an X-thread. -/
def checkR (l : List Opnd) : M Unit := do if (← ask State.thr) = .x then checkAliases l else pure ()

/-! ## Addresses (R263 to R266, R268) -/

/-- Where a byte lives: in this device, or at an address of another device. -/
inductive Home where
  | here (a : Nat)
  | remote (n ctx va : Nat)
  deriving DecidableEq, Repr

/-- The execute boundary of a core, in bytes. -/
def State.xbOf (s : State) (c : CoreName) : Nat := (s.core c).xb.toNat * 256

/-- The fields of a cluster-window address (R264). -/
def winOct (ea : Nat) : Nat := bits ea 24 5
def winTarget (ea : Nat) : Nat := bits ea 20 4

/-- An extended address (R265). -/
def isExt (ea : Nat) : Bool := bits ea 60 4 = 8

/-- Check 1 of R268 for one byte: the map of the issuing core's kind. -/
def State.mapOk (s : State) (c : CoreName) (ea : Nat) : Bool :=
  if ea < 2 ^ 16 then s.xbOf c ≤ ea
  else match c.kind with
    | .memory | .management => isExt ea
    | k =>
      if 2 ^ 31 ≤ ea && ea < 2 ^ 32 then
        bits ea 29 2 = 0 && winOct ea < 24 && winTarget ea < 9 && (winTarget ea = 8 || ea % 2 ^ 20 < 2 ^ 16)
      else k != .control && 2 ^ 20 ≤ ea && ea < 2 ^ 21

/-- The state of a slot of a context's window map in a cluster (R403). -/
def State.slotMap (s : State) (ctx cl slot : Nat) : SlotMap := Tbl.get SlotMap.empty (s.ctx ctx).slots (24 * cl + slot)

/-- The result of resolving an address. -/
inductive Where where
  | at_ (h : Home)
  | fails (cause : BitVec 8)
  | held
  | fault (code : Nat)
  | lost
  deriving DecidableEq, Repr

/-- The octet a slot names under a context, as the router finds it (R264, R312, R321, R403): a control core names
physical octets. What is aimed at a rectangle still being loaded is held (R362). -/
def State.slotFor (s : State) (kind : Kind) (ctx : Nat) (cl : Fin 16) (slot : Nat) : Except Where OctName :=
  let held := fun o : OctName => if s.loading o then .error .held else .ok o
  if kind = .control then held ⟨cl, Fin.ofNat 24 slot⟩
  else
    match s.slotMap ctx cl.val slot with
    | .empty => .error (.fails Cause.accessRights)
    | .switched => .error .held
    | .mapped o => if (s.octet ⟨cl, o⟩).owner = ctx then held ⟨cl, o⟩ else .error (.fails Cause.accessRights)

/-- The octet a slot names for a core. -/
def State.resolveSlot (s : State) (c : CoreName) (cl : Fin 16) (slot : Nat) : Except Where OctName :=
  s.slotFor c.kind (s.core c).ctxid.toNat cl slot

/-- The byte that an address in the cluster window names in the octet it is resolved to (R264), the boundary checked at the home
(R117). -/
def State.windowHome (s : State) (o : OctName) (ea : Nat) : Where :=
  if winTarget ea = 8 then .at_ (.here (scratchBase o + ea % 2 ^ 20))
  else
    let t := CoreName.compute o (Fin.ofNat 8 (winTarget ea))
    if ea % 2 ^ 20 < s.xbOf t then .fails Cause.localRange else .at_ (.here (localBase t + ea % 2 ^ 20))

/-- The byte a near address names (R263, R264). -/
def State.nearHome (s : State) (c : CoreName) (ea : Nat) : Where :=
  if ea < 2 ^ 16 then .at_ (.here (localBase c + ea))
  else if ea < 2 ^ 31 then
    match c.octet? with
    | some o => .at_ (.here (scratchBase o + (ea - 2 ^ 20)))
    | none => .fails Cause.localRange
  else match c.cluster? with
    | none => .fails Cause.localRange
    | some cl => match s.resolveSlot c cl (winOct ea) with
      | .error w => w
      | .ok o => s.windowHome o ea

/-- The octet that a window slot of the group a core works for stands for, whether or not the router lets anything through
(R359). -/
def State.groupOctet (s : State) (c : CoreName) (cl : Fin 16) (slot : Nat) : Option OctName :=
  c.octet?.bind fun o => (s.standing o).bind fun g => if g.cl ≠ cl ∨ slot < g.s0 then none else g.octets[slot - g.s0]?

/-- The context a core's accesses are checked under (R98, R265). -/
def State.ctxOf (s : State) (c : CoreName) : Nat := (s.core c).ctxid.toNat

/-- Resolving an address that passed check 1: near, or extended by a translation at the core's station. -/
def State.resolve (s : State) (c : CoreName) (ea : Nat) (rd wr : Bool) : State × Where :=
  if isExt ea then
    let va := ea % 2 ^ 60
    let r := s.translate c.station (s.ctxOf c) va rd wr
    (r.1, match r.2 with
      | .home a => .at_ (.here a)
      | .remote n => .at_ (.remote n (s.ctxOf c) va)
      | .fault code => .fault code
      | .ecc cause => .fails cause
      | .rights => .fails Cause.accessRights
      | .lost => .lost)
  else (s, s.nearHome c ea)

/-- The line accesses that n bytes of device memory cost their home's sector cache (R296). -/
def State.touchHome (s : State) (c : CoreName) (ea n : Nat) (h : Home) (col wr : Bool) : State :=
  match h with
  | .here a => if isExt ea then s.touch c.station (s.ctxOf c) (ea % 2 ^ 60) a n col wr else s
  | .remote _ _ _ => s

/-- Resolving the address of an access that is then made, in one row line. -/
def State.access (s : State) (c : CoreName) (ea : Nat) (rd wr : Bool) : State × Where :=
  let r := s.resolve c ea rd wr
  match r.2 with
  | .at_ h => (r.1.touchHome c ea 1 h false wr, .at_ h)
  | w => (r.1, w)

/-- EA with bit 62 set: how a lost request and a relaxed store's failure are reported (R272, R442). -/
def lostEa (ea : Nat) : Word := BitVec.ofNat 64 ea ||| BitVec.ofNat 64 (2 ^ 62)

/-- The trap of a resolution that fails (R265, R268); a held access waits with no reason code (R266). -/
def failWhere {α : Type} (ea : Nat) (wr : Bool) : Where → M α
  | .fails cause => trapKeep cause (BitVec.ofNat 64 ea)
  | .fault code => fun s => .error (.trap Cause.pageFault (BitVec.ofNat 64 ea) fun s0 =>
    (s0.keep s).trapFault s.cur (s.ctxOf s.cur) (ea % 2 ^ 60) code wr)
  | .lost => trapKeep Cause.accessRights (lostEa ea)
  | .held => waitAs .none (.held (BitVec.ofNat 64 ea))
  | .at_ _ => wait .none

/-- Checks 1 and 2 of R268. -/
def checkMap (ea n : Nat) : M Unit := do
  act fun s => { s with ea := BitVec.ofNat 64 ea }
  if !(← ask fun s => s.mapOk s.cur ea) then trap Cause.localRange (BitVec.ofNat 64 ea)
  if ea % n ≠ 0 then trap Cause.misaligned (BitVec.ofNat 64 ea)

/-- Check 3 of R268 and the boundary of check 4. -/
def findPlace (ea : Nat) (rd wr : Bool) : M Home := fun s =>
  let r := s.resolve s.cur ea rd wr
  match r.2 with
  | .at_ h => .ok (h, r.1)
  | w => failWhere ea wr w r.1

/-- The same for an access that is then made. -/
def findHome (ea : Nat) (rd wr : Bool) : M Home := fun s =>
  let r := s.access s.cur ea rd wr
  match r.2 with
  | .at_ h => .ok (h, r.1)
  | w => failWhere ea wr w r.1

/-- The address checks of an access of n bytes (R268). -/
def locate (ea n : Nat) (rd wr : Bool) : M Home := do
  checkMap ea n
  findHome ea rd wr

/-- A granule check's failure becomes the access's trap, poison kept (R274, R275). -/
def granuleTrap (ea base : Nat) (r : State × Option (BitVec 8 × Nat)) : M Unit := fun _ =>
  match r.2 with
  | none => .ok ((), r.1)
  | some f => trapKeep f.1 (BitVec.ofNat 64 (ea + (f.2 - base))) r.1

/-- The trap cause that an answer of another device which is no value stands for (R268, R429, R441, R442). -/
def remoteCause : Config.RemoteAns → BitVec 8
  | .fault => Cause.pageFault
  | .bad poisoned => if poisoned then Cause.poison else Cause.eccUncorrectable
  | _ => Cause.accessRights

/-- The value a trap reports for such an answer: a lost request's has bit 62 set (R442). -/
def remoteTval (ea : Nat) : Config.RemoteAns → Word
  | .lost => lostEa ea
  | _ => BitVec.ofNat 64 ea

/-- The answer of another device to a request (R429, R441, R442). -/
def remoteTrap (ea n ctx va size : Nat) : M Nat := fun s =>
  let k := s.askDevice n ctx va size
  match k.2 with
  | .ok v => .ok (v % 2 ^ (8 * size), k.1)
  | r => trapKeep (remoteCause r) (remoteTval ea r) k.1

/-- Examining the granules of several places, each by the address that names it, its flat address and the granules read there:
every one is examined, and the lowest that fails is reported (R274, R275). -/
def examineSpans (l : List (Nat × Nat × List Nat)) : M Unit := fun s =>
  let r := l.foldl (fun (p : State × Option (BitVec 8 × Word)) x =>
    let q := p.1.examine x.2.1 x.2.2
    (q.1, p.2.or (q.2.map fun f => (f.1, BitVec.ofNat 64 (x.1 + (f.2 - x.2.1)))))) (s, none)
  match r.2 with
  | none => .ok ((), r.1)
  | some f => trapKeep f.1 f.2 r.1

/-- Reading n bytes at a home (R268, R274). -/
def readHome (h : Home) (ea n : Nat) : M Nat :=
  match h with
  | .here a => do
    granuleTrap ea a (← ask fun s => s.checkRead a n)
    ask fun s => s.readLE a n
  | .remote d ctx va => remoteTrap ea d ctx va n

/-- Whether an address lies in the CXL range, where R275 does not apply (R445). -/
def isCxl (a : Nat) : Bool := 2 * 2 ^ 48 ≤ a && a < 3 * 2 ^ 48

/-- Writing n bytes at a home (R268, R275). -/
def writeHome (h : Home) (ea n w : Nat) : M Unit :=
  match h with
  | .here a => do
    if !isCxl a then granuleTrap ea a (← ask fun s => s.checkWrite a n)
    act fun s => s.store a n w
  | .remote d ctx va => do
    let _ ← remoteTrap ea d ctx va n

/-- The effective address of R263. -/
def effective (base : Word) (imm : Int) : Nat := ((base.toNat : Int) + imm).emod (2 ^ 64) |>.toNat

/-! ## Target words (R320, R321) -/

def twKind (w : Word) : Nat := bits w.toNat 0 3
def twSlot (w : Word) : Nat := bits w.toNat 8 5
def twCl (w : Word) : Fin 16 := Fin.ofNat 16 (bits w.toNat 13 4)
def twIdx (w : Word) : Fin 8 := Fin.ofNat 8 (bits w.toNat 17 3)
def twStack (w : Word) : Nat := bits w.toNat 20 4
def twPair (w : Word) : Fin 16 := Fin.ofNat 16 (bits w.toNat 24 4)

/-- A malformed target word (R320, R321): a reserved bit or code, a field its KIND does not use, a slot or stack that is
none. -/
def targetBad (w : Word) : Bool :=
  let k := twKind w
  4 < k || bits w.toNat 3 5 != 0 || bits w.toNat 28 36 != 0 ||
  (if k < 2 then decide (23 < twSlot w) else twSlot w != 0) ||
  (2 < k && twCl w != 0) || (k != 0 && twIdx w != 0) ||
  (if k = 3 then decide (11 < twStack w) else twStack w != 0 || twPair w != 0)

/-- What a target word names. -/
inductive Target where
  | core (c : CoreName)
  | held
  | fails
  deriving DecidableEq, Repr

/-- Resolving a well-formed target word for a core of a kind under a context (R321): a retired memory core is no target
(R465), and one that runs under another context is none for anybody. -/
def State.resolveTarget (s : State) (kind : Kind) (ctx : Nat) (w : Word) : Target :=
  let sup := kind = .control || kind = .management
  match twKind w with
  | 0 => match s.slotFor kind ctx (twCl w) (twSlot w) with
    | .ok o => .core (.compute o (twIdx w))
    | .error .held => .held
    | .error _ => .fails
  | 1 => match s.slotFor kind ctx (twCl w) (twSlot w) with
    | .ok o => .core (.transfer o)
    | .error .held => .held
    | .error _ => .fails
  | 2 => if sup then .core (.control (twCl w)) else .fails
  | 3 =>
    let c := CoreName.memory (Fin.ofNat 12 (twStack w)) (twPair w)
    let k := s.core c
    if Tbl.get false s.life.retiredParts (400 + 16 * twStack w + (twPair w).val) then .fails
    else if k.a.st = .off || k.ctxid.toNat = ctx then .core c
    else .fails
  | _ => if sup then .core .management else .fails

/-- Resolving a target word for a core. -/
def State.targetOf (s : State) (c : CoreName) (w : Word) : Target :=
  s.resolveTarget c.kind (s.core c).ctxid.toNat w

/-! ## Declarations (R322) -/

def Decl.ch (d : Decl) : Fin 16 := Fin.ofNat 16 (bits d.w0.toNat 0 4)
def Decl.out (d : Decl) : Bool := d.w0.getLsbD 4
def Decl.mode (d : Decl) : Nat := bits d.w0.toNat 5 2
def Decl.peerch (d : Decl) : Fin 16 := Fin.ofNat 16 (bits d.w0.toNat 8 4)
def Decl.lsize (d : Decl) : Nat := bits d.w0.toNat 16 16
def Decl.land (d : Decl) : Nat := bits d.w0.toNat 32 32
def Decl.peer (d : Decl) : Word := d.w1
def Decl.ring (d : Decl) : Nat := bits d.w2.toNat 0 32
def Decl.rsize (d : Decl) : Nat := bits d.w2.toNat 32 16
def Decl.spill (d : Decl) : Nat := bits d.w3.toNat 0 32
def Decl.ssize (d : Decl) : Nat := bits d.w3.toNat 32 16

/-- The place of a range of near addresses that lies in one memory a ring may lie in: the core's own local memory at or
above XB, or its own octet's scratchpad (R322); else the first address that does not. -/
def State.ownRange (s : State) (c : CoreName) (ea len : Nat) : Except Nat Nat :=
  if s.xbOf c ≤ ea ∧ ea < 2 ^ 16 then if ea + len ≤ 2 ^ 16 then .ok (localBase c + ea) else .error (2 ^ 16)
  else match c.octet? with
    | none => .error ea
    | some o =>
      if ea < 2 ^ 20 ∨ 2 ^ 21 ≤ ea then .error ea
      else if ea + len ≤ 2 ^ 21 then .ok (scratchBase o + (ea - 2 ^ 20))
      else .error (2 ^ 21)

/-- The flat address of a near address of a region that a declaration accepted. -/
def State.ownFlat (s : State) (c : CoreName) (ea : Nat) : Nat :=
  match s.ownRange c ea 0 with
  | .ok a => a
  | .error _ => localBase c + ea

/-- Two ranges share an address. -/
def meets (a m b n : Nat) : Bool := m != 0 && n != 0 && a < b + n && b < a + m

def Core.outEp (k : Core) (n : Fin 16) : OutEp := Tbl.get OutEp.init k.outs n.val
def Core.inEp (k : Core) (n : Fin 16) : InEp := Tbl.get InEp.init k.ins n.val

/-- Own local memory at or above XB, checked by R268 with alignment n over a length (R322, R400). -/
def ownLocal (ea n len : Nat) : M Nat := do
  act fun s => { s with ea := BitVec.ofNat 64 ea }
  let s ← get
  if !(s.xbOf s.cur ≤ ea && ea < 2 ^ 16) then trap Cause.localRange (BitVec.ofNat 64 ea)
  if ea % n ≠ 0 then trap Cause.misaligned (BitVec.ofNat 64 ea)
  if 2 ^ 16 < ea + len then trap Cause.localRange (BitVec.ofNat 64 ea)
  return localBase s.cur + ea

end Sys2Proof.Machine
end

