-- ==== Sys2Proof/Machine/Region.lean ====
section
/-! DEFINITION. Loads, stores, atomics, sync objects, DISCARD and FENCE: majors 0x10 to 0x13 (chapter The region
and the sync object). -/

namespace Sys2Proof.Machine

/-! ## Relaxed stores and staged records (R269, R272, R289, R293) -/

/-- Where a relaxed store goes. -/
def RStore.home (s : State) (c : CoreName) (r : RStore) : Where := (s.resolve c r.ea.toNat false true).2

/-- The bytes it is for: one that the router holds toward its own group is for the octet that its slot stands for. -/
def RStore.place (s : State) (c : CoreName) (r : RStore) : Option Home :=
  match r.home s c with
  | .at_ h => some h
  | .held =>
    match c.cluster?.bind fun cl => s.groupOctet c cl (winOct r.ea.toNat) with
    | none => none
    | some o => match s.windowHome o r.ea.toNat with
      | .at_ h => some h
      | _ => none
  | _ => none

/-- A relaxed store writes a byte of an access of n bytes. -/
def RStore.meets (s : State) (c : CoreName) (h : Home) (n : Nat) (r : RStore) : Bool :=
  match h, r.place s c with
  | .here a, some (.here b) => decide (a < b + r.size ∧ b < a + n)
  | .remote d x va, some (.remote d' x' vb) => decide (d = d' ∧ x = x' ∧ va < vb + r.size ∧ vb < va + n)
  | _, _ => false

/-- The core that a target word names, whether or not the router lets anything through: a core of the issuing core's own group stands
where the group does (R359). -/
def State.placeOf (s : State) (c : CoreName) (w : Word) : Option CoreName :=
  match s.targetOf c w with
  | .core t => some t
  | .held =>
    if 1 < twKind w then none
    else (s.groupOctet c (twCl w) (twSlot w)).map fun p => if twKind w = 0 then .compute p (twIdx w) else .transfer p
  | .fails => none

/-- Whether what an output of a core sends lands in a region that meets n bytes at a flat address. -/
def State.landsOut (s : State) (c : CoreName) (e : OutEp) (a n : Nat) : Bool :=
  match s.placeOf c e.decl.peer with
  | some t =>
    let d := ((s.core t).inEp e.decl.peerch).decl
    let into := fun near units : Nat => meets a n (s.ownFlat t near) (64 * units)
    into d.ring d.rsize || into d.spill d.ssize || (d.mode = 2 && into d.land d.lsize)
  | none => false

/-- The records that a core has sent and that are not delivered yet. -/
def Core.sent (k : Core) : List (Nat × Nat × BitVec 32) :=
  k.outs.flatMap fun e => (e.2.staging.filter fun r => !r.mark).map fun r => (e.1, e.2.conn, r.seq)

/-- Whether a record that a relaxed store came after is still to land in the store's bytes (R289 (a), R293). -/
def RStore.waitsRecord (s : State) (c : CoreName) (r : RStore) : Bool :=
  match r.place s c with
  | some (.here a) => (s.core c).sent.any fun x => r.behind.contains x && s.landsOut c (Tbl.get OutEp.init (s.core c).outs x.1) a r.size
  | _ => false

/-- Whether a relaxed store can not be performed yet: the router holds it (R266), or a record or one of the older stores `before` comes
first in its bytes (R288, R289, R293). -/
def RStore.stuck (s : State) (c : CoreName) (before : List RStore) (r : RStore) : Bool :=
  r.home s c == .held || r.waitsRecord s c || (r.place s c).any fun h => before.any (RStore.meets s c h r.size)

/-- A core's own local memory, or its octet's scratchpad: an access there is performed in program order (R269). -/
def ownHome (c : CoreName) : Home → Bool
  | .here a =>
    decide (localBase c ≤ a ∧ a < localBase c + 2 ^ 16) ||
      (match c.octet? with
        | some o => decide (scratchBase o ≤ a ∧ a < scratchBase o + 2 ^ 20)
        | none => false)
  | .remote _ _ _ => false

/-- Merging a nibble into a byte (R270): even nibble addresses name the low half. -/
def mergeNibble (odd : Bool) (old w : Nat) : Nat :=
  if odd then old % 16 + 16 * (w % 16) else old / 16 * 16 + w % 16

/-- Performing one relaxed store at its home, or noting its failure on the thread (R272). -/
def State.performRelaxed (s : State) (c : CoreName) (r : RStore) : State :=
  let fail := fun (s : State) cause =>
    s.updTh c .a fun h => { h with relaxFail := h.relaxFail.orElse fun _ => some (cause, lostEa r.ea.toNat) }
  let ea := r.ea.toNat
  let p := s.access c ea false true
  match p.2 with
  | .at_ (.here a) =>
    let q := if isCxl a then (p.1, none) else p.1.checkWrite a r.size
    match q.2 with
    | some f => fail q.1 f.1
    | none =>
      if r.nibble then q.1.store a 1 (mergeNibble (r.value.getLsbD 4) (q.1.byte a).toNat r.value.toNat)
      else q.1.store a r.size r.value.toNat
  | .at_ (.remote n ctx va) =>
    let k := p.1.askDevice n ctx va r.size
    match k.2 with
    | .ok _ => k.1
    | w => fail k.1 (remoteCause w)
  | .fault code => fail (p.1.trapFault c (s.ctxOf c) (ea % 2 ^ 60) code true) Cause.pageFault
  | .fails cause => fail p.1 cause
  | .lost => fail p.1 Cause.accessRights
  | .held => s

/-- The relaxed stores of a core's thread that may be performed next. -/
def State.ackable (s : State) (c : CoreName) : List RStore :=
  let l := (s.th c .a).relaxed
  (List.range l.length).filterMap fun i => (l[i]?).filter fun r => !r.stuck s c (l.take i)

/-- A home acknowledges one of a thread's relaxed stores, an open choice which; one toward a switched-out octet is held (R266,
R272). DESIGN CHOICE, entry 8. -/
def State.ackRelaxed (s : State) (c : CoreName) : State :=
  let l := s.ackable c
  let k := s.fresh
  match l[(Config.freeWord k.1).toNat % l.length]? with
  | none => s
  | some r => (k.2.performRelaxed c r).updTh c .a fun h => { h with relaxed := h.relaxed.erase r }

/-- Every relaxed store of a core is acknowledged, in order, but those that can not be. -/
def State.ackAll (s : State) (c : CoreName) : State :=
  let l := (s.th c .a).relaxed
  let p := l.foldl (fun (p : State × List RStore) r =>
    if r.stuck p.1 c p.2 then (p.1, p.2 ++ [r]) else (p.1.performRelaxed c r, p.2)) (s, [])
  if l.isEmpty then s else p.1.updTh c .a fun h => { h with relaxed := p.2 }

/-- What the instructions of R272 do first: wait for the thread's relaxed stores, then report a failure. DESIGN CHOICE, entry 8. -/
def settleRelaxed : M Unit := do
  let h ← myThread
  if h.relaxed ≠ [] then wait .fence
  match h.relaxFail with
  | none => pure ()
  | some f => trapWith f.1 f.2 fun s => s.updTh s.cur s.thr fun h => { h with relaxFail := none }

/-- Whether records that a core has sent are still to land in a region that meets n bytes at a flat address: their writes are the
sender's, at the place of the SEND in its program order (R293). DESIGN CHOICE, entry 8. -/
def State.landsIn (s : State) (c : CoreName) (a n : Nat) : Bool :=
  (s.core c).outs.any fun e => e.2.staging.any (fun r => !r.mark) && s.landsOut c e.2 a n

/-- The same for an access. -/
def State.landsAt (s : State) (c : CoreName) (h : Home) (n : Nat) : Bool :=
  match h with
  | .here a => s.landsIn c a n
  | .remote _ _ _ => false

/-- A FENCE's wait for the records that its thread has sent (R287, R293). -/
def settleSent : M Unit := do if ← ask fun s => s.unsent s.cur then wait .fence

/-- What FENCE of more than the thread's own scope does (R287). -/
def fenceAll : M Unit := do
  settleRelaxed
  settleSent

/-- Every store of the A-thread is performed before what follows: the elements that a SEN, SFLUSH, LDQ or STQ covers (R160), and
whatever a release orders (R292). One that is held toward a switched-out octet is waited for. -/
def coverStores : M Unit := do
  act fun s => s.ackAll s.cur
  if (← ask fun s => (s.th s.cur .a).relaxed) ≠ [] then wait .fence

/-- What a release waits for: every access of the A-thread before it, the records it has sent included (R292, R293). -/
def release : M Unit := do
  coverStores
  settleSent

/-- An access of the thread comes after its earlier ones to the same bytes (R289 (a)): its relaxed stores, and the records that it
has sent. DESIGN CHOICE, entry 8. -/
def orderRelaxed (h : Home) (n : Nat) : M Unit := do
  if ← ask fun s => (s.th s.cur .a).relaxed.any (RStore.meets s s.cur h n) then
    act fun s => s.ackAll s.cur
    if ← ask fun s => (s.th s.cur .a).relaxed.any (RStore.meets s s.cur h n) then wait .none
  if ← ask fun s => s.landsAt s.cur h n then wait .none

/-- Reading words of own local memory, after the thread's earlier accesses to them, granules examined. -/
def readOwn (ea n len : Nat) : M (List Word) := do
  let a ← ownLocal ea n len
  orderRelaxed (.here a) len
  granuleTrap ea a (← ask fun s => s.checkRead a len)
  ask fun s => s.words a (len / 8)

/-! ## Loads (R267 to R271) -/

/-- Loads accept IMM, NT and NOFAULT (R45). -/
def loadHints : Hints := ⟨true, 0b1010⟩

/-- The value a load reads: every failure traps (R268). -/
def loadValue (ea n : Nat) : M Nat := do
  let h ← locate ea n true false
  orderRelaxed h n
  readHome h ea n

/-- The value a NOFAULT load reads: 0 where a plain load would trap, nothing posted, poison kept (R271, R426). -/
def loadOrZero (ea n : Nat) : M Nat := do
  act fun s => { s with ea := BitVec.ofNat 64 ea }
  let s ← get
  if !s.mapOk s.cur ea || ea % n ≠ 0 then return 0
  let r := s.access s.cur ea true false
  match r.2 with
  | .at_ h =>
    set r.1
    orderRelaxed h n
    match h with
    | .here a =>
      let q := (← get).checkRead a n
      set q.1
      if q.2.isSome then return 0 else return q.1.readLE a n
    | .remote d ctx va =>
      let k := (← get).askDevice d ctx va n
      set k.1
      match k.2 with
      | .ok v => return v % 2 ^ (8 * n)
      | _ => return 0
  | .held => waitAs .none (.held (BitVec.ofNat 64 ea))
  | _ =>
    set r.1
    return 0

/-- A load of n bytes, sign- or zero-extended (R267). -/
def load (n : Nat) (sx : Bool) (d a : Reg) (i : BitVec 12) (s : State) : Host.Outcome State Fault Refusal :=
  issue aAll loadHints .user (seq do
    let x ← rdG a
    let ea := effective x (← immediate 12 i.toNat)
    let v ← if ← modBit 3 then loadOrZero ea n else loadValue ea n
    wrG d (if sx then int64 (sext (8 * n) v) else BitVec.ofNat 64 v)) s

/-- LDB (R267). -/
def execLdb (d a : Reg) (i : BitVec 12) (s : State) : Host.Outcome State Fault Refusal :=
  load 1 true d a i s

/-- LDBU (R267). -/
def execLdbu (d a : Reg) (i : BitVec 12) (s : State) : Host.Outcome State Fault Refusal :=
  load 1 false d a i s

/-- LDH (R267). -/
def execLdh (d a : Reg) (i : BitVec 12) (s : State) : Host.Outcome State Fault Refusal :=
  load 2 true d a i s

/-- LDHU (R267). -/
def execLdhu (d a : Reg) (i : BitVec 12) (s : State) : Host.Outcome State Fault Refusal :=
  load 2 false d a i s

/-- LDW (R267). -/
def execLdw (d a : Reg) (i : BitVec 12) (s : State) : Host.Outcome State Fault Refusal :=
  load 4 true d a i s

/-- LDWU (R267). -/
def execLdwu (d a : Reg) (i : BitVec 12) (s : State) : Host.Outcome State Fault Refusal :=
  load 4 false d a i s

/-- LDD (R267). -/
def execLdd (d a : Reg) (i : BitVec 12) (s : State) : Host.Outcome State Fault Refusal :=
  load 8 false d a i s

/-- XPREF: the checks of R268 without their traps; an extended address that translates enters the sector cache
of its home (R271). -/
def execXpref (a : Reg) (i : BitVec 12) (s : State) : Host.Outcome State Fault Refusal :=
  issue aAll ⟨true, 0b0010⟩ .user (seq do
    let x ← rdG a
    let ea := effective x (← immediate 12 i.toNat)
    act fun s =>
      if s.mapOk s.cur ea ∧ isExt ea = true then
        let r := s.resolve s.cur ea true false
        match r.2 with
        | .at_ (.here p) => r.1.touchSector (r.1.sectorKey s.cur.station (s.ctxOf s.cur) (ea % 2 ^ 60) p) (s.ctxOf s.cur)
        | _ => r.1
      else s) s

/-! ## Stores (R268 to R270, R272) -/

/-- Stores accept IMM, NT and RELAXED (R45). -/
def storeHints : Hints := ⟨true, 0b0110⟩

/-- Writing a value of n bytes at an address, every check made, the thread's relaxed stores first. -/
def storeValue (ea n w : Nat) : M Unit := do
  settleRelaxed
  let h ← locate ea n false true
  orderRelaxed h n
  writeHome h ea n w

/-- Retiring a relaxed store once checks 1 and 2 pass (R272): one to the core's own memory is performed in program order
(R269), and any other is acknowledged later by its home. -/
def storeRelaxed (ea n : Nat) (nibble : Bool) (w : Word) : M Unit := do
  checkMap ea n
  let r : RStore := ⟨BitVec.ofNat 64 ea, n, nibble, w, (← myCore).sent⟩
  let later : M Unit := updMyTh fun h => { h with relaxed := h.relaxed ++ [r] }
  match ← ask fun s => r.home s s.cur with
  | .at_ h =>
    if ownHome (← ask State.cur) h then
      orderRelaxed h n
      act fun s => s.performRelaxed s.cur r
    else later
  | _ => later

/-- A store of n bytes (R267). -/
def storeI (n : Nat) (r b : Reg) (i : BitVec 12) (s : State) : Host.Outcome State Fault Refusal :=
  issue aAll storeHints .user (seq do
    let x ← rdG b
    let ea := effective x (← immediate 12 i.toNat)
    let w ← rdG r
    if ← modBit 2 then storeRelaxed ea n false w else storeValue ea n (w.toNat % 2 ^ (8 * n))) s

/-- STB (R267). -/
def execStb (r b : Reg) (i : BitVec 12) (s : State) : Host.Outcome State Fault Refusal :=
  storeI 1 r b i s

/-- STH (R267). -/
def execSth (r b : Reg) (i : BitVec 12) (s : State) : Host.Outcome State Fault Refusal :=
  storeI 2 r b i s

/-- STW (R267). -/
def execStw (r b : Reg) (i : BitVec 12) (s : State) : Host.Outcome State Fault Refusal :=
  storeI 4 r b i s

/-- STD (R267). -/
def execStd (r b : Reg) (i : BitVec 12) (s : State) : Host.Outcome State Fault Refusal :=
  storeI 8 r b i s

/-- STN: one nibble, merged at the home (R270). -/
def execStn (r b : Reg) (i : BitVec 12) (s : State) : Host.Outcome State Fault Refusal :=
  issue aAll storeHints .user (seq do
    let x ← rdG b
    let n : Int := 2 * (x.toNat : Int) + (← immediate 12 i.toNat)
    let ea := ((n.fdiv 2).emod (2 ^ 64)).toNat
    let odd := decide (n.emod 2 = 1)
    let w ← rdG r
    if ← modBit 2 then
      storeRelaxed ea 1 true (BitVec.ofNat 64 (w.toNat % 16 + if odd then 16 else 0))
    else
      settleRelaxed
      let h ← locate ea 1 false true
      orderRelaxed h 1
      match h with
      | .here p =>
        if !isCxl p then granuleTrap ea p (← ask fun s => s.checkWrite p 1)
        act fun s => s.store p 1 (mergeNibble odd (s.byte p).toNat w.toNat)
      | .remote d ctx va => do
        let _ ← remoteTrap ea d ctx va 1) s

/-! ## Atomics (R276 to R278) -/

/-- The operations of R277: the new value of n bytes from the old one, g[b]'s and g[d]'s; none for a failed CAS. -/
inductive AmoOp where
  | add | and | or | xor | min | max | minu | maxu | swap | cas
  deriving DecidableEq, Repr

def AmoOp.new (op : AmoOp) (n old y x : Nat) : Option Nat :=
  let lt := decide (sext (8 * n) old < sext (8 * n) y)
  match op with
  | .add => some ((old + y) % 2 ^ (8 * n))
  | .and => some (old &&& y)
  | .or => some (old ||| y)
  | .xor => some (old ^^^ y)
  | .min => some (if lt then old else y)
  | .max => some (if lt then y else old)
  | .minu => some (if old < y then old else y)
  | .maxu => some (if old < y then y else old)
  | .swap => some y
  | .cas => if old = x then some y else none

/-- Atomics accept RELAXED (R276). -/
def amoHints : Hints := ⟨false, 0b0100⟩

/-- The read-modify-write of an atomic at its home (R277, R278). -/
def amoHome (op : AmoOp) (h : Home) (ea n y x : Nat) : M Nat := do
  let old ← readHome h ea n
  match h with
  | .here a =>
    match op.new n old y x with
    | some w => act fun s => s.store a n w
    | none => pure ()
  | .remote _ _ _ => pure ()
  return old

/-- An atomic of R277 waits for the thread's relaxed stores (R272); without RELAXED it is a FENCE first (R278). -/
def amo (op : AmoOp) (d a b : Reg) (w : Bool) (s : State) : Host.Outcome State Fault Refusal :=
  issue aAll amoHints .user (seq do
    let n := if w then 8 else 4
    let ea := (← rdG a).toNat
    let y := (← rdG b).toNat % 2 ^ (8 * n)
    let x := (← rdG d).toNat % 2 ^ (8 * n)
    settleRelaxed
    if !(← modBit 2) then settleSent
    let h ← locate ea n true true
    orderRelaxed h n
    let old ← amoHome op h ea n y x
    wrG d (if w then BitVec.ofNat 64 old else int64 (sext 32 old))) s

/-- AMOADD (R277). -/
def execAmoadd (d a b : Reg) (w : Bool) (s : State) : Host.Outcome State Fault Refusal :=
  amo .add d a b w s

/-- AMOAND (R277). -/
def execAmoand (d a b : Reg) (w : Bool) (s : State) : Host.Outcome State Fault Refusal :=
  amo .and d a b w s

/-- AMOOR (R277). -/
def execAmoor (d a b : Reg) (w : Bool) (s : State) : Host.Outcome State Fault Refusal :=
  amo .or d a b w s

/-- AMOXOR (R277). -/
def execAmoxor (d a b : Reg) (w : Bool) (s : State) : Host.Outcome State Fault Refusal :=
  amo .xor d a b w s

/-- AMOMIN (R277). -/
def execAmomin (d a b : Reg) (w : Bool) (s : State) : Host.Outcome State Fault Refusal :=
  amo .min d a b w s

/-- AMOMAX (R277). -/
def execAmomax (d a b : Reg) (w : Bool) (s : State) : Host.Outcome State Fault Refusal :=
  amo .max d a b w s

/-- AMOMINU (R277). -/
def execAmominu (d a b : Reg) (w : Bool) (s : State) : Host.Outcome State Fault Refusal :=
  amo .minu d a b w s

/-- AMOMAXU (R277). -/
def execAmomaxu (d a b : Reg) (w : Bool) (s : State) : Host.Outcome State Fault Refusal :=
  amo .maxu d a b w s

/-- AMOSWAP (R277). -/
def execAmoswap (d a b : Reg) (w : Bool) (s : State) : Host.Outcome State Fault Refusal :=
  amo .swap d a b w s

/-- AMOCAS (R277). -/
def execAmocas (d a b : Reg) (w : Bool) (s : State) : Host.Outcome State Fault Refusal :=
  amo .cas d a b w s

/-! ## Sync objects (R279 to R285) -/

/-- The value a trap of R280 reports. -/
def syncTval (ea reason : Nat) : Word := BitVec.ofNat 64 (ea % 2 ^ 60 + ea / 2 ^ 63 * 2 ^ 60 + reason * 2 ^ 61)

/-- The trap of R280. -/
def syncTrap {α : Type} (ea reason : Nat) : M α := trap Cause.syncProtocol (syncTval ea reason)

/-- The lock word: held for writing, readers, and whether it breaks R280 reason 6. -/
def lockW (w : Word) : Bool := w.getLsbD 0
def lockReaders (w : Word) : Nat := bits w.toNat 1 15
def lockBad (w : Word) : Bool := bits w.toNat 16 16 != 0 || (lockW w && lockReaders w != 0)

/-- The lock word with W and READERS set, RELCNT added to. -/
def lockMake (w : Word) (wr : Bool) (readers rel : Nat) : Word :=
  BitVec.ofNat 64 ((if wr then 1 else 0) + readers % 2 ^ 15 * 2 + bits w.toNat 16 16 * 2 ^ 16 +
    (w.toNat / 2 ^ 32 + rel) % 2 ^ 32 * 2 ^ 32)

/-- Word 1 of the record for a write holder (R279). -/
def holderWord (s : State) (c : CoreName) (t : Thread) : Word :=
  BitVec.ofNat 64 (c.coordWord + (if t = .x then 2 ^ 28 else 0) + (s.ctxOf c) * 2 ^ 32)

/-- Whether a request is for writing, and word 1 of the record under it. -/
def SyncReq.write : SyncReq → Bool
  | .own _ _ wr => wr
  | .other _ _ wr _ => wr
def SyncReq.holder (s : State) : SyncReq → Word
  | .own c t _ => holderWord s c t
  | .other _ _ _ w => w

/-- Whether a request is a thread's of a core. -/
def SyncReq.of (c : CoreName) : SyncReq → Bool
  | .own d _ _ => d = c
  | .other _ _ _ _ => false

/-- The home answers a request: the thread that waits finds the answer; another device's goes to it. -/
def State.tellSync (s : State) (p : Pend) : SyncReq → State
  | .own c t _ => s.updTh c t fun h => { h with pend := p }
  | .other _ _ _ _ => s

/-- Grants the requests at the head of an object's queue whose conditions hold, at most `n` (R283, R285); one that would be granted by a
record with a bad granule issues again and meets it (R274). -/
def State.grantSync (s : State) (home : Nat) : Nat → State
  | 0 => s
  | n + 1 =>
    let q := Tbl.get [] s.syncq home
    match q with
    | [] => s
    | r :: rest =>
      let w := s.word home
      let pop := fun s : State => { s with syncq := Tbl.set [] s.syncq home rest }
      if (s.checkRead home 32).2.isSome then (pop (s.tellSync .none r)).grantSync home n
      else if lockBad w then (pop (s.tellSync (.syncBad s.ea) r)).grantSync home n
      else if r.write then
        if lockW w || lockReaders w != 0 then s
        else pop (((s.putWord home (lockMake w true 0 0)).putWord (home + 8) (r.holder s)).tellSync (.syncGranted 0 true) r)
      else
        if lockW w then s
        else (pop ((s.putWord home (lockMake w false (lockReaders w + 1) 0)).tellSync (.syncGranted 0 false) r)).grantSync home n

/-- As many grants as a queue holds requests. -/
def State.grantAll (s : State) (home : Nat) : State := s.grantSync home (Tbl.get [] s.syncq home).length

/-- Every home grants what its object's record allows: the record may have been changed by a plain store (R279, R285). -/
def State.regrant (s : State) : State := s.syncq.foldl (fun s q => s.grantAll q.1) s

/-- Whether a thread holds an object, and in which mode (R280). -/
def ThreadState.holds (h : ThreadState) (ea : Nat) : Option Bool :=
  (h.held.find? fun e => e.1.toNat = ea).map (·.2)

/-- The checks of an object's address, its record's granules read (R268, R280): its home, and at another device the lock word that
it answers with. -/
def syncHome (ea : Nat) : M (Home × Word) := do
  checkMap ea 32
  let h ← findHome ea true true
  orderRelaxed h 32
  match h with
  | .remote d ctx va => return (h, BitVec.ofNat 64 (← remoteTrap ea d ctx va 32))
  | .here p =>
    granuleTrap ea p (← ask fun s => s.checkRead p 32)
    return (h, ← ask fun s => s.word p)

/-- ACQ and ACQR (R283). The request joins the object's queue once; the grant is found when the instruction
issues again. A lock word that is not valid makes the home answer every request in the queue so. -/
def acquire (wr : Bool) (a : Reg) (s : State) : Host.Outcome State Fault Refusal :=
  issue aAll noHint .user (seq do
    let ea := (← rdG a).toNat
    let keep : M Unit := updMyTh fun h => { h with held := h.held ++ [(BitVec.ofNat 64 ea, wr)], pend := .none }
    match (← myThread).pend with
    | .syncGranted _ _ => keep
    | .syncBad _ => syncTrap ea 6
    | .syncAsked _ _ => wait .sync
    | _ =>
      settleRelaxed
      let h ← syncHome ea
      let t ← myThread
      if (t.holds ea).isSome then syncTrap ea 2
      if 4 ≤ t.held.length then syncTrap ea 3
      match h.1 with
      | .remote _ _ _ => if lockBad h.2 then syncTrap ea 6 else keep
      | .here p =>
        act fun s =>
          let s := s.updTh s.cur s.thr fun h => { h with pend := .syncAsked (BitVec.ofNat 64 ea) wr }
          let s := { s with syncq := Tbl.upd [] s.syncq p fun q => q ++ [SyncReq.own s.cur s.thr wr] }
          s.grantAll p
        match (← myThread).pend with
        | .syncGranted _ _ => keep
        | .syncBad _ => trapAll Cause.syncProtocol (syncTval ea 6)
        | _ => waitKeep .sync) s

/-- ACQ (R283). -/
def execAcq (a : Reg) (s : State) : Host.Outcome State Fault Refusal := acquire true a s

/-- ACQR (R283). -/
def execAcqr (a : Reg) (s : State) : Host.Outcome State Fault Refusal := acquire false a s

/-- The range of a region word relative to its object (R279). -/
def regionBase (ea : Nat) (w : Word) : Int := 64 * ((ea / 64 : Nat) : Int) + 64 * sext 26 (bits w.toNat 0 26)
def regionLen (w : Word) : Nat := 64 * bits w.toNat 26 16

/-- The flat ranges of the regions bound to an object that stands at p (R279, R282). -/
def State.boundTo (s : State) (ea p : Nat) : List (Nat × Nat) :=
  let f := s.readLE (p + 16) 16
  (List.range 3).map fun i =>
    let w : Word := BitVec.ofNat 64 (bits f (42 * i) 42)
    (((p : Int) + regionBase ea w - (ea : Int)).toNat, regionLen w)

/-- REL (R284): the thread's accesses to the record and its bound regions come first; then the home ends the hold in its mode and
grants what waits behind it (R285). -/
def execRel (a : Reg) (s : State) : Host.Outcome State Fault Refusal :=
  issue aAll noHint .user (seq do
    let ea := (← rdG a).toNat
    let h ← syncHome ea
    match (← myThread).holds ea with
    | none => syncTrap ea 1
    | some wr =>
      settleRelaxed
      if lockBad h.2 || (if wr then !lockW h.2 else lockReaders h.2 = 0) then syncTrap ea 6
      match h.1 with
      | .remote _ _ _ => pure ()
      | .here p =>
        if ← ask fun s => s.boundTo ea p |>.any fun r => s.landsIn s.cur r.1 r.2 then wait .fence
        act fun s =>
          let s := s.putWord p (if wr then lockMake h.2 false (lockReaders h.2) 1 else lockMake h.2 false (lockReaders h.2 - 1) 0)
          s.grantAll p
      updMyTh fun h => { h with held := h.held.filter fun e => e.1.toNat != ea }) s

/-- Whether a region named in the form of its object's near address lies in the object's target (R282). -/
def State.regionOk (s : State) (c : CoreName) (ea : Nat) (w : Word) : Bool :=
  let b := regionBase ea w
  let e := b + (regionLen w : Int)
  if regionLen w = 0 ∨ isExt ea = true then true
  else if ea < 2 ^ 16 then (s.xbOf c : Int) ≤ b && e ≤ 2 ^ 16
  else if ea < 2 ^ 31 then 2 ^ 20 ≤ b && e ≤ 2 ^ 21
  else
    let base : Int := ((ea / 2 ^ 20 * 2 ^ 20 : Nat) : Int)
    if winTarget ea = 8 then base ≤ b && e ≤ base + 2 ^ 20
    else match s.nearHome c ea with
      | .at_ (.here p) =>
        let low := p - ea % 2 ^ 20
        base ≤ b && e ≤ base + 2 ^ 16 && (s.nearHome c b.toNat == .at_ (.here (low + b.toNat % 2 ^ 20)))
      | _ => false

/-- BIND (R282): region slot i of the object receives the region word. -/
def execBind (i a b : Reg) (s : State) : Host.Outcome State Fault Refusal :=
  issue aAll noHint .user (seq do
    let ea := (← rdG a).toNat
    let w ← rdG b
    settleRelaxed
    let h ← syncHome ea
    if (← myThread).holds ea ≠ some true then syncTrap ea 4
    if bits w.toNat 42 22 ≠ 0 ∨ (← ask fun s => s.regionOk s.cur ea w) = false then syncTrap ea 5
    match h.1 with
    | .remote _ _ _ => pure ()
    | .here p =>
      act fun s =>
        let f := s.readLE (p + 16) 16
        let lo := 42 * i.val
        s.writeLE (p + 16) 16 (f - bits f lo 42 * 2 ^ lo + bits w.toNat 0 42 * 2 ^ lo)) s

/-- FENCE (R287, R291): the thread's relaxed stores are performed, and for another scope than its own the records it has sent
are delivered (R293); every other access it made already is performed. DEDUCED, entry 8. -/
def execFence (scope : Reg) (s : State) : Host.Outcome State Fault Refusal :=
  issue aAll noHint .user (seq (if scope.val = 0 then settleRelaxed else fenceAll)) s

/-- DISCARD (R286). -/
def execDiscard (m a b : Reg) (s : State) : Host.Outcome State Fault Refusal :=
  issue aAll noHint .user (seq do
    settleRelaxed
    let lo := (← rdG a).toNat
    let len := (← rdG b).toNat
    act fun s => { s with ea := BitVec.ofNat 64 lo }
    match (← ask State.cur).octet? with
    | none => trap Cause.localRange (BitVec.ofNat 64 lo)
    | some o =>
      if lo < 2 ^ 20 ∨ 2 ^ 21 ≤ lo ∨ 2 ^ 21 < lo + len then trap Cause.localRange (BitVec.ofNat 64 lo)
      if lo % 4096 ≠ 0 then trap Cause.misaligned (BitVec.ofNat 64 lo)
      if len % 4096 ≠ 0 then trap Cause.misaligned (BitVec.ofNat 64 len)
      let mask : BitVec 256 := BitVec.ofNat 256 ((2 ^ (len / 4096) - 1) * 2 ^ ((lo - 2 ^ 20) / 4096))
      act fun s => s.updOctet o fun q => { q with dmask := if m.val = 0 then q.dmask ||| mask else q.dmask &&& ~~~mask }) s

/-! ## Steps of the memory system -/

/-- RELAXED_STORE_ACK: a relaxed store of a core's A-thread is performed (R272). -/
def execRelaxedStoreAck (c : CoreName) (s : State) : Host.Outcome State Fault Refusal := event (fun s => s.ackRelaxed c) s

/-- ACCESS_PERFORMED: a thread's access that the router held toward an octet now in place leaves the wait; the
instruction performs it, once, when it issues (R266, R269). -/
def execAccessPerformed (c : CoreName) (t : Thread) (s : State) : Host.Outcome State Fault Refusal :=
  event (fun s =>
    match (s.th c t).pend with
    | .held ea =>
      match s.nearHome c ea.toNat with
      | .held => s
      | _ => s.updTh c t fun h => { h with st := if h.st = .wait then .run else h.st, pend := .none }
    | _ => s) s

end Sys2Proof.Machine
end

