-- ==== Sys2Proof/Machine/Stream.lean ====
section
/-! DEFINITION. Streams, the control queues and the repetition buffer: majors 0x14 to 0x16, and the steps a stream
slot makes by itself (chapter The stream). -/

namespace Sys2Proof.Machine

/-- The A-thread of compute and memory cores, and either thread of them. -/
def aStream : Who := ⟨true, false, [.compute, .memory]⟩
def axStream : Who := ⟨true, true, [.compute, .memory]⟩

/-- A misuse of a stream (R153). -/
def streamMisuse {α : Type} (n : Nat) : M α := trap Cause.queueProtocol (BitVec.ofNat 64 n)

/-! ## Configuration (R142, R146 to R148) -/

/-- A mode word with no reserved bit set and no reserved value (R142). -/
def modeOk (w : Word) : Bool :=
  w.toNat < 1024 && bits w.toNat 1 3 ≤ 4 && (!w.getLsbD 7 || (w.getLsbD 0 && bits w.toNat 1 3 = 4))

/-- Changing a slot's staging descriptor (R147). -/
def updStaging (n : Fin 4) (f : Desc → Desc) : M Unit :=
  updMy fun k => k.updSlot n.val fun q => { q with staging := f q.staging }

/-- SCFG (R147). -/
def execScfg (n : Fin 4) (a b : Reg) (s : State) : Host.Outcome State Fault Refusal :=
  issue aStream noHint .user (seq do
    let base ← rdG a
    let mode ← rdG b
    if !modeOk mode then streamMisuse 7
    updStaging n fun d => { d with base := base, mode := mode, manual := false, idx := none }) s

/-- A dimension's bound and stride. -/
def Desc.setDim (d : Desc) (k : Fin 4) (bound : Nat) (stride : Int) : Desc :=
  if k = 0 then { d with n0 := bound, s0 := stride }
  else if k = 1 then { d with n1 := bound, s1 := stride }
  else if k = 2 then { d with n2 := bound, s2 := stride }
  else { d with n3 := bound, s3 := stride }

/-- SDIM (R147). -/
def execSdim (k n : Fin 4) (a b : Reg) (s : State) : Host.Outcome State Fault Refusal :=
  issue aStream noHint .user (seq do
    let bound ← rdG a
    let stride ← rdG b
    if 2 ^ 32 ≤ bound.toNat then streamMisuse 7
    updStaging n fun d => d.setDim k bound.toNat stride.toInt) s

/-- SIND (R147). -/
def execSind (n m : Fin 4) (b : Reg) (s : State) : Host.Outcome State Fault Refusal :=
  issue aStream noHint .user (seq do
    let w ← rdG b
    if 8 ≤ w.toNat then streamMisuse 7
    updStaging n fun d => { d with idx := some (m, w.toNat) }) s

/-- SMAN (R147). -/
def execSman (n : Fin 4) (b : Reg) (s : State) : Host.Outcome State Fault Refusal :=
  issue aStream noHint .user (seq do
    let mode ← rdG b
    if !modeOk mode || mode.getLsbD 5 || bits mode.toNat 8 2 != 0 then streamMisuse 7
    updStaging n fun d => { d with mode := mode, manual := true, idx := none }) s

/-- A direct read of 4- or 8-byte elements, as an index slot stages it (R144, R148). -/
def Desc.indexable (d : Desc) : Bool := d.idx.isNone && !d.manual && !d.write && (d.esize = 2 || d.esize = 3)

/-- The staged element count (R143, R144). -/
def Core.stagedCount (k : Core) (d : Desc) : Nat :=
  match d.idx with
  | some i => (k.slot i.1.val).staging.count
  | none => if d.manual then 0 else d.count

/-- Check 3 of R148 fails. -/
def Core.indexRefused (k : Core) (n : Fin 4) (d : Desc) : Bool :=
  match d.idx with
  | none => false
  | some i =>
    let m := k.slot i.1.val
    (m.state != .off && m.serves != some n) || !m.staging.indexable

/-- Check 4 of R148 fails. -/
def Slot.kindDiffers (q : Slot) : Bool :=
  q.state != .off &&
    (q.staging.write != q.cur.own.write || q.staging.esize != q.cur.own.esize || q.staging.manual != q.cur.own.manual ||
      q.staging.idx.isSome != q.cur.own.idx.isSome) &&
    !((q.state = .idle || q.state = .ended) && q.queue.isEmpty && q.store.isEmpty)

/-- SEN's effect (R148, R149): staging becomes the current or the pending descriptor. -/
def Slot.commit (q : Slot) (ix : Desc) : Slot :=
  let d : DescPair := ⟨q.staging, ix, q.commits + 1⟩
  let q := { q with commits := q.commits + 1 }
  match q.state with
  | .active => { q with pending := some d }
  | .faulted => { q with pending := some d }
  | _ => ({ q with state := .active, cur := d, next := 0 }).settled

/-- SEN (R148). -/
def execSen (n : Fin 4) (s : State) : Host.Outcome State Fault Refusal :=
  issue aStream noHint .user (seq do
    let k ← myCore
    let q := k.slot n.val
    if q.serves.isSome then streamMisuse 8
    if 2 ^ 48 ≤ k.stagedCount q.staging then streamMisuse 7
    if k.indexRefused n q.staging then streamMisuse 7
    if q.kindDiffers then streamMisuse 8
    if q.pending.isSome then waitAs .stream (.sen n)
    coverStores
    let ix := match q.staging.idx with
      | some i => (k.slot i.1.val).staging
      | none => Desc.init
    updMy fun k => k.moveSlot n fun q => q.commit ix) s

/-! ## Addresses and memory (R143 to R145) -/

/-- The address of element k of a direct descriptor (R143). -/
def Desc.addr (d : Desc) (k : Nat) : Int :=
  let n := d.ndim
  let b1 := if 1 < n then d.n1 else 1
  let b2 := if 2 < n then d.n2 else 1
  (d.base.toNat : Int) + (k % d.n0 : Nat) * d.s0 + (if 1 < n then (k / d.n0 % b1 : Nat) * d.s1 else 0) +
    (if 2 < n then (k / (d.n0 * b1) % b2 : Nat) * d.s2 else 0) + (if 3 < n then (k / (d.n0 * b1 * b2) : Nat) * d.s3 else 0)

/-- The alignment of an element (R145). -/
def Desc.align (d : Desc) : Nat := if d.esize = 4 then 64 else d.bytes

/-- The target of the near map that a byte belongs to (R145, R263, R264). -/
def nearTarget (ea : Nat) : Nat := if ea < 2 ^ 16 then 0 else if ea < 2 ^ 31 then 1 else ea / 2 ^ 20

/-- Whether every byte of an element is a near address of one target. -/
def State.nearElement (s : State) (c : CoreName) (addr : Int) (n : Nat) : Bool :=
  decide (0 ≤ addr ∧ addr + n ≤ 2 ^ 32) &&
    (List.range n).all fun i => s.mapOk c (addr.toNat + i) && nearTarget (addr.toNat + i) = nearTarget addr.toNat

/-- An element's bytes by the sectors they lie in: neighbouring ones may have different homes (R418). -/
def pageSpans (ea n : Nat) : List (Nat × Nat) :=
  let first := min n (1024 - ea % 1024)
  if first = n then [(ea, n)] else [(ea, first), (ea + first, n - first)]

/-- The checks of R145, and where the element's bytes live. DESIGN CHOICE, entry 13: TVAL of MISALIGNED and LOCAL_RANGE on a
memory core is the offset itself, without bit 63, which R110 sets for PAGE_FAULT; ACCESS_RIGHTS and the ECC causes give the
address that was translated, with it. -/
def streamLocate (addr : Int) (n align : Nat) (rd wr : Bool) : M (List (Home × Nat × Nat)) := do
  let s ← get
  let far := s.cur.kind = .memory
  if far then
    if addr < 0 ∨ 2 ^ 60 < addr + n then trap Cause.localRange (int64 addr)
  else if !s.nearElement s.cur addr n then trap Cause.localRange (int64 addr)
  if addr % (align : Int) ≠ 0 then trap Cause.misaligned (int64 addr)
  (pageSpans ((if far then 2 ^ 63 else 0) + addr.toNat) n).mapM fun p => do return (← findPlace p.1 rd wr, p.1, p.2)

/-- The line accesses of an element's parts (R296). -/
def touchSpans (write : Bool) (l : List (Home × Nat × Nat)) : M Unit :=
  act fun s => l.foldl (fun s p => s.touchHome s.cur p.2.1 p.2.2 p.1 false write) s

/-- Reading an element: every granule examined first (R274). -/
def streamRead (addr : Int) (n align : Nat) : M Nat := do
  let l ← streamLocate addr n align true false
  touchSpans false l
  examineSpans (l.filterMap fun p => match p.1 with | .here a => some (p.2.1, a, granules a p.2.2) | .remote _ _ _ => none)
  let parts ← l.mapM fun p => do return (← readHome p.1 p.2.1 p.2.2, p.2.2)
  return (parts.foldr (fun p acc => p.1 + acc * 256 ^ p.2) 0)

/-- How many of the byte lanes that are written lie in a granule: `o` is the lane of the byte at flat address a, of n bytes. -/
def lanesIn (a n o g : Nat) (lanes : PWord) : Nat :=
  (List.range n).countP fun i => granStart (a + i) = g && lanes.getLsbD (o + i)

/-- Writing an element: the byte lanes of a mask, or every byte (R142). A granule whose bytes are all written is replaced, one of
which none is written is left, and any other is a read-modify-write that is examined first (R275). -/
def streamWrite (addr : Int) (n align : Nat) (lanes : PWord) (w : Nat) : M Unit := do
  let l ← streamLocate addr n align false true
  let start := match l with
    | p :: _ => p.2.1
    | [] => 0
  let inPart := fun (a m o g : Nat) => lanesIn a m o g lanes
  touchSpans true l
  examineSpans (l.filterMap fun p => match p.1 with
    | .here a => some (p.2.1, a, (granules a p.2.2).filter fun g =>
        !isCxl a && inPart a p.2.2 (p.2.1 - start) g != 0 && inPart a p.2.2 (p.2.1 - start) g != granule g)
    | .remote _ _ _ => none)
  l.forM fun p => match p.1 with
    | .here _ => pure ()
    | .remote d ctx va => do
      let _ ← remoteTrap p.2.1 d ctx va p.2.2
  l.forM fun p => match p.1 with
    | .here a =>
      let o := p.2.1 - start
      act fun s =>
        let full := (granules a p.2.2).filter fun g => inPart a p.2.2 o g = granule g
        { s with marks := s.marks.filter fun m => !full.contains m.1 }.writeLanes a (lanes.toNat / 2 ^ o) p.2.2 (w / 256 ^ o)
    | .remote _ _ _ => pure ()

/-- Doing something in the name of a core's thread that no instruction of it does: a failure comes back as its cause
and value, an access held on its way as none. -/
def State.attempt {α : Type} (s : State) (c : CoreName) (t : Thread) (m : M α) :
    State × Except (Option (BitVec 8 × Word)) α :=
  let back := fun (x : State) => { x with cur := s.cur, thr := s.thr, ea := s.ea }
  let s' := { s with cur := c, thr := t }
  match m s' with
  | .ok r => (back r.2, .ok r.1)
  | .error (.trap cause v edit) => (back (edit s'), .error (some (cause, v)))
  | .error (.wait _ _) => (s, .error none)

/-! ## The steps of a slot (R151 to R162) -/

/-- Whether a queue holds a fault mark. -/
def Slot.marked (q : Slot) : Bool := q.queue.any fun e => match e.elem with | .mark _ _ _ => true | _ => false

/-- Whether a slot can generate its next address (R151, R154, R162). -/
def Slot.generates (q : Slot) : Bool :=
  q.state = .active && !q.cur.own.manual && !q.marked && q.queue.length < 16 && q.next < q.cur.count && q.serves.isNone

/-- An entry at the end of a queue; a generated one moves the generation position. -/
def Slot.enqueue (q : Slot) (e : Elem) : Slot :=
  let entry : Entry := ⟨q.cur, q.next, e⟩
  ({ q with queue := q.queue ++ [entry], next := q.next + 1 }).settled

/-- The entry for an element at an address: requested, or a fault mark (R145, R154). DEDUCED, entry 13. -/
def State.request (s : State) (c : CoreName) (d : Desc) (addr : Int) : State × Elem :=
  let r := s.attempt c .x (streamLocate addr d.bytes d.align (!d.write) d.write)
  match r.2 with
  | .error (some f) => (r.1, .mark f.1 (int64 addr) false)
  | _ => (r.1, .requested addr)

/-- Generating the next address of a slot, its index element read first (R143, R144, R154). -/
def State.streamRequest (s : State) (c : CoreName) (n : Fin 4) : State :=
  let q := (s.core c).slot n.val
  let put := fun (s : State) (e : Elem) => s.updCore c fun k => k.moveSlot n fun q => q.enqueue e
  if !q.generates then s
  else
    let d := q.cur.own
    match d.idx with
    | none =>
      let r := s.request c d (d.addr q.next)
      put r.1 r.2
    | some i =>
      let x := q.cur.ix
      let at_ := x.addr q.next
      match s.attempt c .x (streamRead at_ x.bytes x.bytes) with
      | (s', .ok v) =>
        let v : Int := if x.signed then sext (8 * x.bytes) v else (v : Int)
        let r := s'.request c d ((d.base.toNat : Int) + v * 2 ^ i.2)
        put r.1 r.2
      | (s', .error (some f)) => put s' (.mark f.1 (int64 at_) true)
      | (_, .error none) => s

/-- STREAM_REQUEST (R143 to R145, R162); a checked pair's slots move together, what leaves the core being read and written once (R416). -/
def execStreamRequest (c : CoreName) (n : Fin 4) (s : State) : Host.Outcome State Fault Refusal :=
  event (fun s => s.pairStep c 0 fun s => s.streamRequest c n) s

/-- Replaces the first entry that is requested and not arrived. -/
def arrive (e : Elem) : List Entry → List Entry
  | [] => []
  | x :: xs => match x.elem with
    | .requested _ => { x with elem := e } :: xs
    | _ => x :: arrive e xs

/-- The first entry requested and not arrived. -/
def firstRequested (l : List Entry) : Option (Entry × Int) :=
  l.findSome? fun e => match e.elem with | .requested a => some (e, a) | _ => none

/-- A requested element arrives, or a failure of its read does (R151, R154). -/
def State.streamArrival (s : State) (c : CoreName) (n : Fin 4) : State :=
  let q := (s.core c).slot n.val
  match firstRequested q.queue with
  | none => s
  | some (e, addr) =>
    let d := e.desc.own
    if d.write then s
    else
      let put := fun (s : State) (x : Elem) => s.updCore c fun k => k.updSlot n.val fun q => { q with queue := arrive x q.queue }
      match s.attempt c .x (streamRead addr d.bytes d.align) with
      | (s', .ok v) => put s' (.value (BitVec.ofNat 1024 v))
      | (s', .error (some f)) => put s' (.mark f.1 (int64 addr) false)
      | (_, .error none) => s

/-- STREAM_ELEMENT_ARRIVAL (R151, R160). -/
def execStreamElementArrival (c : CoreName) (n : Fin 4) (s : State) : Host.Outcome State Fault Refusal :=
  event (fun s => s.pairStep c 0 fun s => s.streamArrival c n) s

/-- The oldest pushed element is written at the oldest generated address, or fails there (R157, R160). -/
def State.streamPerform (s : State) (c : CoreName) (n : Fin 4) : State :=
  let q := (s.core c).slot n.val
  match q.late, q.queue, q.store with
  | none, ⟨d, k, .requested addr⟩ :: _, p :: _ =>
    if !d.own.write then s
    else
      let lanes := if d.own.maskw then p.lanes else BitVec.allOnes 128
      let pop := fun (s : State) late => s.updCore c fun k => k.moveSlot n fun q =>
        { q with queue := q.queue.drop 1, store := q.store.drop 1, done := q.done + 1, late := late }
      match s.attempt c .x (streamWrite addr d.own.bytes d.own.align lanes p.v.toNat) with
      | (s', .ok _) => pop s' none
      | (s', .error (some f)) => pop s' (some (f.1, int64 addr, d, k))
      | (_, .error none) => s
  | _, _, _ => s

/-- The address of the oldest element of a slot. -/
def State.slotAddress (s : State) (c : CoreName) (n : Fin 4) : Word :=
  match ((s.core c).slot n.val).queue with
  | ⟨_, _, .requested a⟩ :: _ => int64 a
  | _ => 0

/-- STREAM_WRITE_PERFORM (R157, R160). -/
def execStreamWritePerform (c : CoreName) (n : Fin 4) (s : State) : Host.Outcome State Fault Refusal :=
  event (fun s => s.pairStep c (s.slotAddress c n) fun s => s.streamPerform c n) s

/-! ## SFLUSH and SDIS (R157, R158, R161) -/

/-- Whether a flush of a write slot still has a write to wait for: a covered element that is not performed (R158, R161). -/
def Slot.mustWait (q : Slot) : Bool := q.done < q.covered

/-- What SFLUSH and SDIS of a write slot do first; a slot that has FAULTED goes on generating meanwhile, for its elements are not
performed before (R149, R158). DEDUCED, entry 13. -/
def flushWrites (n : Fin 4) (q : Slot) : M Unit := do
  match q.late with
  | some l => lateFault n l.1 l.2.1 l.2.2.1 l.2.2.2
  | none => pure ()
  if q.mustWait then
    waitWith .stream fun s =>
      if q.state = .faulted then s.updCore s.cur fun k => k.moveSlot n Slot.restart else s

/-- SFLUSH on a read slot (R158): everything not popped is generated again. -/
def Slot.flushRead (q : Slot) : Slot :=
  match q.queue with
  | [] => if q.state = .faulted then q.restart else q
  | e :: rest =>
    if q.cur.own.manual then { q with queue := [], next := e.k, state := .active }
    else ({ q.rewind e.desc e.k rest with queue := [], state := .active }).settled

/-- The checks and the order both instructions share: an index slot is not named directly (R150), and a slot that is
OFF has nothing to act on. -/
def withSlot (n : Fin 4) (f : Slot → M Unit) : M Unit := do
  let q := (← myCore).slot n.val
  if q.serves.isSome then streamMisuse 8
  if q.state ≠ .off then
    coverStores
    if q.cur.own.write then flushWrites n q
    f q

/-- SFLUSH (R158). -/
def execSflush (n : Fin 4) (s : State) : Host.Outcome State Fault Refusal :=
  issue aStream noHint .user (seq do
    withSlot n fun q => updMy fun k => k.moveSlot n fun q' =>
      if q.cur.own.write then (if q'.state = .faulted then q'.restart else q') else q'.flushRead) s

/-- SDIS (R149, R158): the slot and its index slot are as after reset, and its aliases are dead registers. DEDUCED, entry 13. -/
def execSdis (n : Fin 4) (s : State) : Host.Outcome State Fault Refusal :=
  issue aStream noHint .user (seq do
    withSlot n fun _ => updMy fun k =>
      let m : BitVec 32 := BitVec.ofNat 32 (2 ^ (28 + n.val))
      ((k.moveSlot n fun q =>
        { Slot.init with commits := q.commits, pushed := q.pushed, done := q.pushed }).killF m).killV m) s

/-! ## Manual slots (R159) -/

/-- LDQ and STQ accept the NT hint (R45, R159). -/
def ntHint : Hints := ⟨false, 2⟩

/-- The slot check of both (R159). -/
def manualSlot (n : Fin 4) (wr : Bool) : M Slot := do
  let q := (← myCore).slot n.val
  if q.state = .off ∨ q.serves.isSome = true ∨ q.cur.own.manual = false ∨ q.cur.own.write ≠ wr then streamMisuse 9
  return q

/-- LDQ (R159). -/
def execLdq (n : Fin 4) (a : Reg) (s : State) : Host.Outcome State Fault Refusal :=
  issue aStream ntHint .user (seq do
    let addr ← rdG a
    let q ← manualSlot n false
    if 16 ≤ q.queue.length then wait .stream
    coverStores
    let s ← get
    let r := s.request s.cur q.cur.own (addr.toNat : Int)
    set r.1
    updMy fun k => k.updSlot n.val fun q =>
      { q with queue := q.queue ++ [⟨q.cur, q.next, r.2⟩], next := q.next + 1 }) s

/-- STQ (R159). -/
def execStq (n : Fin 4) (a : Reg) (s : State) : Host.Outcome State Fault Refusal :=
  issue aStream ntHint .user (seq do
    let addr ← rdG a
    let q ← manualSlot n true
    match q.store with
    | [] => waitAs .stream (.stq n)
    | p :: rest =>
      coverStores
      let d := q.cur.own
      act fun s => { s with ea := addr }
      streamWrite (addr.toNat : Int) d.bytes d.align (if d.maskw then p.lanes else BitVec.allOnes 128) p.v.toNat
      updMy fun k => k.updSlot n.val fun q => { q with store := rest, done := q.done + 1 }) s

/-! ## Control queues (R92 to R94, R161, R167) -/

/-- The elements pushed so far, by slot. -/
def Core.pushTags (k : Core) : List Nat := [0, 1, 2, 3].map fun n => (k.slot n).pushed

/-- QPUT (R167): the A-thread puts to AXQ, a release (R93, R292), the X-thread to XAQ, of 8 entries each. -/
def execQput (a : Reg) (s : State) : Host.Outcome State Fault Refusal :=
  issue axStream noHint .user (seq do
    checkR [fIn a]
    let t ← ask State.thr
    let k ← myCore
    if 8 ≤ (match t with | .a => k.axq.length | .x => k.xaq.length) then waitAs .queue .put
    let w ← rdR a
    if t = .a then release
    updMy fun k => match t with
      | .a => { k with axq := k.axq ++ [w] }
      | .x => { k with xaq := k.xaq ++ [w], xaqTags := k.xaqTags ++ [k.pushTags] }) s

/-- What a QGET of the A-thread makes its flushes cover (R161). -/
def Core.coverTags (k : Core) (tags : List Nat) : Core :=
  [0, 1, 2, 3].foldl (fun k n =>
    if (k.slot n).state = .off then k
    else k.updSlot n fun q => { q with covered := max q.covered (tags.getD n 0) }) k

/-- QGET (R167). -/
def execQget (d : Reg) (s : State) : Host.Outcome State Fault Refusal :=
  issue axStream noHint .user (seq do
    checkR [fOut d]
    let t ← ask State.thr
    let k ← myCore
    match t, k.axq, k.xaq with
    | .a, _, w :: rest =>
      updMy fun k => ({ k with xaq := rest, xaqTags := k.xaqTags.drop 1 }).coverTags (k.xaqTags.headD [])
      wrR d w
    | .x, w :: rest, _ =>
      updMy fun k => { k with axq := rest }
      wrR d w
    | _, _, _ => waitAs .queue .take) s

/-! ## The repetition buffer (R164 to R166) -/

/-- Whether a body word is an instruction that the thread may issue and that RPT allows (R165). -/
def bodyAllowed (k : Kind) (w : BitVec 32) : Bool :=
  let m := fld w.toNat 26 6
  let fn := fld w.toNat 0 11
  (checkWord w.toNat).isNone &&
    ((0x20 ≤ m && m ≤ 0x23) || (0x28 ≤ m && m ≤ 0x2E) || (0x30 ≤ m && m ≤ 0x32 && k = .compute) ||
      (m = 0x15 && (fn = 2 || fn = 3)) || (m = 2 && fld w.toNat 12 4 = 9))

/-- RPT (R164, R165): after its checks the body is captured and RPTSTAT set. DEDUCED, entry 13. DESIGN CHOICE, entry 13: R153's
misuse of the count's register is checked after R165's three checks, an order that neither rule gives. -/
def execRpt (a : Reg) (m : BitVec 4) (p : Fin 4) (l : Fin 16) (s : State) : Host.Outcome State Fault Refusal :=
  issue xAll noHint .user (do
    let s ← get
    let pc := (s.th s.cur .x).pc
    let n := l.val + 1
    let addrs := (List.range n).map fun j => pc + 4 + 4 * j
    match addrs.find? fun q => decide (s.xbOf s.cur ≤ q) with
    | some q => trap Cause.fetchBoundary (BitVec.ofNat 64 q)
    | none => pure ()
    granuleTrap (pc + 4) (localBase s.cur + pc + 4) (s.checkRead (localBase s.cur + pc + 4) (4 * n))
    let body : List (BitVec 32) := addrs.map fun q => BitVec.ofNat 32 (s.readLE (localBase s.cur + q) 4)
    if body.any fun w => fld w.toNat 26 6 = 1 then trap Cause.hintMisuse (s.ir.setWidth 64)
    match body.find? fun w => !bodyAllowed s.cur.kind w with
    | some w => trap Cause.illegalInstr (w.setWidth 64)
    | none => pure ()
    checkAliases [fIn a]
    let count : BitVec 24 := (← rdF a).setWidth 24
    if count = 0 then return .to (pc + 4 + 4 * n)
    updMy fun k => { k with rpt := ⟨true, 0, BitVec.ofNat 4 l.val, BitVec.ofNat 2 p.val, m, 0, count⟩, rptBody := body }
    return .to (pc + 4)) s

/-- The register fields d, a, b, c of a word that RPT may stagger, bit 0 for d (R165): those naming g, f or v
registers, and those naming predicates. -/
def staggerFields (w : Nat) : Nat × Nat :=
  let op := fld w 0 4
  let fn := fld w 0 11
  match fld w 26 6 with
  | 0x15 => if fn = 2 then (2, 0) else (1, 0)
  | 0x20 => if op = 4 ∨ 10 ≤ op then (3, 0) else (7, 0)
  | 0x21 => (15, 0)
  | 0x22 => if 1 ≤ op ∧ op ≤ 4 then (7, 0) else (3, 0)
  | 0x23 => if op = 15 then (1, 0) else (7, 0)
  | 0x28 => (7, 0)
  | 0x29 => if op = 4 ∨ op = 7 ∨ op = 8 then (3, 0) else if 9 ≤ op ∧ op ≤ 11 then (6, 1) else (7, 0)
  | 0x2A => (15, 0)
  | 0x2B => if [0, 2, 3, 9, 10, 11].contains op then (7, 0) else (3, 0)
  | 0x2C => if op < 3 then (0, 7) else if op = 3 then (0, 3) else if op < 10 then (6, 1) else (1, 2)
  | 0x2D => if op < 3 then (3, 0) else if op = 3 then (2, 0) else (1, 0)
  | 0x2E => if op = 0 then (3, 0) else if op = 1 then (6, 0) else if op = 3 then (1, 0) else (7, 0)
  | 0x30 => if fn = 5 then (3, 0) else if fn = 6 then (0, 0) else if fn = 7 then (5, 0) else (7, 0)
  | 0x31 =>
    if fn = 1 ∨ 7 ≤ fn ∧ fn ≤ 9 then (2, 0) else if fn = 2 ∨ fn = 3 ∨ fn = 5 then (6, 0) else (3, 0)
  | 0x32 => if fn = 0 then (6, 0) else if fn = 1 then (5, 0) else if fn = 0x11 then (2, 0) else if fn = 0x13 then (3, 0) else (6, 0)
  | _ => (0, 0)

/-- One field of a word moved on by an offset, modulo a register count. -/
def addField (w lo n off : Nat) : Nat := w - fld w lo 5 * 2 ^ lo + (fld w lo 5 + off) % n * 2 ^ lo

/-- A body word of an iteration (R165). -/
def stagger (w mask off : Nat) : Nat :=
  let f := staggerFields w
  [(0, 21), (1, 16), (2, 11), (3, 6)].foldl (fun w p =>
    if (mask / 2 ^ p.1) % 2 = 0 then w
    else if (f.1 / 2 ^ p.1) % 2 = 1 then addField w p.2 32 off
    else if (f.2 / 2 ^ p.1) % 2 = 1 then addField w p.2 8 off
    else w) w

/-- The word that a repetition issues next, if one is in progress with its body captured (R165). -/
def Core.rptWord (k : Core) : Option (BitVec 32) :=
  if k.rpt.active then
    let r := k.rpt
    let next := k.x.hint.isSome
    let j := if next = true then (r.body.toNat + 1) % (r.len.toNat + 1) else r.body.toNat
    let iter := if next = true ∧ r.body = r.len then r.iter.toNat + 1 else r.iter.toNat
    (k.rptBody[j]?).map fun w => BitVec.ofNat 32 (stagger w.toNat r.mask.toNat (iter % 2 ^ r.period.toNat))
  else none

end Sys2Proof.Machine
end

