-- ==== Sys2Proof/Machine/Fetch.lean ====
section
/-! DEFINITION. The turns of the device's threads: time, which thread may issue, where its next word comes from, and
where a word is placed so that it is the next one issued (chapter The thread and its core). -/

namespace Sys2Proof.Machine

/-! ## Time -/

/-- The 2^−16 ns of one cycle of the core clock, 800 MHz (R18, R446). -/
abbrev cycleFrac : Nat := 81920

/-- The servo's slew in the coming cycles, in parts per thousand million: at most 200 parts per million while it is locked, none
while it is not, and the last one for ever once the management core has stopped (R115, R446). DESIGN CHOICE, entry 5. -/
def State.servo (s : State) : State :=
  if s.life.mstop then s
  else if s.time.locked then
    let k := s.fresh
    { k.2 with slewRate := (((Config.freeWord k.1).toNat % 400001 : Nat) : Int) - 200000 }
  else { s with slewRate := 0 }

/-- Device time moved on by a number of 2^−16 ns (R446). -/
def Stamp.add (t : Stamp) (frac : Nat) : Stamp :=
  let f := t.frac + frac
  let n := t.ns + f / 65536
  { t with frac := f % 65536, ns := n % 1000000000, sec := t.sec + BitVec.ofNat 48 (n / 1000000000) }

/-- The cycles that pass between one turn and the next. DESIGN CHOICE, entry 6. -/
def State.tick (s : State) (dt : Nat) : State :=
  let t := s.servo
  let n : Int := ((dt * cycleFrac : Nat) : Int)
  { t with cycle := s.cycle + dt, time := s.time.add (n + (n * t.slewRate).tdiv 1000000000).toNat }

/-! ## Which thread issues what -/

/-- Whether a core of a vacating group stands stopped (R405): by its edge stop, because its A-thread does not run, or by
the deadline. -/
def State.stopped (s : State) (c : CoreName) : Bool :=
  match s.vacating c with
  | none => false
  | some v => let k := s.core c; k.edgeStop || v.deadline || v.saving || !(k.a.st = .run || k.a.st = .trap)

/-- Whether a thread has a next instruction to issue (R96, R405, R416, R464): its island runs; the follower of a checked pair issues with its
leader; in a core that stands stopped because its A-thread waits, the A-thread goes on when its reason clears. -/
def State.canIssue (s : State) (c : CoreName) (t : Thread) : Bool :=
  let k := s.core c
  let st := (k.th t).st
  (st = .run || st = .wait || st = .trap) && (t = .a || c.hasX) && s.coreRuns c && !(k.gang.compare && k.gang.follower) &&
    match s.vacating c with
    | none => true
    | some v => !k.edgeStop && !v.deadline && !v.saving && (t = .a || !s.stopped c)

/-- Where the current thread's next word comes from. -/
inductive NextWord where
  | word (s : State)
  | outside
  | bad
  | nothing
  deriving DecidableEq, Repr

/-- The word at the program counter (R116, R118). DESIGN CHOICE, entry 15: a return to a TPC above 0x1_0000 is a fetch past the
boundary too. -/
def State.fetchWord (s : State) : NextWord :=
  let pc := (s.th s.cur s.thr).pc
  if s.xbOf s.cur ≤ pc then .outside
  else if (s.checkRead (localBase s.cur + pc) 4).2.isSome then .bad
  else .word { s with ir := BitVec.ofNat 32 (s.readLE (localBase s.cur + pc) 4) }

/-- The next word of the current thread: forwarded over the yarn to a follower (R125, R126), a body word of a
repetition (R165), or fetched. -/
def State.nextWord (s : State) : NextWord :=
  let k := s.core s.cur
  if s.follows then
    match k.gang.buf with
    | [] => .nothing
    | (w, pc, _) :: _ => .word ({ s with ir := w }.updTh s.cur .a fun h => { h with pc := pc })
  else if s.thr = .x then
    match k.rptWord with
    | some w => .word { s with ir := w }
    | none => s.fetchWord
  else s.fetchWord

/-! ## Placing a word -/

/-- The kind of core and the thread that may issue a word (R37, R38). DESIGN CHOICE, entry 2. -/
def wordPlace (w : Nat) : CoreName × Thread :=
  let m := fld w 26 6
  let fn := fld w 0 11
  let compute := CoreName.compute ⟨0, 0⟩ 0
  if (0x20 ≤ m ∧ m ≤ 0x32) ∨ m = 5 ∨ m = 0x16 then (compute, .x)
  else if m = 6 ∧ fn ≠ 0 ∧ fn ≠ 4 then (compute, .x)
  else if m = 0x3B then (.memory 0 0, .x)
  else if 0x38 ≤ m ∧ m ≤ 0x3A then (.memory 0 0, .a)
  else if m = 0x1C then (.control 0, .a)
  else if m = 0x1D then (if fn = 2 then .management else .control 0, .a)
  else (compute, .a)

/-- A core and a thread made the ones whose turn comes next: the device powered, the thread running, the word's 256
bytes below the execute boundary, nothing of a repetition, a gang or a checked pair in the way. DESIGN CHOICE, entry 2. -/
def State.readyThread (s : State) (c : CoreName) (t : Thread) : State :=
  let s := { s with
             turns := [], cur := c, thr := t,
             life := { s.life with powered := true, islands := match islandOfCore c with
                                                              | some n => Tbl.set false s.life.islands n true
                                                              | none => s.life.islands },
             groups := s.groups.map fun (g : Group) =>
               if g.vac.isSome ∧ c.octet?.any (fun o => g.holds o) = true then { g with vac := none } else g }
  s.updCore c fun k =>
    let h := k.th t
    let k := k.setTh t { h with
                           st := .run, priv := if c.kind = .control ∨ c.kind = .management then .supervisor else h.priv,
                           pc := h.pc / 4 * 4 % 65536, hint := none, wreason := .none, pend := .none, mx := .none, since := none }
    { k with
        xb := BitVec.ofNat 9 (max k.xb.toNat (h.pc / 4 * 4 % 65536 / 256 + 1)), rpt := Core.init.rpt, rptBody := [],
        gang := Gang.init, edgeStop := false }

/-- A word stored where a core's thread fetches next (R2, R31). -/
def State.placeWord (s : State) (w : Nat) : State :=
  let p := wordPlace w
  let s := s.readyThread p.1 p.2
  s.store (localBase p.1 + (s.th p.1 p.2).pc) 4 w

end Sys2Proof.Machine
end

