-- ==== Sys2Proof/Machine/Micro.lean ====
section
/-! DEFINITION. Requests that wait for the service of a page fault: the reads and writes of the transfer cores'
microcode and of transfers (chapter The page). -/

namespace Sys2Proof.Machine

/-- What a waiting request's translation comes to. -/
inductive MicroTr where
  | home (a : Nat)
  | remote (n : Nat)
  | wait
  | fails (cause : BitVec 8)
  deriving DecidableEq, Repr

/-- A request asks its station for a translation: from the cache, else a walk is started or joined, and the request
waits; a failed walk or service is answered once (R423, R424, R426, R427); another device's that meets a remote leaf is a failed service (R441). A lost request has CAUSE 0 (R301, R308, R312). -/
def State.microTranslate (s : State) (st ctx va n : Nat) (rd wr : Bool) (r : WaitReq) : State × MicroTr :=
  match s.serviceFailed st r with
  | some cause => (s.clearFailed st r, .fails cause)
  | none =>
    if s.waitsAt st r then (s, .wait)
    else if !s.resident ctx then (s, .fails Cause.accessRights)
    else match s.cachedLeaf st ctx va with
      | some t =>
        match s.leafGives va t.level t.pte rd wr with
        | .home a => (s.touch st ctx va a n false wr, .home a)
        | .remote n => (s, match r with | .remote _ _ => .fails Cause.pageFault | _ => .remote n)
        | .lost => (s, .fails 0)
        | _ => (s, .fails Cause.accessRights)
      | none => (s.updStation st fun q => { q with walks := q.walks ++ [⟨ctx, va, wr, r⟩] }, .wait)

/-- The CAUSE of a request to another device that fails: 0 for one that is lost (R301, R308, R312). -/
def linkCause : Config.RemoteAns → BitVec 8
  | .lost => 0
  | r => remoteCause r

/-- The bytes of a number, lowest first. -/
def bytesOf : Nat → Nat → List Byte
  | 0, _ => []
  | n + 1, w => BitVec.ofNat 8 w :: bytesOf n (w / 256)

/-- The number a list of bytes holds, lowest first (R2). -/
def leBytes : List Byte → Nat
  | [] => 0
  | b :: l => b.toNat + 256 * leBytes l

/-- The parts of a range of addresses that do not cross 1 KiB: each lies in one page, and in one sector (R418), at most
n of them. -/
def pageParts : Nat → Nat → Nat → List (Nat × Nat)
  | 0, _, _ => []
  | n + 1, va, len =>
    if len = 0 then []
    else
      let k := min len (1024 - va % 1024)
      (va, k) :: pageParts n (va + k) (len - k)

/-- What a waiting request comes to: done with what it read, still waiting, or failed. -/
inductive MicroEnd where
  | ok (bytes : List Byte)
  | wait
  | fails (cause : BitVec 8)
  deriving DecidableEq, Repr

/-- Reading one part of a range. -/
def State.microPart (s : State) (st ctx : Nat) (p : Nat × Nat) (r : WaitReq) : State × MicroEnd :=
  let t := s.microTranslate st ctx p.1 p.2 true false r
  match t.2 with
  | .home a =>
    let q := t.1.checkRead a p.2
    match q.2 with
    | some f => (q.1, .fails f.1)
    | none => (q.1, .ok (q.1.readBytes a p.2))
  | .remote n =>
    let k := t.1.askDevice n ctx p.1 p.2
    match k.2 with
    | .ok v => (k.1, .ok (bytesOf p.2 v))
    | w => (k.1, .fails (linkCause w))
  | .wait => (t.1, .wait)
  | .fails c => (t.1, .fails c)

/-- Reading the parts of a range in order. -/
def State.microParts (s : State) (st ctx : Nat) (r : WaitReq) : List (Nat × Nat) → State × MicroEnd
  | [] => (s, .ok [])
  | p :: ps =>
    let x := s.microPart st ctx p r
    match x.2 with
    | .ok b =>
      let y := x.1.microParts st ctx r ps
      match y.2 with
      | .ok bs => (y.1, .ok (b ++ bs))
      | e => (y.1, e)
    | e => (x.1, e)

/-- Reading len bytes of a context's addresses. -/
def State.microRead (s : State) (st ctx va len : Nat) (r : WaitReq) : State × MicroEnd :=
  s.microParts st ctx r (pageParts (len / 1024 + 2) va len)

/-- Where the parts of a range that is to be written live, or how the request for one of them comes out. -/
def State.microHomes (s : State) (st ctx : Nat) (r : WaitReq) : List (Nat × Nat) → State × Except MicroEnd (List (Home × Nat × Nat))
  | [] => (s, .ok [])
  | p :: ps =>
    let t := s.microTranslate st ctx p.1 p.2 false true r
    let next := fun h : Home =>
      let y := t.1.microHomes st ctx r ps
      (y.1, y.2.map fun l => (h, p.1, p.2) :: l)
    match t.2 with
    | .home a => next (.here a)
    | .remote n => next (.remote n ctx p.1)
    | .wait => (t.1, .error .wait)
    | .fails c => (t.1, .error (.fails c))

/-- The granules that a write covers in part, in every part of it: the cause of the first that fails (R275). -/
def State.microCheck (s : State) : List (Home × Nat × Nat) → State × Option (BitVec 8)
  | [] => (s, none)
  | p :: ps =>
    let q := match p.1 with
      | .here a => if isCxl a then (s, none) else s.checkWrite a p.2.2
      | .remote _ _ _ => (s, none)
    let y := q.1.microCheck ps
    (y.1, (q.2.map Prod.fst).or y.2)

/-- The answers of other devices to the parts of a write: the cause of the first that fails. -/
def State.microAsk (s : State) : List (Home × Nat × Nat) → State × Option (BitVec 8)
  | [] => (s, none)
  | p :: ps => match p.1 with
    | .here _ => s.microAsk ps
    | .remote d ctx va =>
      let k := s.askDevice d ctx va p.2.2
      match k.2 with
      | .ok _ => k.1.microAsk ps
      | w => (k.1, some (linkCause w))

/-- Storing bytes over parts in order. -/
def State.microStore (s : State) : List (Home × Nat × Nat) → List Byte → State
  | [], _ => s
  | p :: ps, bytes =>
    (match p.1 with
      | .here a => (s.clearMarks a p.2.2).writeBytes a (bytes.take p.2.2)
      | .remote _ _ _ => s).microStore ps (bytes.drop p.2.2)

/-- Writing bytes at parts whose homes are known, in all of them or in none (R275). -/
def State.microPut (s : State) (l : List (Home × Nat × Nat)) (bytes : List Byte) : State × MicroEnd :=
  let q := s.microCheck l
  match q.2 with
  | some c => (q.1, .fails c)
  | none =>
    let k := q.1.microAsk l
    match k.2 with
    | some c => (k.1, .fails c)
    | none => (k.1.microStore l bytes, .ok [])

/-- The bytes of parts in order; what is in another device is read as zeros. -/
def State.partBytes (s : State) (l : List (Home × Nat × Nat)) : List Byte :=
  l.flatMap fun p => match p.1 with
    | .here a => s.readBytes a p.2.2
    | .remote _ _ _ => List.replicate p.2.2 0

/-- Changing some bits of the bytes at a context's addresses, a write that needs no right to read (R275, R312). -/
def State.microMerge (s : State) (st ctx va n : Nat) (f : Nat → Nat) (r : WaitReq) : State × MicroEnd :=
  let t := s.microHomes st ctx r (pageParts (n / 1024 + 2) va n)
  match t.2 with
  | .error e => (t.1, e)
  | .ok l => t.1.microPut l (bytesOf n (f (leBytes (t.1.partBytes l))))

/-- Writing bytes over the parts of a range. -/
def State.microWriteParts (s : State) (st ctx : Nat) (r : WaitReq) (parts : List (Nat × Nat)) (bytes : List Byte) : State × MicroEnd :=
  let t := s.microHomes st ctx r parts
  match t.2 with
  | .error e => (t.1, e)
  | .ok l => t.1.microPut l bytes

/-- Writing bytes at a context's addresses. -/
def State.microWrite (s : State) (st ctx va : Nat) (bytes : List Byte) (r : WaitReq) : State × MicroEnd :=
  s.microWriteParts st ctx r (pageParts (bytes.length / 1024 + 2) va bytes.length) bytes

/-! ## Copies between device memory and an octet's memories (R362, R406, R412) -/

/-- Copying a part of a context's addresses to a flat address, its granules read and those it covers replaced. -/
def State.copyInPart (s : State) (st ctx : Nat) (p : Nat × Nat) (dst : Nat) (r : WaitReq) : State × MicroEnd :=
  let t := s.microTranslate st ctx p.1 p.2 true false r
  match t.2 with
  | .home a =>
    let q := t.1.checkRead a p.2
    match q.2 with
    | some f => (q.1, .fails f.1)
    | none => ((q.1.clearMarks dst p.2).copyBytes a dst p.2, .ok [])
  | .remote n =>
    let k := t.1.askDevice n ctx p.1 p.2
    match k.2 with
    | .ok v => ((k.1.clearMarks dst p.2).writeBytes dst (bytesOf p.2 v), .ok [])
    | w => (k.1, .fails (linkCause w))
  | .wait => (t.1, .wait)
  | .fails c => (t.1, .fails c)

/-- Copying the parts of a range in. -/
def State.copyIn (s : State) (st ctx : Nat) (r : WaitReq) : List (Nat × Nat) → Nat → State × MicroEnd
  | [], _ => (s, .ok [])
  | p :: ps, dst =>
    let x := s.copyInPart st ctx p dst r
    match x.2 with
    | .ok _ => x.1.copyIn st ctx r ps (dst + p.2)
    | e => (x.1, e)

/-- Granules that could not be read go on as poisoned ones: where n bytes at `src` have been copied to `dst`, what holds a byte of a bad
granule is poisoned, and so is the granule (R29, R274). DEDUCED, entry 25. -/
def State.carryMarks (s : State) (src dst n : Nat) : State :=
  let bad := (granules src n).filter fun g => s.mark g != .ok
  bad.foldl (fun s g => (s.putMark g .poisoned).putMark (dst + (max src g - src)) .poisoned) s

/-- Copying a part of an octet's memory out to a context's addresses. -/
def State.copyOutPart (s : State) (st ctx : Nat) (p : Nat × Nat) (src : Nat) (r : WaitReq) : State × MicroEnd :=
  let t := s.microTranslate st ctx p.1 p.2 false true r
  match t.2 with
  | .home a =>
    let q := if isCxl a then (t.1, none) else t.1.checkWrite a p.2
    match q.2 with
    | some f => (q.1, .fails f.1)
    | none => (((q.1.clearMarks a p.2).copyBytes src a p.2).carryMarks src a p.2, .ok [])
  | .remote n =>
    let k := t.1.askDevice n ctx p.1 p.2
    match k.2 with
    | .ok _ => (k.1, .ok [])
    | w => (k.1, .fails (linkCause w))
  | .wait => (t.1, .wait)
  | .fails c => (t.1, .fails c)

/-- Copying out over the parts of a range. -/
def State.copyOut (s : State) (st ctx : Nat) (r : WaitReq) : List (Nat × Nat) → Nat → State × MicroEnd
  | [], _ => (s, .ok [])
  | p :: ps, src =>
    let x := s.copyOutPart st ctx p src r
    match x.2 with
    | .ok _ => x.1.copyOut st ctx r ps (src + p.2)
    | e => (x.1, e)

/-- Going on with the next request of a list, while each is done. -/
def MicroEnd.next (x : State × MicroEnd) (f : State → State × MicroEnd) : State × MicroEnd :=
  match x.2 with
  | .ok _ => f x.1
  | e => (x.1, e)

/-! ## Reads that do not wait (R361, R372, R426) -/

/-- Reading one part of a range at once, or failing. -/
def State.readNowPart (s : State) (st ctx : Nat) (p : Nat × Nat) : State × Option (List Byte) :=
  let t := s.translate st ctx p.1 true false
  match t.2 with
  | .home a =>
    let q := (t.1.touch st ctx p.1 a p.2 false false).checkRead a p.2
    (q.1, if q.2.isSome then none else some (q.1.readBytes a p.2))
  | .remote n =>
    let k := t.1.askDevice n ctx p.1 p.2
    match k.2 with
    | .ok v => (k.1, some (bytesOf p.2 v))
    | _ => (k.1, none)
  | _ => (t.1, none)

/-- Reading bytes of a context's addresses at once, or failing. -/
def State.readNow (s : State) (st ctx : Nat) : List (Nat × Nat) → State × Option (List Byte)
  | [] => (s, some [])
  | p :: ps =>
    let x := s.readNowPart st ctx p
    match x.2 with
    | none => (x.1, none)
    | some b =>
      let y := x.1.readNow st ctx ps
      (y.1, y.2.map fun bs => b ++ bs)

/-- The words of a list of bytes. -/
def wordsOf : Nat → List Byte → List Word
  | 0, _ => []
  | n + 1, l => BitVec.ofNat 64 (leBytes (l.take 8)) :: wordsOf n (l.drop 8)

/-! ## The save area (R403, R407) -/

/-- The window slot of the group that stands on an octet (R359). -/
def State.slotOf (s : State) (o : OctName) : Nat :=
  match s.standing o with
  | none => 0
  | some g => g.s0 + (o.oct.val / 4 - g.po / 4) * g.w + (o.oct.val % 4 - g.po % 4)

/-- The virtual address of the skein of a slot in a cluster (R407): 4 MiB each from the save-area base. -/
def State.skeinVA (s : State) (ctx : Nat) (cl : Fin 16) (slot : Nat) : Nat :=
  (s.ctx ctx).sab.toNat * 2 ^ 22 + 2 ^ 22 * (24 * cl.val + slot)

/-- The virtual address of a handle's image (R232, R407). -/
def State.imageVA (s : State) (ctx : Nat) (o : OctName) (h : Nat) : Nat :=
  s.skeinVA ctx o.cl (s.slotOf o) + 0x210000 + 1024 * h

end Sys2Proof.Machine
end

