-- ==== Sys2Proof/Machine/Flags.lean ====
section
/-! DEFINITION. The number: element formats, rounding, the flags a rounding raises, and conversions (chapter The
number). A flag set is five bits in FCSR order: NX, UF, OF, DZ, NV. -/

namespace Sys2Proof.Machine

abbrev Flags := BitVec 5
abbrev fNone : Flags := 0
abbrev fNX : Flags := 1
abbrev fUF : Flags := 2
abbrev fOF : Flags := 4
abbrev fDZ : Flags := 8
abbrev fNV : Flags := 16

/-! ## Formats (R57 to R61) -/

/-- The width of a format code (R168). -/
def fmtWidth (t : Nat) : Nat := [3, 4, 8, 8, 8, 16, 16, 32, 64, 16, 32].getD t 8

/-- The integer format codes (R57). -/
def isInt (t : Nat) : Bool := t < 3 || t = 9 || t = 10

/-- Mantissa bits m and exponent bits w of a floating-point format (R58). -/
def manBits (t : Nat) : Nat := [0, 0, 0, 3, 2, 7, 10, 23, 52].getD t 52
def expBits (t : Nat) : Nat := [0, 0, 0, 4, 5, 8, 5, 8, 11].getD t 11
def bias (t : Nat) : Nat := 2 ^ (expBits t - 1) - 1

/-- The canonical NaN (R58, R59). -/
def canonNaN (t : Nat) : Nat := if t = 3 then 0x7F else (2 ^ expBits t - 1) * 2 ^ manBits t + 2 ^ (manBits t - 1)

/-- The encoding of the largest finite magnitude, and of an infinity (R58; E4M3 has none). -/
def maxFinite (t : Nat) : Nat := if t = 3 then 0x7E else (2 ^ expBits t - 1) * 2 ^ manBits t - 1
def infBits (t : Nat) : Nat := (2 ^ expBits t - 1) * 2 ^ manBits t

/-- The sign bit of a format. -/
def signBit (t : Nat) : Nat := 2 ^ (fmtWidth t - 1)

/-- What an encoding stands for: NaN, signalling or quiet; an infinity; or ±m·2^e exactly. -/
inductive Num where
  | nan (sig : Bool)
  | inf (neg : Bool)
  | fin (neg : Bool) (m : Nat) (e : Int)
  deriving DecidableEq, Repr

/-- Reading a floating-point encoding (R58, R59, R60). -/
def decodeF (t x : Nat) : Num :=
  let m := bits x 0 (manBits t)
  let e := bits x (manBits t) (expBits t)
  let neg := decide (bits x (fmtWidth t - 1) 1 = 1)
  let scale : Int := 1 - (bias t : Int) - (manBits t : Int)
  if t = 3 ∧ e = 15 ∧ m = 7 then .nan false
  else if t ≠ 3 ∧ e = 2 ^ expBits t - 1 then
    if m = 0 then .inf neg else .nan (m < 2 ^ (manBits t - 1))
  else if e = 0 then .fin neg m scale
  else .fin neg (m + 2 ^ manBits t) (scale + (e : Int) - 1)

/-- A magnitude encoding with its sign. -/
def withSign (t : Nat) (neg : Bool) (mag : Nat) : Nat := mag + if neg then signBit t else 0

/-- The value of an integer encoding (R57). -/
def decodeI (t x : Nat) : Int := sext (fmtWidth t) x

/-- The range of an integer format (R57). -/
def intMin (t : Nat) : Int := -(2 ^ (fmtWidth t - 1))
def intMax (t : Nat) : Int := 2 ^ (fmtWidth t - 1) - 1

/-! ## Rounding (R67, R68) -/

/-- Rounds a magnitude m·2^-k to an integer: the result and whether it is inexact. Modes: 0 RNE, 1 RTZ, 2 RDN,
3 RUP, 4 RMM. -/
def roundShift (rm : Nat) (neg : Bool) (m k : Nat) : Nat × Bool :=
  let q := m / 2 ^ k
  let r := m % 2 ^ k
  let up := match rm with
    | 0 => decide (2 ^ k < 2 * r) || (decide (2 * r = 2 ^ k) && decide (q % 2 = 1))
    | 1 => false
    | 2 => neg && r != 0
    | 3 => !neg && r != 0
    | _ => decide (2 ^ k ≤ 2 * r) && r != 0
  (if up then q + 1 else q, r != 0)

/-- The magnitude m·2^e on the grid of multiples of 2^q, in units of 2^q. -/
def onGrid (rm : Nat) (neg : Bool) (m : Nat) (e q : Int) : Nat × Bool :=
  if q ≤ e then (m * 2 ^ (e - q).toNat, false) else roundShift rm neg m (q - e).toNat

/-- Overflow's result (R67). -/
def overflowTo (t rm : Nat) (sat neg : Bool) : Nat :=
  let toInf := match rm with
    | 0 => true
    | 4 => true
    | 2 => neg
    | 3 => !neg
    | _ => false
  if !toInf then withSign t neg (maxFinite t)
  else if t = 3 then (if sat then withSign t neg (maxFinite t) else canonNaN t)
  else if sat && t < 7 then withSign t neg (maxFinite t)
  else withSign t neg (infBits t)

/-- round_mode of a non-zero real ±m·2^e to a floating-point format, with its flags (R67, R68). -/
def roundF (t rm : Nat) (sat neg : Bool) (m : Nat) (e : Int) : Nat × Flags :=
  let mb := manBits t
  let emin : Int := 1 - (bias t : Int)
  let top : Int := (Nat.log2 m : Int) + e
  let q : Int := (if top < emin then emin else top) - (mb : Int)
  let r := onGrid rm neg m e q
  let u := onGrid rm neg m e (top - (mb : Int))
  let tiny := decide (top < emin) &&
    !(decide (top = emin - 1) && decide (u.1 = 2 ^ (mb + 1)))
  let n := if r.1 = 2 ^ (mb + 1) then 2 ^ mb else r.1
  let q' := if r.1 = 2 ^ (mb + 1) then q + 1 else q
  let mag := if n < 2 ^ mb then n else (q' + (mb : Int) + (bias t : Int)).toNat * 2 ^ mb + (n - 2 ^ mb)
  if maxFinite t < mag then (overflowTo t rm sat neg, fOF ||| fNX)
  else (withSign t neg mag, (if r.2 then fNX else fNone) ||| (if r.2 && tiny then fUF else fNone))

/-- Rounding an exact number to a format; a zero keeps its sign. -/
def roundNum (t rm : Nat) (sat : Bool) : Num → Nat × Flags
  | .nan sig => (canonNaN t, if sig then fNV else fNone)
  | .inf neg =>
    if t = 3 then (if sat then (withSign t neg (maxFinite t), fNX) else (canonNaN t, fNV))
    else (withSign t neg (infBits t), fNone)
  | .fin neg m e => if m = 0 then (withSign t neg 0, fNone) else roundF t rm sat neg m e

/-- Rounding an exact number to an integer, with whether it is inexact (R67). -/
def roundInt (rm : Nat) (neg : Bool) (m : Nat) (e : Int) : Int × Bool :=
  let r := onGrid rm neg m e 0
  (if neg then -(r.1 : Int) else r.1, r.2)

/-- A conversion from floating point to an integer range (R74). -/
def toInteger (rm : Nat) (lo hi : Int) : Num → Int × Flags
  | .nan _ => (0, fNV)
  | .inf neg => (if neg then lo else hi, fNV)
  | .fin neg m e =>
    let r := roundInt rm neg m e
    if r.1 < lo then (lo, fNV) else if hi < r.1 then (hi, fNV) else (r.1, if r.2 then fNX else fNone)

/-- An integer as an exact number. -/
def numOfInt (x : Int) : Num := .fin (decide (x < 0)) x.natAbs 0

/-- One conversion between element formats (R72 to R75, R187). -/
def convert (src dst rm : Nat) (sat hint : Bool) (x : Nat) : Nat × Flags :=
  if isInt src then
    let v := decodeI src x
    if isInt dst then (wrapN (fmtWidth dst) (if hint then satI v (intMin dst) (intMax dst) else v), fNone)
    else roundNum dst rm sat (numOfInt v)
  else
    let v := decodeF src x
    if isInt dst then
      let r := toInteger rm (intMin dst) (intMax dst) v
      (wrapN (fmtWidth dst) r.1, r.2)
    else roundNum dst rm sat v

/-! ## Arithmetic (R173) -/

/-- The signed mantissa of a finite number at an exponent no larger than its own. -/
def signedAt (neg : Bool) (m : Nat) (e q : Int) : Int :=
  let v : Int := (m : Int) * 2 ^ (e - q).toNat
  if neg then -v else v

/-- Whether a number is a signalling NaN, or any NaN. -/
def Num.sig : Num → Bool
  | .nan s => s
  | _ => false
def Num.isNaN : Num → Bool
  | .nan _ => true
  | _ => false

/-- The negation of a number. -/
def Num.negate : Num → Num
  | .nan s => .nan s
  | .inf n => .inf !n
  | .fin n m e => .fin (!n) m e

/-- A sum rounded once (R67, R173): NaN operands have been dealt with by the caller's flags. -/
def addNum (t rm : Nat) (sat : Bool) (x y : Num) : Nat × Flags :=
  match x, y with
  | .nan a, .nan b => (canonNaN t, if a || b then fNV else fNone)
  | .nan a, _ => (canonNaN t, if a then fNV else fNone)
  | _, .nan b => (canonNaN t, if b then fNV else fNone)
  | .inf a, .inf b => if a = b then roundNum t rm sat (.inf a) else (canonNaN t, fNV)
  | .inf a, .fin _ _ _ => roundNum t rm sat (.inf a)
  | .fin _ _ _, .inf b => roundNum t rm sat (.inf b)
  | .fin a m e, .fin b n f =>
    let q := if e < f then e else f
    let v := signedAt a m e q + signedAt b n f q
    if v = 0 then
      (withSign t (if m = 0 ∧ n = 0 ∧ a = b then a else decide (rm = 2)) 0, fNone)
    else roundF t rm sat (decide (v < 0)) v.natAbs q

/-- An exact product, with NV for 0 × ∞ and for a signalling NaN (R173). -/
def mulExact (x y : Num) : Num × Flags :=
  match x, y with
  | .nan a, .nan b => (.nan false, if a || b then fNV else fNone)
  | .nan a, _ => (.nan false, if a then fNV else fNone)
  | _, .nan b => (.nan false, if b then fNV else fNone)
  | .inf a, .inf b => (.inf (a != b), fNone)
  | .inf a, .fin b n _ => if n = 0 then (.nan false, fNV) else (.inf (a != b), fNone)
  | .fin a m _, .inf b => if m = 0 then (.nan false, fNV) else (.inf (a != b), fNone)
  | .fin a m e, .fin b n f => (.fin (a != b) (m * n) (e + f), fNone)

def mulNum (t rm : Nat) (sat : Bool) (x y : Num) : Nat × Flags :=
  let p := mulExact x y
  let r := roundNum t rm sat p.1
  (r.1, r.2 ||| p.2)

/-- The fused form a·b + c, rounded once (R173). -/
def fmaNum (t rm : Nat) (sat : Bool) (x y z : Num) : Nat × Flags :=
  let p := mulExact x y
  let r := addNum t rm sat p.1 z
  (r.1, r.2 ||| p.2)

/-- A quotient, with enough bits and a sticky bit below them to round once (R173). -/
def divNum (t rm : Nat) (sat : Bool) (x y : Num) : Nat × Flags :=
  match x, y with
  | .nan a, .nan b => (canonNaN t, if a || b then fNV else fNone)
  | .nan a, _ => (canonNaN t, if a then fNV else fNone)
  | _, .nan b => (canonNaN t, if b then fNV else fNone)
  | .inf _, .inf _ => (canonNaN t, fNV)
  | .inf a, .fin b _ _ => roundNum t rm sat (.inf (a != b))
  | .fin a _ _, .inf b => (withSign t (a != b) 0, fNone)
  | .fin a m e, .fin b n f =>
    if n = 0 then (if m = 0 then (canonNaN t, fNV) else
      let r := roundNum t rm sat (.inf (a != b))
      (r.1, r.2 ||| fDZ))
    else if m = 0 then (withSign t (a != b) 0, fNone)
    else
      let k := 64 + Nat.log2 n
      let q := m * 2 ^ k / n
      let s := if m * 2 ^ k % n = 0 then 0 else 1
      roundF t rm sat (a != b) (2 * q + s) (e - f - k - 1)

/-- The integer square root by bits: the largest r with r² ≤ x, r below 2^n. -/
def isqrt (x : Nat) : Nat → Nat
  | 0 => 0
  | n + 1 =>
    let hi := isqrt (x / 4) n
    if (2 * hi + 1) * (2 * hi + 1) ≤ x then 2 * hi + 1 else 2 * hi

def sqrtNum (t rm : Nat) (sat : Bool) (x : Num) : Nat × Flags :=
  match x with
  | .nan a => (canonNaN t, if a then fNV else fNone)
  | .inf neg => if neg then (canonNaN t, fNV) else roundNum t rm sat (.inf false)
  | .fin neg m e =>
    if m = 0 then (withSign t neg 0, fNone)
    else if neg then (canonNaN t, fNV)
    else
      let m' := if e % 2 = 0 then m * 2 ^ 128 else m * 2 ^ 129
      let e' := if e % 2 = 0 then e - 128 else e - 129
      let r := isqrt m' 128
      roundF t rm sat false (2 * r + if r * r = m' then 0 else 1) (e' / 2 - 1)

/-- A finite or infinite number's order against another: less, equal (−0 equals +0). -/
def numLt (x y : Num) : Bool :=
  match x, y with
  | .nan _, _ => false
  | _, .nan _ => false
  | .inf a, .inf b => a && !b
  | .inf a, .fin _ _ _ => a
  | .fin _ _ _, .inf b => !b
  | .fin a m e, .fin b n f =>
    let q := if e < f then e else f
    decide (signedAt a m e q < signedAt b n f q)
def numEq (x y : Num) : Bool := !x.isNaN && !y.isNaN && !numLt x y && !numLt y x

/-- The sign of a number that is not NaN. -/
def Num.isNeg : Num → Bool
  | .nan _ => false
  | .inf n => n
  | .fin n _ _ => n

/-- Minimum and maximum (R173): −0 below +0; one NaN gives the other operand bit for bit. -/
def minmaxF (t : Nat) (max : Bool) (a b : Nat) : Nat × Flags :=
  let x := decodeF t a
  let y := decodeF t b
  let fl := if x.sig || y.sig then fNV else fNone
  if x.isNaN && y.isNaN then (canonNaN t, fl)
  else if x.isNaN then (b, fl)
  else if y.isNaN then (a, fl)
  else
    let less := numLt x y || (numEq x y && x.isNeg && !y.isNeg)
    (if less = max then b else a, fl)

/-- The compares of R173: 0 EQ, 1 LT, 2 LE, 3 unordered. -/
def compareF (op t a b : Nat) : Bool × Flags :=
  let x := decodeF t a
  let y := decodeF t b
  let nan := x.isNaN || y.isNaN
  let sig := x.sig || y.sig
  match op with
  | 0 => (numEq x y, if sig then fNV else fNone)
  | 1 => (numLt x y, if nan then fNV else fNone)
  | 2 => (numLt x y || numEq x y, if nan then fNV else fNone)
  | _ => (nan, if sig then fNV else fNone)

/-- The class mask of FCLASS (R175). -/
def classOf (t a : Nat) : Nat :=
  match decodeF t a with
  | .nan true => 2 ^ 8
  | .nan false => 2 ^ 9
  | .inf neg => if neg then 2 ^ 0 else 2 ^ 7
  | .fin neg m _ =>
    if m = 0 then (if neg then 2 ^ 3 else 2 ^ 4)
    else if m < 2 ^ manBits t then (if neg then 2 ^ 2 else 2 ^ 5)
    else (if neg then 2 ^ 1 else 2 ^ 6)

/-! ## Lanes (R168 to R170) -/

/-- Lane i of width w. -/
def lane (w x i : Nat) : Nat := x / 2 ^ (w * i) % 2 ^ w

/-- Lanes of width w in r bits; INT3 lanes fill whole groups (R61, R178). -/
def laneCount (w r : Nat) : Nat := if w = 3 then 8 * (r / 24) else r / w

/-- Lanes put side by side from lane 0. -/
def packLanes (w : Nat) (l : List Nat) : Nat := l.foldr (fun x acc => x % 2 ^ w + 2 ^ w * acc) 0

/-- Whether lane i of width w is active under a predicate (R170). -/
def laneOn (w : Nat) (p : PWord) (i : Nat) : Bool := p.getLsbD (i * w / 8)

/-- Computing the active lanes and keeping the old ones elsewhere; the flags of active lanes ORed (R69, R170). -/
def mapLanes (w n : Nat) (on : Nat → Bool) (old : Nat) (f : Nat → Nat × Flags) : Nat × Flags :=
  let l := (List.range n).map fun i => if on i then f i else (lane w old i, fNone)
  (packLanes w (l.map (·.1)), l.foldl (fun a x => a ||| x.2) fNone)

/-- A number of n copies of a bit pattern decided per lane: the predicate bits of lanes (R170). -/
def lanesToPred (w n : Nat) (f : Nat → Bool) : PWord :=
  BitVec.ofNat 128 (packLanes (w / 8) ((List.range n).map fun i => if f i then 2 ^ (w / 8) - 1 else 0))

/-- The byte lanes whose lane is active; for sub-byte lanes, the bytes of the predicate (R142, R170). -/
def activeBytes (w : Nat) (p : PWord) : PWord :=
  if w < 16 then p else lanesToPred w (1024 / w) (laneOn w p)

/-! ## FCSR (R64 to R66) -/

/-- The rounding mode of FCSR. -/
def Core.rm (k : Core) : Nat := bits k.fcsr.toNat 5 3

/-- FCSR.SAT or a SAT hint on this instruction (R67). -/
def satMode : M Bool := do return (← myCore).fcsr.getLsbD 8 || (← satHint)

/-- The rounding mode of the issuing core. -/
def roundMode : M Nat := do return (← myCore).rm

/-- ORing flags into FCSR, once, when the instruction retires (R69, R70). -/
def raise (fl : Flags) : M Unit := updMy fun k => { k with fcsr := k.fcsr ||| fl.setWidth 9 }

/-! ## Operands of X-thread instructions -/

/-- Issuing an X-thread instruction on its operands, misuse of aliases first (R153, R171). -/
def xIssue (ok : Hints) (ops : List Opnd) (body : M Unit) (s : State) : Host.Outcome State Fault Refusal :=
  issue xAll ok .user (seq do
    checkAliases ops
    body) s

/-- The old value a destination keeps in inactive lanes: zero for a write alias (R152, R170). -/
def oldF (r : Reg) : M Nat := do
  let k ← myCore
  return if (k.alias? r.val).isSome then 0 else (k.fr r.val).toNat
def oldV (r : Reg) : M Nat := do
  let k ← myCore
  return if (k.alias? r.val).isSome then 0 else (k.vr r.val).toNat

end Sys2Proof.Machine
end

