-- ==== Sys2Proof/Machine/Integer.lean ====
section
/-! DEFINITION. Integer instructions of majors 0x08 to 0x0B (R129 to R132) and the branches and jumps of majors
0x03 to 0x05 (R133 to R135). -/

namespace Sys2Proof.Machine

/-- The hints of the integer instructions: SAT, IMM, both, neither (R45). -/
def satOnly : Hints := ⟨false, 1⟩
def immOnly : Hints := ⟨true, 0⟩
def immSat : Hints := ⟨true, 1⟩

/-- An integer result saturated to 64 bits under SAT, wrapped otherwise (R129). -/
def satWrap (sat : Bool) (x : Int) : Word := int64 (if sat then satI x (-(2 ^ 63)) (2 ^ 63 - 1) else x)

/-- The shift amount sh of R129. -/
def shOf (y : Word) : Nat := y.toNat % 64

/-- Number of leading zero bits, trailing zero bits and one bits of x (R129). -/
def clz64 (x : Word) : Nat := if x = 0 then 64 else 63 - x.toNat.log2
def ctz64 (x : Word) : Nat := ((List.range 64).find? fun i => x.getLsbD i).getD 64
def popc64 (x : Word) : Nat := ((List.range 64).filter fun i => x.getLsbD i).length

/-- The functions of R129 by mnemonic. -/
def iAdd (sat : Bool) (x y : Word) : Word := satWrap sat (x.toInt + y.toInt)
def iSub (sat : Bool) (x y : Word) : Word := satWrap sat (x.toInt - y.toInt)
def iSll (sat : Bool) (x y : Word) : Word := satWrap sat (x.toInt * 2 ^ shOf y)
def iSrl (x y : Word) : Word := x >>> shOf y
def iSra (x y : Word) : Word := x.sshiftRight (shOf y)
def iSlt (x y : Word) : Word := if x.toInt < y.toInt then 1 else 0
def iSltu (x y : Word) : Word := if x.toNat < y.toNat then 1 else 0
def iMin (x y : Word) : Word := if x.toInt < y.toInt then x else y
def iMax (x y : Word) : Word := if x.toInt < y.toInt then y else x
def iMinu (x y : Word) : Word := if x.toNat < y.toNat then x else y
def iMaxu (x y : Word) : Word := if x.toNat < y.toNat then y else x
def iRol (x y : Word) : Word := x.rotateLeft (shOf y)
def iRor (x y : Word) : Word := x.rotateRight (shOf y)

/-- The functions of R132 by mnemonic. -/
def iMul (x y : Word) : Word := int64 (x.toInt * y.toInt)
def iMulh (x y : Word) : Word := int64 ((x.toInt * y.toInt).fdiv (2 ^ 64))
def iMulhu (x y : Word) : Word := BitVec.ofNat 64 (x.toNat * y.toNat / 2 ^ 64)
def iDiv (x y : Word) : Word := if y = 0 then int64 (-1) else int64 (x.toInt.tdiv y.toInt)
def iDivu (x y : Word) : Word := if y = 0 then BitVec.allOnes 64 else x / y
def iRem (x y : Word) : Word := if y = 0 then x else int64 (x.toInt - y.toInt * x.toInt.tdiv y.toInt)
def iRemu (x y : Word) : Word := if y = 0 then x else x % y

/-- A register-register instruction on g (R129, R132). -/
def intRR (ok : Hints) (f : Bool → Word → Word → Word) (d a b : Reg) (s : State) : Host.Outcome State Fault Refusal :=
  issue aAll ok .user (seq do
    let x ← rdG a
    let y ← rdG b
    wrG d (f (← satHint) x y)) s

/-- An instruction on one g register (R129). -/
def intR (f : Word → Word) (d a : Reg) (s : State) : Host.Outcome State Fault Refusal :=
  issue aAll noHint .user (seq do wrG d (f (← rdG a))) s

/-- A register-immediate instruction on g, the immediate sign-extended or widened (R130). -/
def intRI (ok : Hints) (f : Bool → Word → Word → Word) (d a : Reg) (i : BitVec 12) (s : State) :
    Host.Outcome State Fault Refusal :=
  issue aAll ok .user (seq do
    let x ← rdG a
    let y ← immediate 12 i.toNat
    wrG d (f (← satHint) x (int64 y))) s

/-- A shift by an immediate amount (R130). -/
def intSh (ok : Hints) (f : Bool → Word → Word → Word) (d a : Reg) (n : Fin 64) (s : State) :
    Host.Outcome State Fault Refusal :=
  issue aAll ok .user (seq do
    let x ← rdG a
    wrG d (f (← satHint) x (BitVec.ofNat 64 n.val))) s

/-- An immediate placed into the upper parts of a register (R131): `f` gives the result from the register's old
value, the immediate and the instruction's address. -/
def intUpper (f : Word → Int → Nat → Int) (d : Reg) (i : BitVec 16) (s : State) : Host.Outcome State Fault Refusal :=
  issue aAll immOnly .user (seq do
    let x ← rdG d
    let v ← immediate 16 i.toNat
    wrG d (int64 (f x v (← myPc)))) s

/-- ADD (R129). -/
def execAdd (d a b : Reg) (s : State) : Host.Outcome State Fault Refusal :=
  intRR satOnly (iAdd) d a b s

/-- SUB (R129). -/
def execSub (d a b : Reg) (s : State) : Host.Outcome State Fault Refusal :=
  intRR satOnly (iSub) d a b s

/-- AND (R129). -/
def execAnd (d a b : Reg) (s : State) : Host.Outcome State Fault Refusal :=
  intRR noHint (fun _ x y => x &&& y) d a b s

/-- OR (R129). -/
def execOr (d a b : Reg) (s : State) : Host.Outcome State Fault Refusal :=
  intRR noHint (fun _ x y => x ||| y) d a b s

/-- XOR (R129). -/
def execXor (d a b : Reg) (s : State) : Host.Outcome State Fault Refusal :=
  intRR noHint (fun _ x y => x ^^^ y) d a b s

/-- SLL (R129). -/
def execSll (d a b : Reg) (s : State) : Host.Outcome State Fault Refusal :=
  intRR satOnly (iSll) d a b s

/-- SRL (R129). -/
def execSrl (d a b : Reg) (s : State) : Host.Outcome State Fault Refusal :=
  intRR noHint (fun _ x y => iSrl x y) d a b s

/-- SRA (R129). -/
def execSra (d a b : Reg) (s : State) : Host.Outcome State Fault Refusal :=
  intRR noHint (fun _ x y => iSra x y) d a b s

/-- SLT (R129). -/
def execSlt (d a b : Reg) (s : State) : Host.Outcome State Fault Refusal :=
  intRR noHint (fun _ x y => iSlt x y) d a b s

/-- SLTU (R129). -/
def execSltu (d a b : Reg) (s : State) : Host.Outcome State Fault Refusal :=
  intRR noHint (fun _ x y => iSltu x y) d a b s

/-- MIN (R129). -/
def execMin (d a b : Reg) (s : State) : Host.Outcome State Fault Refusal :=
  intRR noHint (fun _ x y => iMin x y) d a b s

/-- MAX (R129). -/
def execMax (d a b : Reg) (s : State) : Host.Outcome State Fault Refusal :=
  intRR noHint (fun _ x y => iMax x y) d a b s

/-- MINU (R129). -/
def execMinu (d a b : Reg) (s : State) : Host.Outcome State Fault Refusal :=
  intRR noHint (fun _ x y => iMinu x y) d a b s

/-- MAXU (R129). -/
def execMaxu (d a b : Reg) (s : State) : Host.Outcome State Fault Refusal :=
  intRR noHint (fun _ x y => iMaxu x y) d a b s

/-- ROL (R129). -/
def execRol (d a b : Reg) (s : State) : Host.Outcome State Fault Refusal :=
  intRR noHint (fun _ x y => iRol x y) d a b s

/-- ROR (R129). -/
def execRor (d a b : Reg) (s : State) : Host.Outcome State Fault Refusal :=
  intRR noHint (fun _ x y => iRor x y) d a b s

/-- CLZ (R129). -/
def execClz (d a : Reg) (s : State) : Host.Outcome State Fault Refusal :=
  intR (fun x => BitVec.ofNat 64 (clz64 x)) d a s

/-- CTZ (R129). -/
def execCtz (d a : Reg) (s : State) : Host.Outcome State Fault Refusal :=
  intR (fun x => BitVec.ofNat 64 (ctz64 x)) d a s

/-- POPC (R129). -/
def execPopc (d a : Reg) (s : State) : Host.Outcome State Fault Refusal :=
  intR (fun x => BitVec.ofNat 64 (popc64 x)) d a s

/-- ADDI (R130). -/
def execAddi (d a : Reg) (i : BitVec 12) (s : State) : Host.Outcome State Fault Refusal :=
  intRI immSat (iAdd) d a i s

/-- ANDI (R130). -/
def execAndi (d a : Reg) (i : BitVec 12) (s : State) : Host.Outcome State Fault Refusal :=
  intRI immOnly (fun _ x y => x &&& y) d a i s

/-- ORI (R130). -/
def execOri (d a : Reg) (i : BitVec 12) (s : State) : Host.Outcome State Fault Refusal :=
  intRI immOnly (fun _ x y => x ||| y) d a i s

/-- XORI (R130). -/
def execXori (d a : Reg) (i : BitVec 12) (s : State) : Host.Outcome State Fault Refusal :=
  intRI immOnly (fun _ x y => x ^^^ y) d a i s

/-- SLTI (R130). -/
def execSlti (d a : Reg) (i : BitVec 12) (s : State) : Host.Outcome State Fault Refusal :=
  intRI immOnly (fun _ x y => iSlt x y) d a i s

/-- SLTIU (R130). -/
def execSltiu (d a : Reg) (i : BitVec 12) (s : State) : Host.Outcome State Fault Refusal :=
  intRI immOnly (fun _ x y => iSltu x y) d a i s

/-- SLLI (R130). -/
def execSlli (d a : Reg) (n : Fin 64) (s : State) : Host.Outcome State Fault Refusal :=
  intSh satOnly (iSll) d a n s

/-- SRLI (R130). -/
def execSrli (d a : Reg) (n : Fin 64) (s : State) : Host.Outcome State Fault Refusal :=
  intSh noHint (fun _ x y => iSrl x y) d a n s

/-- SRAI (R130). -/
def execSrai (d a : Reg) (n : Fin 64) (s : State) : Host.Outcome State Fault Refusal :=
  intSh noHint (fun _ x y => iSra x y) d a n s

/-- RORI (R130). -/
def execRori (d a : Reg) (n : Fin 64) (s : State) : Host.Outcome State Fault Refusal :=
  intSh noHint (fun _ x y => iRor x y) d a n s

/-- LUI (R131). -/
def execLui (d : Reg) (i : BitVec 16) (s : State) : Host.Outcome State Fault Refusal :=
  intUpper (fun _ v _ => v * 2 ^ 16) d i s

/-- LUIH (R131). -/
def execLuih (d : Reg) (i : BitVec 16) (s : State) : Host.Outcome State Fault Refusal :=
  intUpper (fun x v _ => v * 2 ^ 32 + (x.toNat % 2 ^ 32 : Nat)) d i s

/-- LUIT (R131). -/
def execLuit (d : Reg) (i : BitVec 16) (s : State) : Host.Outcome State Fault Refusal :=
  intUpper (fun x v _ => v * 2 ^ 48 + (x.toNat % 2 ^ 48 : Nat)) d i s

/-- ADDPC (R131). -/
def execAddpc (d : Reg) (i : BitVec 16) (s : State) : Host.Outcome State Fault Refusal :=
  intUpper (fun _ v p => (p : Int) + v) d i s

/-- MUL (R132). -/
def execMul (d a b : Reg) (s : State) : Host.Outcome State Fault Refusal :=
  intRR noHint (fun _ x y => iMul x y) d a b s

/-- MULH (R132). -/
def execMulh (d a b : Reg) (s : State) : Host.Outcome State Fault Refusal :=
  intRR noHint (fun _ x y => iMulh x y) d a b s

/-- MULHU (R132). -/
def execMulhu (d a b : Reg) (s : State) : Host.Outcome State Fault Refusal :=
  intRR noHint (fun _ x y => iMulhu x y) d a b s

/-- DIV (R132). -/
def execDiv (d a b : Reg) (s : State) : Host.Outcome State Fault Refusal :=
  intRR noHint (fun _ x y => iDiv x y) d a b s

/-- DIVU (R132). -/
def execDivu (d a b : Reg) (s : State) : Host.Outcome State Fault Refusal :=
  intRR noHint (fun _ x y => iDivu x y) d a b s

/-- REM (R132). -/
def execRem (d a b : Reg) (s : State) : Host.Outcome State Fault Refusal :=
  intRR noHint (fun _ x y => iRem x y) d a b s

/-- REMU (R132). -/
def execRemu (d a b : Reg) (s : State) : Host.Outcome State Fault Refusal :=
  intRR noHint (fun _ x y => iRemu x y) d a b s

/-! ## Branches and jumps -/

/-- The target of a branch: its address plus 4 times the offset (R34, R133). -/
def branchTo (taken : Bool) (o : BitVec 13) : M Next := do
  if taken then
    let off ← immediate 13 o.toNat
    jumpTo ((← myPc : Nat) + 4 * off)
  else return .seq

/-- A compare branch on two g registers (R133). -/
def branchG (cond : Word → Word → Bool) (a b : Reg) (o : BitVec 13) (s : State) : Host.Outcome State Fault Refusal :=
  issue aAll immOnly .user (do
    let x ← rdG a
    let y ← rdG b
    branchTo (cond x y) o) s

/-- An X-thread branch on a predicate (R134). -/
def branchP (cond : PWord → Bool) (p : Fin 8) (o : BitVec 13) (s : State) : Host.Outcome State Fault Refusal :=
  issue xAll noHint .user (do
    let x ← rdP p.val
    branchTo (cond x) o) s

/-- An X-thread branch on an f register, popped if it is a stream alias (R134). -/
def branchF (cond : Word → Bool) (f : Reg) (o : BitVec 13) (s : State) : Host.Outcome State Fault Refusal :=
  issue xAll noHint .user (do
    checkAliases [fIn f]
    let x ← rdF f
    branchTo (cond x) o) s

/-- BEQ (R133). -/
def execBeq (a b : Reg) (o : BitVec 13) (s : State) : Host.Outcome State Fault Refusal :=
  branchG (fun x y => decide (x = y)) a b o s

/-- BNE (R133). -/
def execBne (a b : Reg) (o : BitVec 13) (s : State) : Host.Outcome State Fault Refusal :=
  branchG (fun x y => decide (x ≠ y)) a b o s

/-- BLT (R133). -/
def execBlt (a b : Reg) (o : BitVec 13) (s : State) : Host.Outcome State Fault Refusal :=
  branchG (fun x y => decide (x.toInt < y.toInt)) a b o s

/-- BGE (R133). -/
def execBge (a b : Reg) (o : BitVec 13) (s : State) : Host.Outcome State Fault Refusal :=
  branchG (fun x y => decide (y.toInt ≤ x.toInt)) a b o s

/-- BLTU (R133). -/
def execBltu (a b : Reg) (o : BitVec 13) (s : State) : Host.Outcome State Fault Refusal :=
  branchG (fun x y => decide (x.toNat < y.toNat)) a b o s

/-- BGEU (R133). -/
def execBgeu (a b : Reg) (o : BitVec 13) (s : State) : Host.Outcome State Fault Refusal :=
  branchG (fun x y => decide (y.toNat ≤ x.toNat)) a b o s

/-- BPANY (R134). -/
def execBpany (p : Fin 8) (o : BitVec 13) (s : State) : Host.Outcome State Fault Refusal :=
  branchP (fun x => decide (x ≠ 0)) p o s

/-- BPNONE (R134). -/
def execBpnone (p : Fin 8) (o : BitVec 13) (s : State) : Host.Outcome State Fault Refusal :=
  branchP (fun x => decide (x = 0)) p o s

/-- BPALL (R134). -/
def execBpall (p : Fin 8) (o : BitVec 13) (s : State) : Host.Outcome State Fault Refusal :=
  branchP (fun x => decide (x = BitVec.allOnes 128)) p o s

/-- BPNALL (R134). -/
def execBpnall (p : Fin 8) (o : BitVec 13) (s : State) : Host.Outcome State Fault Refusal :=
  branchP (fun x => decide (x ≠ BitVec.allOnes 128)) p o s

/-- BFZ (R134). -/
def execBfz (f : Reg) (o : BitVec 13) (s : State) : Host.Outcome State Fault Refusal :=
  branchF (fun x => decide (x = 0)) f o s

/-- BFNZ (R134). -/
def execBfnz (f : Reg) (o : BitVec 13) (s : State) : Host.Outcome State Fault Refusal :=
  branchF (fun x => decide (x ≠ 0)) f o s

/-- BFLTZ (R134). -/
def execBfltz (f : Reg) (o : BitVec 13) (s : State) : Host.Outcome State Fault Refusal :=
  branchF (fun x => x.getLsbD 63) f o s

/-- BFGEZ (R134). -/
def execBfgez (f : Reg) (o : BitVec 13) (s : State) : Host.Outcome State Fault Refusal :=
  branchF (fun x => !x.getLsbD 63) f o s

/-- Writing a link: a d of 0 writes none in either thread (R135). -/
def writeLink (d : Reg) (p : Nat) : M Unit := if d.val = 0 then pure () else wrR d (BitVec.ofNat 64 (p + 4))

/-- The alias check of a link register, unless d is 0 (R153). -/
def checkLink (d : Reg) (l : List Opnd) : M Unit := checkR (l ++ if d.val = 0 then [] else [fOut d])

/-- The stream aliases of a core, which the dead masks ignore (R91, R122). -/
def Core.aliasMask (k : Core) : BitVec 32 :=
  (List.range 4).foldl (fun m i => if (k.alias? (28 + i)).isSome then m ||| BitVec.ofNat 32 (2 ^ (28 + i)) else m) 0

/-- Applying a calling convention's mask, the high half of CONV at RET and the low half at CALL (R122). -/
def Core.applyConv (k : Core) (t : Thread) (ret : Bool) (live : BitVec 32) : Core :=
  let half := fun w : Word => if ret then (w >>> 32).setWidth 32 else w.setWidth 32
  match t with
  | .a => k.killG (half k.a.conv &&& ~~~live)
  | .x =>
    let m := ~~~k.aliasMask
    (k.killF (half k.x.conv &&& m &&& ~~~live)).killV (half k.x.convv &&& m)

/-- The bit of a link register, live after CALL (R122). -/
def linkBit (d : Reg) : BitVec 32 := if d.val = 0 then 0 else BitVec.ofNat 32 (2 ^ d.val)

/-- JAL (R135). -/
def execJal (d : Reg) (o : BitVec 19) (s : State) : Host.Outcome State Fault Refusal :=
  issue axAll immOnly .user (do
    checkLink d []
    let p ← myPc
    let off ← immediate 19 o.toNat
    let n ← jumpTo (p + 4 * off)
    writeLink d p
    return n) s

/-- CALL (R135, R122). -/
def execCall (d : Reg) (o : BitVec 19) (s : State) : Host.Outcome State Fault Refusal :=
  issue axAll immOnly .user (do
    checkLink d []
    let p ← myPc
    let off ← immediate 19 o.toNat
    let n ← jumpTo (p + 4 * off)
    writeLink d p
    let t ← ask State.thr
    updMy fun k => k.applyConv t false (linkBit d)
    return n) s

/-- A computed target: misaligned ones trap with nothing changed (R135). -/
def jumpReg (next : Int) : M Next := do
  if next % 4 ≠ 0 then trap Cause.misaligned (int64 next)
  jumpTo next

/-- JALR (R135). DESIGN CHOICE, entry 15: the base register is taken as unsigned, for RET too (R118). -/
def execJalr (d a : Reg) (i : BitVec 14) (s : State) : Host.Outcome State Fault Refusal :=
  issue axAll immOnly .user (do
    checkLink d [fIn a]
    let p ← myPc
    let x ← rdR a
    let off ← immediate 14 i.toNat
    let n ← jumpReg (x.toNat + off)
    writeLink d p
    return n) s

/-- RET (R135, R122). -/
def execRet (a : Reg) (s : State) : Host.Outcome State Fault Refusal :=
  issue axAll noHint .user (do
    checkR [fIn a]
    let x ← rdR a
    let n ← jumpReg x.toNat
    let t ← ask State.thr
    updMy fun k => k.applyConv t true 0
    return n) s

end Sys2Proof.Machine
end

