-- ==== Sys2Proof/Machine/Scalar.lean ====
section
/-! DEFINITION. Scalar floating point, conversions and integer instructions of the X-thread: majors 0x20 to 0x23
(chapter The vector register). -/

namespace Sys2Proof.Machine

/-- The hints of the instructions that accept SAT (R45). -/
def satX : Hints := ⟨false, 1⟩

/-- The lane results written to f[d] with inactive lanes kept, and the flags raised. -/
def putLanesF (d : Reg) (w n : Nat) (on : Nat → Bool) (f : Nat → Nat × Flags) : M Unit := do
  let r := mapLanes w n on (← oldF d) f
  wrF d (BitVec.ofNat 64 r.1)
  raise r.2

/-- A two-operand scalar form of major 0x20 (R169, R175). -/
def scalar2 (op : Nat → Nat → Bool → Nat → Nat → Nat × Flags) (d a b : Reg) (p : Fin 8) (t : Fin 16) (s : State) :
    Host.Outcome State Fault Refusal :=
  xIssue satX [fIn a, fIn b, fOut d] (do
    let x ← rdF a
    let y ← rdF b
    let g ← rdP p.val
    let rm ← roundMode
    let sat ← satMode
    let w := fmtWidth t.val
    putLanesF d w (64 / w) (laneOn w g) fun i => op t.val rm sat (lane w x.toNat i) (lane w y.toNat i)) s

/-- A one-operand scalar form of major 0x20 (R169, R175). -/
def scalar1 (op : Nat → Nat → Bool → Nat → Nat × Flags) (d a : Reg) (p : Fin 8) (t : Fin 16) (s : State) :
    Host.Outcome State Fault Refusal :=
  xIssue satX [fIn a, fOut d] (do
    let x ← rdF a
    let g ← rdP p.val
    let rm ← roundMode
    let sat ← satMode
    let w := fmtWidth t.val
    putLanesF d w (64 / w) (laneOn w g) fun i => op t.val rm sat (lane w x.toNat i)) s

/-- Lane operations of R175, on encodings. -/
def laneAdd (t rm : Nat) (sat : Bool) (a b : Nat) : Nat × Flags := addNum t rm sat (decodeF t a) (decodeF t b)
def laneSub (t rm : Nat) (sat : Bool) (a b : Nat) : Nat × Flags := addNum t rm sat (decodeF t a) (decodeF t b).negate
def laneMul (t rm : Nat) (sat : Bool) (a b : Nat) : Nat × Flags := mulNum t rm sat (decodeF t a) (decodeF t b)
def laneDiv (t rm : Nat) (sat : Bool) (a b : Nat) : Nat × Flags := divNum t rm sat (decodeF t a) (decodeF t b)
def laneSqrt (t rm : Nat) (sat : Bool) (a : Nat) : Nat × Flags := sqrtNum t rm sat (decodeF t a)
def laneMin (t _rm : Nat) (_sat : Bool) (a b : Nat) : Nat × Flags := minmaxF t false a b
def laneMax (t _rm : Nat) (_sat : Bool) (a b : Nat) : Nat × Flags := minmaxF t true a b

/-- The magnitude of a with a given sign. -/
def laneSign (t a : Nat) (neg : Bool) : Nat × Flags := (withSign t neg (a % signBit t), fNone)
def isNegBits (t a : Nat) : Bool := decide (signBit t ≤ a)

/-- The fused forms of R176 by op: 0 FMADD, 1 FMSUB, 2 FNMADD, 3 FNMSUB. -/
def laneFma (op t rm : Nat) (sat : Bool) (a b c : Nat) : Nat × Flags :=
  let x := if op < 2 then decodeF t a else (decodeF t a).negate
  let z := if op = 0 ∨ op = 3 then decodeF t c else (decodeF t c).negate
  fmaNum t rm sat x (decodeF t b) z

/-- The format code of a ty2 field (R35). -/
def ty2 (t : Fin 4) : Nat := [6, 5, 7, 8].getD t.val 8

/-- A scalar fused form (R176): every lane is active. -/
def scalarFma (op : Nat) (d a b c : Reg) (t : Fin 4) (s : State) : Host.Outcome State Fault Refusal :=
  xIssue satX [fIn a, fIn b, fIn c, fOut d] (do
    let x ← rdF a
    let y ← rdF b
    let z ← rdF c
    let rm ← roundMode
    let sat ← satMode
    let w := fmtWidth (ty2 t)
    putLanesF d w (64 / w) (fun _ => true) fun i =>
      laneFma op (ty2 t) rm sat (lane w x.toNat i) (lane w y.toNat i) (lane w z.toNat i)) s

/-- A scalar compare (R177): all ones or zero in each lane. -/
def scalarCmp (op : Nat) (d a b : Reg) (p : Fin 8) (t : Fin 16) (s : State) : Host.Outcome State Fault Refusal :=
  xIssue noHint [fIn a, fIn b, fOut d] (do
    let x ← rdF a
    let y ← rdF b
    let g ← rdP p.val
    let w := fmtWidth t.val
    putLanesF d w (64 / w) (laneOn w g) fun i =>
      let r := compareF op t.val (lane w x.toNat i) (lane w y.toNat i)
      (if r.1 then 2 ^ w - 1 else 0, r.2)) s

/-- Lanes of a conversion between widths ws and wd in r bits (R178). -/
def convLanes (ws wd r : Nat) : Nat :=
  let n := r / max ws wd
  if ws = 3 ∨ wd = 3 then min n (8 * (r / 24)) else n

/-- A conversion laid out by R178: lane i active by predicate bit floor(i·m/8), bits above the last lane zero. -/
def convertLanes (src dst r rm : Nat) (sat hint : Bool) (p : PWord) (old x : Nat) : Nat × Flags :=
  let ws := fmtWidth src
  let wd := fmtWidth dst
  mapLanes wd (convLanes ws wd r) (fun i => p.getLsbD (i * max ws wd / 8)) old fun i =>
    convert src dst rm sat hint (lane ws x i)

/-- FCVT (R177, R178). -/
def execFcvt (d a : Reg) (t : Fin 16) (p : Fin 8) (u : Fin 16) (s : State) : Host.Outcome State Fault Refusal :=
  xIssue satX [fIn a, fOut d] (do
    let x ← rdF a
    let g ← rdP p.val
    let r := convertLanes t.val u.val 64 (← roundMode) (← satMode) (← satHint) g (← oldF d) x.toNat
    wrF d (BitVec.ofNat 64 r.1)
    raise r.2) s

/-- FCVTFL (R177): INT64 to a floating-point lane 0, the bits above it zero. DEDUCED, entry 33. -/
def execFcvtfl (d a : Reg) (p : Fin 8) (t : Fin 16) (s : State) : Host.Outcome State Fault Refusal :=
  xIssue noHint [fIn a, fOut d] (do
    let x ← rdF a
    let g ← rdP p.val
    let r := roundNum t.val (← roundMode) (← satMode) (numOfInt x.toInt)
    let old ← oldF d
    if g.getLsbD 0 then
      wrF d (BitVec.ofNat 64 r.1)
      raise r.2
    else wrF d (BitVec.ofNat 64 (old % 2 ^ fmtWidth t.val))) s

/-- FCVTLF (R177): lane 0 to INT64. -/
def execFcvtlf (d a : Reg) (p : Fin 8) (t : Fin 16) (s : State) : Host.Outcome State Fault Refusal :=
  xIssue satX [fIn a, fOut d] (do
    let x ← rdF a
    let g ← rdP p.val
    let r := toInteger (← roundMode) (-(2 ^ 63)) (2 ^ 63 - 1) (decodeF t.val (x.toNat % 2 ^ fmtWidth t.val))
    let old ← oldF d
    if g.getLsbD 0 then
      wrF d (int64 r.1)
      raise r.2
    else wrF d (BitVec.ofNat 64 old)) s

/-- An integer form of major 0x23 on one 64-bit lane (R179). -/
def xInt (ok : Hints) (f : Bool → Word → Word → Word) (d a b : Reg) (p : Fin 8) (s : State) :
    Host.Outcome State Fault Refusal :=
  xIssue ok [fIn a, fIn b, fOut d] (do
    let x ← rdF a
    let y ← rdF b
    let g ← rdP p.val
    let sat ← satHint
    let old ← oldF d
    wrF d (if g.getLsbD 0 then f sat x y else BitVec.ofNat 64 old)) s

/-- IMOVI (R179). -/
def execImovi (d : Reg) (i : BitVec 10) (p : Fin 8) (s : State) : Host.Outcome State Fault Refusal :=
  xIssue noHint [fOut d] (do
    let g ← rdP p.val
    let old ← oldF d
    wrF d (if g.getLsbD 0 then int64 (sext 10 i.toNat) else BitVec.ofNat 64 old)) s

/-- FADD (R175). -/
def execFadd (d a b : Reg) (p : Fin 8) (t : Fin 16) (s : State) : Host.Outcome State Fault Refusal :=
  scalar2 laneAdd d a b p t s

/-- FSUB (R175). -/
def execFsub (d a b : Reg) (p : Fin 8) (t : Fin 16) (s : State) : Host.Outcome State Fault Refusal :=
  scalar2 laneSub d a b p t s

/-- FMUL (R175). -/
def execFmul (d a b : Reg) (p : Fin 8) (t : Fin 16) (s : State) : Host.Outcome State Fault Refusal :=
  scalar2 laneMul d a b p t s

/-- FDIV (R175). -/
def execFdiv (d a b : Reg) (p : Fin 8) (t : Fin 16) (s : State) : Host.Outcome State Fault Refusal :=
  scalar2 laneDiv d a b p t s

/-- FSQRT (R175). -/
def execFsqrt (d a : Reg) (p : Fin 8) (t : Fin 16) (s : State) : Host.Outcome State Fault Refusal :=
  scalar1 laneSqrt d a p t s

/-- FMIN (R175). -/
def execFmin (d a b : Reg) (p : Fin 8) (t : Fin 16) (s : State) : Host.Outcome State Fault Refusal :=
  scalar2 laneMin d a b p t s

/-- FMAX (R175). -/
def execFmax (d a b : Reg) (p : Fin 8) (t : Fin 16) (s : State) : Host.Outcome State Fault Refusal :=
  scalar2 laneMax d a b p t s

/-- FSGNJ (R175). -/
def execFsgnj (d a b : Reg) (p : Fin 8) (t : Fin 16) (s : State) : Host.Outcome State Fault Refusal :=
  scalar2 (fun t _ _ a b => laneSign t a (isNegBits t b)) d a b p t s

/-- FSGNJN (R175). -/
def execFsgnjn (d a b : Reg) (p : Fin 8) (t : Fin 16) (s : State) : Host.Outcome State Fault Refusal :=
  scalar2 (fun t _ _ a b => laneSign t a (!isNegBits t b)) d a b p t s

/-- FSGNJX (R175). -/
def execFsgnjx (d a b : Reg) (p : Fin 8) (t : Fin 16) (s : State) : Host.Outcome State Fault Refusal :=
  scalar2 (fun t _ _ a b => laneSign t a (isNegBits t a != isNegBits t b)) d a b p t s

/-- FCLASS (R175). -/
def execFclass (d a : Reg) (p : Fin 8) (t : Fin 16) (s : State) : Host.Outcome State Fault Refusal :=
  scalar1 (fun t _ _ a => (classOf t a, fNone)) d a p t s

/-- FMOV (R175). -/
def execFmov (d a : Reg) (p : Fin 8) (t : Fin 16) (s : State) : Host.Outcome State Fault Refusal :=
  scalar1 (fun _ _ _ a => (a, fNone)) d a p t s

/-- FMADD (R176). -/
def execFmadd (d a b c : Reg) (t : Fin 4) (s : State) : Host.Outcome State Fault Refusal :=
  scalarFma 0 d a b c t s

/-- FMSUB (R176). -/
def execFmsub (d a b c : Reg) (t : Fin 4) (s : State) : Host.Outcome State Fault Refusal :=
  scalarFma 1 d a b c t s

/-- FNMADD (R176). -/
def execFnmadd (d a b c : Reg) (t : Fin 4) (s : State) : Host.Outcome State Fault Refusal :=
  scalarFma 2 d a b c t s

/-- FNMSUB (R176). -/
def execFnmsub (d a b c : Reg) (t : Fin 4) (s : State) : Host.Outcome State Fault Refusal :=
  scalarFma 3 d a b c t s

/-- FEQ (R177). -/
def execFeq (d a b : Reg) (p : Fin 8) (t : Fin 16) (s : State) : Host.Outcome State Fault Refusal :=
  scalarCmp 0 d a b p t s

/-- FLT (R177). -/
def execFlt (d a b : Reg) (p : Fin 8) (t : Fin 16) (s : State) : Host.Outcome State Fault Refusal :=
  scalarCmp 1 d a b p t s

/-- FLE (R177). -/
def execFle (d a b : Reg) (p : Fin 8) (t : Fin 16) (s : State) : Host.Outcome State Fault Refusal :=
  scalarCmp 2 d a b p t s

/-- FUNORD (R177). -/
def execFunord (d a b : Reg) (p : Fin 8) (t : Fin 16) (s : State) : Host.Outcome State Fault Refusal :=
  scalarCmp 3 d a b p t s

/-- IADD (R179). -/
def execIadd (d a b : Reg) (p : Fin 8) (s : State) : Host.Outcome State Fault Refusal :=
  xInt satX (iAdd) d a b p s

/-- ISUB (R179). -/
def execIsub (d a b : Reg) (p : Fin 8) (s : State) : Host.Outcome State Fault Refusal :=
  xInt satX (iSub) d a b p s

/-- IMUL (R179). -/
def execImul (d a b : Reg) (p : Fin 8) (s : State) : Host.Outcome State Fault Refusal :=
  xInt satX (fun sat x y => satWrap sat (x.toInt * y.toInt)) d a b p s

/-- IAND (R179). -/
def execIand (d a b : Reg) (p : Fin 8) (s : State) : Host.Outcome State Fault Refusal :=
  xInt noHint (fun _ x y => x &&& y) d a b p s

/-- IOR (R179). -/
def execIor (d a b : Reg) (p : Fin 8) (s : State) : Host.Outcome State Fault Refusal :=
  xInt noHint (fun _ x y => x ||| y) d a b p s

/-- IXOR (R179). -/
def execIxor (d a b : Reg) (p : Fin 8) (s : State) : Host.Outcome State Fault Refusal :=
  xInt noHint (fun _ x y => x ^^^ y) d a b p s

/-- ISLL (R179). -/
def execIsll (d a b : Reg) (p : Fin 8) (s : State) : Host.Outcome State Fault Refusal :=
  xInt satX (iSll) d a b p s

/-- ISRL (R179). -/
def execIsrl (d a b : Reg) (p : Fin 8) (s : State) : Host.Outcome State Fault Refusal :=
  xInt noHint (fun _ x y => iSrl x y) d a b p s

/-- ISRA (R179). -/
def execIsra (d a b : Reg) (p : Fin 8) (s : State) : Host.Outcome State Fault Refusal :=
  xInt noHint (fun _ x y => iSra x y) d a b p s

/-- IMIN (R179). -/
def execImin (d a b : Reg) (p : Fin 8) (s : State) : Host.Outcome State Fault Refusal :=
  xInt noHint (fun _ x y => iMin x y) d a b p s

/-- IMAX (R179). -/
def execImax (d a b : Reg) (p : Fin 8) (s : State) : Host.Outcome State Fault Refusal :=
  xInt noHint (fun _ x y => iMax x y) d a b p s

/-- IMINU (R179). -/
def execIminu (d a b : Reg) (p : Fin 8) (s : State) : Host.Outcome State Fault Refusal :=
  xInt noHint (fun _ x y => iMinu x y) d a b p s

/-- IMAXU (R179). -/
def execImaxu (d a b : Reg) (p : Fin 8) (s : State) : Host.Outcome State Fault Refusal :=
  xInt noHint (fun _ x y => iMaxu x y) d a b p s

/-- ISLT (R179). -/
def execIslt (d a b : Reg) (p : Fin 8) (s : State) : Host.Outcome State Fault Refusal :=
  xInt noHint (fun _ x y => iSlt x y) d a b p s

/-- ISLTU (R179). -/
def execIsltu (d a b : Reg) (p : Fin 8) (s : State) : Host.Outcome State Fault Refusal :=
  xInt noHint (fun _ x y => iSltu x y) d a b p s

end Sys2Proof.Machine
end

