-- ==== Sys2Proof/Machine/Vector.lean ====
section
/-! DEFINITION. Vector instructions of majors 0x28 to 0x2E but for the rotation forms: lanes, predicates,
permutes, reductions, selection, conversions and the special forms (chapter The vector register). -/

namespace Sys2Proof.Machine

/-- The lane results written to v[d] with inactive lanes kept, and the flags raised. -/
def putLanesV (d : Reg) (w : Nat) (g : PWord) (f : Nat → Nat × Flags) : M Unit := do
  let r := mapLanes w (laneCount w 1024) (laneOn w g) (← oldV d) f
  wrV d (BitVec.ofNat 1024 r.1) (activeBytes w g)
  raise r.2

/-- A two-operand vector form, its lane function given the format, the mode and the hint's SAT. -/
def vector2 (ok : Hints) (op : Nat → Nat → Bool → Nat → Nat → Nat × Flags) (mode : M Bool) (d a b : Reg) (p : Fin 8)
    (t : Fin 16) (s : State) : Host.Outcome State Fault Refusal :=
  xIssue ok [vIn a, vIn b, vOut d] (do
    let x ← rdV a
    let y ← rdV b
    let g ← rdP p.val
    let rm ← roundMode
    let sat ← mode
    let w := fmtWidth t.val
    putLanesV d w g fun i => op t.val rm sat (lane w x.toNat i) (lane w y.toNat i)) s

/-- A one-operand vector form. -/
def vector1 (ok : Hints) (op : Nat → Nat → Bool → Nat → Nat × Flags) (d a : Reg) (p : Fin 8)
    (t : Fin 16) (s : State) : Host.Outcome State Fault Refusal :=
  xIssue ok [vIn a, vOut d] (do
    let x ← rdV a
    let g ← rdP p.val
    let rm ← roundMode
    let sat ← satMode
    let w := fmtWidth t.val
    putLanesV d w g fun i => op t.val rm sat (lane w x.toNat i)) s

/-- An integer lane operation: exact, then wrapped, or clamped under SAT (R174). -/
def laneInt (f : Nat → Int → Int → Int) (t _rm : Nat) (sat : Bool) (a b : Nat) : Nat × Flags :=
  let r := f (b % fmtWidth t) (decodeI t a) (decodeI t b)
  (wrapN (fmtWidth t) (if sat then satI r (intMin t) (intMax t) else r), fNone)

/-- An unsigned or bitwise lane operation (R180). -/
def laneNat (f : Nat → Nat → Nat → Nat) (t _rm : Nat) (_sat : Bool) (a b : Nat) : Nat × Flags :=
  (f (fmtWidth t) a b % 2 ^ fmtWidth t, fNone)

/-- A vector integer form of major 0x28 (R180). -/
def vInt (ok : Hints) (op : Nat → Nat → Bool → Nat → Nat → Nat × Flags) (d a b : Reg) (p : Fin 8) (t : Fin 16)
    (s : State) : Host.Outcome State Fault Refusal := vector2 ok op satHint d a b p t s

/-- A vector floating-point form of major 0x29 (R181). -/
def vFlt (ok : Hints) (op : Nat → Nat → Bool → Nat → Nat → Nat × Flags) (d a b : Reg) (p : Fin 8) (t : Fin 16)
    (s : State) : Host.Outcome State Fault Refusal := vector2 ok op satMode d a b p t s

/-- A compare of vector lanes into a predicate: an inactive lane gives 0 (R170, R181, R183). -/
def vCmp (op : Nat → Nat → Nat → Bool × Flags) (d : Nat) (a b : Reg) (p : Fin 8) (t : Fin 16) (s : State) :
    Host.Outcome State Fault Refusal :=
  xIssue noHint [vIn a, vIn b] (do
    let x ← rdV a
    let y ← rdV b
    let g ← rdP p.val
    let w := fmtWidth t.val
    let n := 1024 / w
    let r := fun i => op t.val (lane w x.toNat i) (lane w y.toNat i)
    wrP d (lanesToPred w n fun i => laneOn w g i && (r i).1)
    raise ((List.range n).foldl (fun f i => if laneOn w g i then f ||| (r i).2 else f) fNone)) s

/-- A vector fused form (R182). -/
def vFma (op : Nat) (d a b c : Reg) (p t : Fin 4) (s : State) : Host.Outcome State Fault Refusal :=
  xIssue satX [vIn a, vIn b, vIn c, vOut d] (do
    let x ← rdV a
    let y ← rdV b
    let z ← rdV c
    let g ← rdP p.val
    let rm ← roundMode
    let sat ← satMode
    let w := fmtWidth (ty2 t)
    putLanesV d w g fun i => laneFma op (ty2 t) rm sat (lane w x.toNat i) (lane w y.toNat i) (lane w z.toNat i)) s

/-- VSEL (R181): every lane is written. DESIGN CHOICE, entry 13: a MASKW slot stores them all (R142, R152). -/
def execVsel (d a b : Reg) (p : Fin 8) (t : Fin 16) (s : State) : Host.Outcome State Fault Refusal :=
  xIssue noHint [vIn a, vIn b, vOut d] (do
    let x ← rdV a
    let y ← rdV b
    let g ← rdP p.val
    let w := fmtWidth t.val
    let l := (List.range (laneCount w 1024)).map fun i => if laneOn w g i then lane w x.toNat i else lane w y.toNat i
    wrV d (BitVec.ofNat 1024 (packLanes w l)) (BitVec.allOnes 128)) s

/-- A permute whose active lane i is given by the lanes of its operands (R184). -/
def permute (ops : List Opnd) (src : M (Nat → Nat → Nat → Nat)) (d : Reg) (p : Fin 8) (t : Fin 16) (s : State) :
    Host.Outcome State Fault Refusal :=
  xIssue noHint (ops ++ [vOut d]) (do
    let f ← src
    let g ← rdP p.val
    let w := fmtWidth t.val
    putLanesV d w g fun i => (f w (1024 / w) i % 2 ^ w, fNone)) s

/-- VPERM (R184). -/
def execVperm (d a b : Reg) (p : Fin 8) (t : Fin 16) (s : State) : Host.Outcome State Fault Refusal :=
  permute [vIn a, vIn b] (do
    let x ← rdV a
    let y ← rdV b
    return fun w n i => let j := lane w y.toNat i; if j < n then lane w x.toNat j else 0) d p t s

/-- VBCAST (R184). -/
def execVbcast (d a : Reg) (p : Fin 8) (t : Fin 16) (s : State) : Host.Outcome State Fault Refusal :=
  permute [fIn a] (do
    let x ← rdF a
    return fun _ _ _ => x.toNat) d p t s

/-- VSLUP (R184). -/
def execVslup (d a b : Reg) (p : Fin 8) (t : Fin 16) (s : State) : Host.Outcome State Fault Refusal :=
  permute [vIn a, fIn b] (do
    let x ← rdV a
    let y ← rdF b
    return fun w _ i => if y.toNat ≤ i then lane w x.toNat (i - y.toNat) else 0) d p t s

/-- VSLDN (R184). -/
def execVsldn (d a b : Reg) (p : Fin 8) (t : Fin 16) (s : State) : Host.Outcome State Fault Refusal :=
  permute [vIn a, fIn b] (do
    let x ← rdV a
    let y ← rdF b
    return fun w n i => if i + y.toNat < n then lane w x.toNat (i + y.toNat) else 0) d p t s

/-- VZIP (R184). -/
def execVzip (d a b : Reg) (p : Fin 8) (t : Fin 16) (s : State) : Host.Outcome State Fault Refusal :=
  permute [vIn a, vIn b] (do
    let x ← rdV a
    let y ← rdV b
    return fun w _ i => lane w (if i % 2 = 0 then x.toNat else y.toNat) (i / 2)) d p t s

/-- VUNZIP (R184). -/
def execVunzip (d a b : Reg) (p : Fin 8) (t : Fin 16) (s : State) : Host.Outcome State Fault Refusal :=
  permute [vIn a, vIn b] (do
    let x ← rdV a
    let y ← rdV b
    return fun w n i => if i < n / 2 then lane w x.toNat (2 * i) else lane w y.toNat (2 * (i - n / 2))) d p t s

/-- VREV (R184). -/
def execVrev (d a : Reg) (p : Fin 8) (t : Fin 16) (s : State) : Host.Outcome State Fault Refusal :=
  permute [vIn a] (do
    let x ← rdV a
    return fun w n i => lane w x.toNat (n - 1 - i)) d p t s

/-- VCOMPR (R184): active lanes moved down, the rest zero; every lane is written. DESIGN CHOICE, entry 13: a MASKW slot stores them
all (R142, R152). -/
def execVcompr (d a : Reg) (p : Fin 8) (t : Fin 16) (s : State) : Host.Outcome State Fault Refusal :=
  xIssue noHint [vIn a, vOut d] (do
    let x ← rdV a
    let g ← rdP p.val
    let w := fmtWidth t.val
    let l := ((List.range (1024 / w)).filter (laneOn w g)).map (lane w x.toNat)
    wrV d (BitVec.ofNat 1024 (packLanes w l)) (BitVec.allOnes 128)) s

/-- VEXPND (R184): the low lanes moved to the active ones. -/
def execVexpnd (d a : Reg) (p : Fin 8) (t : Fin 16) (s : State) : Host.Outcome State Fault Refusal :=
  xIssue noHint [vIn a, vOut d] (do
    let x ← rdV a
    let g ← rdP p.val
    let w := fmtWidth t.val
    putLanesV d w g fun i => (lane w x.toNat ((List.range i).filter (laneOn w g)).length, fNone)) s

/-! ## Reductions (R185) -/

/-- One level of the fixed tree: neighbours combined, an absent one giving way. -/
def treeLevel (comb : Nat → Nat → Nat × Flags) : List (Option Nat) → List (Option Nat) × Flags
  | x :: y :: l =>
    let r := treeLevel comb l
    match x, y with
    | some a, some b => let c := comb a b; (some c.1 :: r.1, c.2 ||| r.2)
    | some a, none => (some a :: r.1, r.2)
    | none, o => (o :: r.1, r.2)
  | l => (l, fNone)

/-- The tree over 2^k lanes. -/
def tree (comb : Nat → Nat → Nat × Flags) : Nat → List (Option Nat) → Option Nat × Flags
  | 0, l => (l.head?.join, fNone)
  | k + 1, l =>
    let r := treeLevel comb l
    let q := tree comb k r.1
    (q.1, r.2 ||| q.2)

/-- The reductions of R185: 0 VRSUM, 1 VRMAX, 2 VRMIN. -/
def reduceOf (op t rm : Nat) (sat : Bool) (x : Nat) (on : Nat → Bool) : Word × Flags :=
  let w := fmtWidth t
  let n := 1024 / w
  if isInt t then
    let l := ((List.range n).filter on).map fun i => decodeI t (lane w x i)
    (int64 (match op with
      | 0 => l.foldl (· + ·) 0
      | 1 => l.foldl max (-(2 ^ 63))
      | _ => l.foldl min (2 ^ 63 - 1)), fNone)
  else
    let comb := match op with
      | 0 => laneAdd t rm sat
      | 1 => minmaxF t true
      | _ => minmaxF t false
    let r := tree comb (Nat.log2 n) ((List.range n).map fun i => if on i then some (lane w x i) else none)
    let empty := match op with
      | 0 => 0
      | 1 => withSign t true (infBits t)
      | _ => infBits t
    (BitVec.ofNat 64 (r.1.getD empty), r.2)

/-- A vector reduction into f[d] (R185). FCSR.SAT holds for the roundings of the narrow formats (R67). -/
def reduceV (op : Nat) (d a : Reg) (p : Fin 8) (t : Fin 16) (s : State) : Host.Outcome State Fault Refusal :=
  xIssue noHint [vIn a, fOut d] (do
    let x ← rdV a
    let g ← rdP p.val
    let r := reduceOf op t.val (← roundMode) (← satMode) x.toNat (laneOn (fmtWidth t.val) g)
    wrF d r.1
    raise r.2) s

/-! ## Selection (R186) -/

/-- The rank of a 32-bit lane: INT32 by signed value; F32 by value, zeros equal, every NaN lowest (R186). -/
def rankOf (t x : Nat) : Int :=
  if t = 10 then sext 32 x
  else match decodeF 7 x with
    | .nan _ => -(2 ^ 33)
    | _ => if x < 2 ^ 31 then (x : Int) else -((x - 2 ^ 31 : Nat) : Int)

/-- The highest-ranked candidate, the lowest lane among equals. -/
def bestLane (rank : Nat → Int) : List Nat → Option Nat
  | [] => none
  | i :: l =>
    match bestLane rank l with
    | none => some i
    | some j => if rank j ≤ rank i then some i else some j

/-- The k best lanes in rank order. -/
def topLanes (rank : Nat → Int) : Nat → List Nat → List Nat
  | 0, _ => []
  | k + 1, l =>
    match bestLane rank l with
    | none => []
    | some i => i :: topLanes rank k (l.filter fun j => j != i)

/-- VTOPK (R186): every lane is written. DESIGN CHOICE, entry 13: a MASKW slot stores them all (R142, R152). -/
def execVtopk (d a b : Reg) (p : Fin 8) (t : Fin 16) (s : State) : Host.Outcome State Fault Refusal :=
  xIssue noHint [vIn a, fIn b, vOut d] (do
    let x ← rdV a
    let y ← rdF b
    let g ← rdP p.val
    let k := min (bits y.toNat 0 5) 16
    let base := y.toNat / 2 ^ 32
    let c := topLanes (fun i => rankOf t.val (lane 32 x.toNat i)) k ((List.range 32).filter (laneOn 32 g))
    let low := (List.range 16).map fun q => match getElem? c q with
      | some i => lane 32 x.toNat i
      | none => 0
    let high := (List.range 16).map fun q => match getElem? c q with
      | some i => base + i
      | none => 0xFFFFFFFF
    wrV d (BitVec.ofNat 1024 (packLanes 32 (low ++ high))) (BitVec.allOnes 128)) s

/-! ## Predicates (R183) -/

/-- A bitwise predicate form: bits outside the governing predicate become 0. -/
def predOp (f : PWord → PWord → PWord) (d a b : Nat) (p : Fin 8) (s : State) : Host.Outcome State Fault Refusal :=
  xIssue noHint [] (do
    let x ← rdP a
    let y ← rdP b
    let g ← rdP p.val
    wrP d (f x y &&& g)) s

/-- PAND, POR, PXOR, PNOT (R183). -/
def execPand (d a b : Reg) (p : Fin 8) (s : State) : Host.Outcome State Fault Refusal := predOp (· &&& ·) d.val a.val b.val p s
def execPor (d a b : Reg) (p : Fin 8) (s : State) : Host.Outcome State Fault Refusal := predOp (· ||| ·) d.val a.val b.val p s
def execPxor (d a b : Reg) (p : Fin 8) (s : State) : Host.Outcome State Fault Refusal := predOp (· ^^^ ·) d.val a.val b.val p s
def execPnot (d a : Reg) (p : Fin 8) (s : State) : Host.Outcome State Fault Refusal := predOp (fun x _ => ~~~x) d.val a.val 0 p s

/-- LOOPP (R183). -/
def execLoopp (d a b : Reg) (p : Fin 8) (t : Fin 16) (s : State) : Host.Outcome State Fault Refusal :=
  xIssue noHint [fIn a, fIn b] (do
    let x ← rdF a
    let y ← rdF b
    let g ← rdP p.val
    let w := fmtWidth t.val
    wrP d.val (lanesToPred w (1024 / w) fun i => laneOn w g i && decide (x.toNat + i < y.toNat))) s

/-- PCNT (R183). -/
def execPcnt (d a : Reg) (p : Fin 8) (t : Fin 16) (s : State) : Host.Outcome State Fault Refusal :=
  xIssue noHint [fOut d] (do
    let x ← rdP a.val
    let g ← rdP p.val
    let w := fmtWidth t.val
    wrF d (BitVec.ofNat 64 ((List.range (1024 / w)).filter (laneOn w (x &&& g))).length)) s

/-- PFIRST (R183). -/
def execPfirst (d a : Reg) (p : Fin 8) (t : Fin 16) (s : State) : Host.Outcome State Fault Refusal :=
  xIssue noHint [fOut d] (do
    let x ← rdP a.val
    let g ← rdP p.val
    let w := fmtWidth t.val
    wrF d (BitVec.ofNat 64 (((List.range (1024 / w)).find? (laneOn w (x &&& g))).getD (1024 / w)))) s

/-! ## Conversion and special forms (R187 to R192) -/

/-- The byte lanes a conversion's destination writes: all but those whose lanes are all inactive; a byte may hold several lanes of
INT3 or INT4 (R142, R178). -/
def convBytes (ws wd : Nat) (p : PWord) : PWord :=
  let n := convLanes ws wd 1024
  (List.range 128).foldl (fun (m : PWord) j =>
    let l := ((List.range ((8 * j + 7) / wd - 8 * j / wd + 1)).map fun i => 8 * j / wd + i).filter fun i => decide (i < n)
    if l != [] && l.all fun i => !p.getLsbD (i * max ws wd / 8) then m &&& ~~~BitVec.ofNat 128 (2 ^ j) else m) (BitVec.allOnes 128)

/-- VCVT (R187, R178). -/
def execVcvt (d a : Reg) (t : Fin 16) (p : Fin 8) (u : Fin 16) (s : State) : Host.Outcome State Fault Refusal :=
  xIssue satX [vIn a, vOut d] (do
    let x ← rdV a
    let g ← rdP p.val
    let r := convertLanes t.val u.val 1024 (← roundMode) (← satMode) (← satHint) g (← oldV d) x.toNat
    wrV d (BitVec.ofNat 1024 r.1) (convBytes (fmtWidth t.val) (fmtWidth u.val) g)
    raise r.2) s

/-- VLQ (R188). -/
def execVlq (d : Reg) (s : State) : Host.Outcome State Fault Refusal :=
  xIssue noHint [fOut d] (wrF d (BitVec.ofNat 64 vlen)) s

/-- VMOVF (R188). -/
def execVmovf (d a b : Reg) (t : Fin 16) (s : State) : Host.Outcome State Fault Refusal :=
  xIssue noHint [vIn a, fIn b, fOut d] (do
    let x ← rdV a
    let y ← rdF b
    let w := fmtWidth t.val
    wrF d (if y.toNat < 1024 / w then BitVec.ofNat 64 (lane w x.toNat y.toNat) else 0)) s

/-- A word of a piecewise-polynomial table (R189). -/
def Core.ppWord (k : Core) (t i : Nat) : Nat := (Tbl.get 0 k.ppe (384 * t + i)).toNat

/-- PPLD (R190). -/
def execPpld (t a b : Reg) (p : Fin 8) (s : State) : Host.Outcome State Fault Refusal :=
  xIssue noHint [vIn a, fIn b] (do
    let x ← rdV a
    let q ← rdF b
    let g ← rdP p.val
    updMy fun k => (List.range 32).foldl (fun k i =>
      if laneOn 32 g i ∧ q.toNat * 32 + i < 384 then
        { k with ppe := Tbl.set 0 k.ppe (384 * t.val + q.toNat * 32 + i) (BitVec.ofNat 32 (lane 32 x.toNat i)) }
      else k) k) s

/-- One element of VPPE: the clamp, the segment and Horner's rule, each step rounded RNE (R191). -/
def ppeEval (k : Core) (t a : Nat) : Nat × Flags :=
  let num := fun x => decodeF 7 x
  if (num a).isNaN then (canonNaN 7, if (num a).sig then fNV else fNone)
  else
    let bp := fun j => k.ppWord t j
    let x := if numLt (num a) (num (bp 0)) then bp 0 else a
    let x := if numLt (num (bp 64)) (num x) then bp 64 else x
    let le := fun j => numLt (num (bp j)) (num x) || numEq (num (bp j)) (num x)
    let j := ((List.range 64).filter le).getLast?.getD 0
    let c := fun r => k.ppWord t (128 + 64 * r + j)
    let t0 := laneSub 7 0 false x (bp j)
    let mul := fun (u : Nat × Flags) => let r := laneMul 7 0 false u.1 t0.1; (r.1, r.2 ||| u.2)
    let add := fun (u : Nat × Flags) r => let q := laneAdd 7 0 false u.1 (c r); (q.1, q.2 ||| u.2)
    let u := add (mul (c 3, t0.2)) 2
    let u := add (mul u) 1
    add (mul u) 0

/-- VPPE (R191). -/
def execVppe (d a t : Reg) (p : Fin 8) (s : State) : Host.Outcome State Fault Refusal :=
  xIssue noHint [vIn a, vOut d] (do
    let x ← rdV a
    let g ← rdP p.val
    let k ← myCore
    putLanesV d 32 g fun i => ppeEval k t.val (lane 32 x.toNat i)) s

/-- The generator of VRNG on one element index (R192). -/
def rngOf (k0 k1 c : Word) : Word :=
  let step := fun (x : Word) (q : Nat) =>
    let x := x ^^^ (x >>> 29)
    let x := x * 0xBF58476D1CE4E5B9
    x ^^^ k1.rotateLeft (16 * q)
  let x := [0, 1, 2, 3].foldl step (c ^^^ k0)
  x ^^^ (x >>> 32)

/-- VRNG (R192). -/
def execVrng (d a b : Reg) (p : Fin 8) (t : Fin 16) (s : State) : Host.Outcome State Fault Refusal :=
  xIssue noHint [fIn a, vIn b, vOut d] (do
    let x ← rdF a
    let y ← rdV b
    let g ← rdP p.val
    let w := fmtWidth t.val
    putLanesV d w g fun i =>
      ((rngOf (y.setWidth 64) ((y >>> 64).setWidth 64) (x + BitVec.ofNat 64 i)).toNat % 2 ^ w, fNone)) s

/-- VADD (R180). -/
def execVadd (d a b : Reg) (p : Fin 8) (t : Fin 16) (s : State) : Host.Outcome State Fault Refusal :=
  vInt satX (laneInt fun _ a b => a + b) d a b p t s

/-- VSUB (R180). -/
def execVsub (d a b : Reg) (p : Fin 8) (t : Fin 16) (s : State) : Host.Outcome State Fault Refusal :=
  vInt satX (laneInt fun _ a b => a - b) d a b p t s

/-- VMUL (R180). -/
def execVmul (d a b : Reg) (p : Fin 8) (t : Fin 16) (s : State) : Host.Outcome State Fault Refusal :=
  vInt satX (laneInt fun _ a b => a * b) d a b p t s

/-- VMIN (R180). -/
def execVmin (d a b : Reg) (p : Fin 8) (t : Fin 16) (s : State) : Host.Outcome State Fault Refusal :=
  vInt noHint (laneInt fun _ a b => min a b) d a b p t s

/-- VMAX (R180). -/
def execVmax (d a b : Reg) (p : Fin 8) (t : Fin 16) (s : State) : Host.Outcome State Fault Refusal :=
  vInt noHint (laneInt fun _ a b => max a b) d a b p t s

/-- VMINU (R180). -/
def execVminu (d a b : Reg) (p : Fin 8) (t : Fin 16) (s : State) : Host.Outcome State Fault Refusal :=
  vInt noHint (laneNat fun _ a b => min a b) d a b p t s

/-- VMAXU (R180). -/
def execVmaxu (d a b : Reg) (p : Fin 8) (t : Fin 16) (s : State) : Host.Outcome State Fault Refusal :=
  vInt noHint (laneNat fun _ a b => max a b) d a b p t s

/-- VAND (R180). -/
def execVand (d a b : Reg) (p : Fin 8) (t : Fin 16) (s : State) : Host.Outcome State Fault Refusal :=
  vInt noHint (laneNat fun _ a b => a &&& b) d a b p t s

/-- VOR (R180). -/
def execVor (d a b : Reg) (p : Fin 8) (t : Fin 16) (s : State) : Host.Outcome State Fault Refusal :=
  vInt noHint (laneNat fun _ a b => a ||| b) d a b p t s

/-- VXOR (R180). -/
def execVxor (d a b : Reg) (p : Fin 8) (t : Fin 16) (s : State) : Host.Outcome State Fault Refusal :=
  vInt noHint (laneNat fun _ a b => a ^^^ b) d a b p t s

/-- VSLL (R180). -/
def execVsll (d a b : Reg) (p : Fin 8) (t : Fin 16) (s : State) : Host.Outcome State Fault Refusal :=
  vInt satX (laneInt fun sh a _ => a * 2 ^ sh) d a b p t s

/-- VSRL (R180). -/
def execVsrl (d a b : Reg) (p : Fin 8) (t : Fin 16) (s : State) : Host.Outcome State Fault Refusal :=
  vInt noHint (laneNat fun w a b => a / 2 ^ (b % w)) d a b p t s

/-- VSRA (R180). -/
def execVsra (d a b : Reg) (p : Fin 8) (t : Fin 16) (s : State) : Host.Outcome State Fault Refusal :=
  vInt noHint (laneInt fun sh a _ => a.fdiv (2 ^ sh)) d a b p t s

/-- VMULH (R180). -/
def execVmulh (d a b : Reg) (p : Fin 8) (t : Fin 16) (s : State) : Host.Outcome State Fault Refusal :=
  vInt noHint (fun t rm sat => laneInt (fun _ a b => (a * b).fdiv (2 ^ fmtWidth t)) t rm sat) d a b p t s

/-- VMULHU (R180). -/
def execVmulhu (d a b : Reg) (p : Fin 8) (t : Fin 16) (s : State) : Host.Outcome State Fault Refusal :=
  vInt noHint (laneNat fun w a b => a * b / 2 ^ w) d a b p t s

/-- VABSD (R180). -/
def execVabsd (d a b : Reg) (p : Fin 8) (t : Fin 16) (s : State) : Host.Outcome State Fault Refusal :=
  vInt noHint (laneInt fun _ a b => ((a - b).natAbs : Int)) d a b p t s

/-- VFADD (R181). -/
def execVfadd (d a b : Reg) (p : Fin 8) (t : Fin 16) (s : State) : Host.Outcome State Fault Refusal :=
  vFlt satX laneAdd d a b p t s

/-- VFSUB (R181). -/
def execVfsub (d a b : Reg) (p : Fin 8) (t : Fin 16) (s : State) : Host.Outcome State Fault Refusal :=
  vFlt satX laneSub d a b p t s

/-- VFMUL (R181). -/
def execVfmul (d a b : Reg) (p : Fin 8) (t : Fin 16) (s : State) : Host.Outcome State Fault Refusal :=
  vFlt satX laneMul d a b p t s

/-- VFDIV (R181). -/
def execVfdiv (d a b : Reg) (p : Fin 8) (t : Fin 16) (s : State) : Host.Outcome State Fault Refusal :=
  vFlt satX laneDiv d a b p t s

/-- VFSQRT (R181). -/
def execVfsqrt (d a : Reg) (p : Fin 8) (t : Fin 16) (s : State) : Host.Outcome State Fault Refusal :=
  vector1 satX laneSqrt d a p t s

/-- VFMIN (R181). -/
def execVfmin (d a b : Reg) (p : Fin 8) (t : Fin 16) (s : State) : Host.Outcome State Fault Refusal :=
  vFlt noHint laneMin d a b p t s

/-- VFMAX (R181). -/
def execVfmax (d a b : Reg) (p : Fin 8) (t : Fin 16) (s : State) : Host.Outcome State Fault Refusal :=
  vFlt noHint laneMax d a b p t s

/-- VFABS (R181). -/
def execVfabs (d a : Reg) (p : Fin 8) (t : Fin 16) (s : State) : Host.Outcome State Fault Refusal :=
  vector1 noHint (fun t _ _ a => laneSign t a false) d a p t s

/-- VFNEG (R181). -/
def execVfneg (d a : Reg) (p : Fin 8) (t : Fin 16) (s : State) : Host.Outcome State Fault Refusal :=
  vector1 noHint (fun t _ _ a => laneSign t a (!isNegBits t a)) d a p t s

/-- VFEQ (R181). -/
def execVfeq (d a b : Reg) (p : Fin 8) (t : Fin 16) (s : State) : Host.Outcome State Fault Refusal :=
  vCmp (compareF 0) d.val a b p t s

/-- VFLT (R181). -/
def execVflt (d a b : Reg) (p : Fin 8) (t : Fin 16) (s : State) : Host.Outcome State Fault Refusal :=
  vCmp (compareF 1) d.val a b p t s

/-- VFLE (R181). -/
def execVfle (d a b : Reg) (p : Fin 8) (t : Fin 16) (s : State) : Host.Outcome State Fault Refusal :=
  vCmp (compareF 2) d.val a b p t s

/-- VFMADD (R182). -/
def execVfmadd (d a b c : Reg) (p t : Fin 4) (s : State) : Host.Outcome State Fault Refusal :=
  vFma 0 d a b c p t s

/-- VFMSUB (R182). -/
def execVfmsub (d a b c : Reg) (p t : Fin 4) (s : State) : Host.Outcome State Fault Refusal :=
  vFma 1 d a b c p t s

/-- VFNMADD (R182). -/
def execVfnmadd (d a b c : Reg) (p t : Fin 4) (s : State) : Host.Outcome State Fault Refusal :=
  vFma 2 d a b c p t s

/-- VFNMSUB (R182). -/
def execVfnmsub (d a b c : Reg) (p t : Fin 4) (s : State) : Host.Outcome State Fault Refusal :=
  vFma 3 d a b c p t s

/-- VCMPEQ (R183). -/
def execVcmpeq (d a b : Reg) (p : Fin 8) (t : Fin 16) (s : State) : Host.Outcome State Fault Refusal :=
  vCmp (fun _ a b => (decide (a = b), fNone)) d.val a b p t s

/-- VCMPLT (R183). -/
def execVcmplt (d a b : Reg) (p : Fin 8) (t : Fin 16) (s : State) : Host.Outcome State Fault Refusal :=
  vCmp (fun t a b => (decide (decodeI t a < decodeI t b), fNone)) d.val a b p t s

/-- VCMPLTU (R183). -/
def execVcmpltu (d a b : Reg) (p : Fin 8) (t : Fin 16) (s : State) : Host.Outcome State Fault Refusal :=
  vCmp (fun _ a b => (decide (a < b), fNone)) d.val a b p t s

/-- VCMPLE (R183). -/
def execVcmple (d a b : Reg) (p : Fin 8) (t : Fin 16) (s : State) : Host.Outcome State Fault Refusal :=
  vCmp (fun t a b => (decide (decodeI t a ≤ decodeI t b), fNone)) d.val a b p t s

/-- VCMPLEU (R183). -/
def execVcmpleu (d a b : Reg) (p : Fin 8) (t : Fin 16) (s : State) : Host.Outcome State Fault Refusal :=
  vCmp (fun _ a b => (decide (a ≤ b), fNone)) d.val a b p t s

/-- VRSUM (R185). -/
def execVrsum (d a : Reg) (p : Fin 8) (t : Fin 16) (s : State) : Host.Outcome State Fault Refusal :=
  reduceV 0 d a p t s

/-- VRMAX (R185). -/
def execVrmax (d a : Reg) (p : Fin 8) (t : Fin 16) (s : State) : Host.Outcome State Fault Refusal :=
  reduceV 1 d a p t s

/-- VRMIN (R185). -/
def execVrmin (d a : Reg) (p : Fin 8) (t : Fin 16) (s : State) : Host.Outcome State Fault Refusal :=
  reduceV 2 d a p t s

end Sys2Proof.Machine
end

