-- ==== Sys2Proof/Machine/Rotation.lean ====
section
/-! DEFINITION. Sign registers, rotation tags, and the rotated narrowing and its inverse (chapter The rotation tag). -/

namespace Sys2Proof.Machine

/-- A sign register (R194). -/
def Core.signReg (k : Core) (n : Nat) : SignReg := Tbl.get SignReg.init k.hs n

/-- The block size of a BLK or BS code (R194, R197). -/
def blockOf (code : Nat) : Nat := 32 * 2 ^ code

/-- Fields of a 6-bit rotation tag (R197). -/
def tagBs (t : Nat) : Nat := t % 4
def tagReg (t : Nat) : Nat := t / 4 % 8
def tagOn (t : Nat) : Bool := decide (32 ≤ t % 64)

/-- An invalid tag (R198). -/
def tagInvalid (t : Nat) : Bool := if tagOn t then tagBs t = 3 else t % 64 != 0

/-- One stage of the butterfly: lanes whose index differs in bit s become their sum and difference (R200). -/
def butterflyStage (x : List Int) (s : Nat) : List Int :=
  (List.range x.length).map fun i =>
    if i / 2 ^ s % 2 = 0 then x.getD i 0 + x.getD (i + 2 ^ s) 0 else x.getD (i - 2 ^ s) 0 - x.getD i 0

/-- The butterfly of a block of 2^k elements (R200). -/
def butterfly (k : Nat) (x : List Int) : List Int := (List.range k).foldl butterflyStage x

/-- A block aligned to one exponent as exact integers; none if it holds a NaN or an infinity (R83, R200). -/
def alignBlock (x : List Num) : Option (List Int × Int) :=
  if x.any fun v => match v with | .fin _ _ _ => false | _ => true then none
  else
    let es := x.filterMap fun v => match v with | .fin _ m e => if m = 0 then none else some e | _ => none
    let l := es.foldl min (es.headD 0)
    some (x.map fun v => match v with | .fin neg m e => if m = 0 then 0 else signedAt neg m e l | _ => 0, l)

/-- Negating the elements whose sign bit is set (R200 step 2). -/
def flipSigns (sign : BitVec 128) (x : List Int) : List Int :=
  (List.range x.length).map fun j => if sign.getLsbD j then -x.getD j 0 else x.getD j 0

/-- An exact value X·2^e delivered to a format with one rounding; an exact zero is +0 (R67, R200). DESIGN CHOICE, entry 11: a negative
value that rounds to zero is −0, for R67 gives +0 to exact zeros alone. -/
def deliver (dst rm : Nat) (sat : Bool) (x : Int) (e : Int) : Nat × Flags :=
  if isInt dst then
    let r := toInteger rm (intMin dst) (intMax dst) (.fin (decide (x < 0)) x.natAbs e)
    (wrapN (fmtWidth dst) r.1, r.2)
  else if x = 0 then (0, fNone) else roundF dst rm sat (decide (x < 0)) x.natAbs e

/-- What every output of a block with a NaN or an infinity is (R83, R201). -/
def nanTo (dst : Nat) : Nat := if isInt dst then 0 else canonNaN dst

/-- The rotated narrowing of one block (R83, R200, R201), rounded RNE. -/
def rotateBlock (sign : BitVec 128) (k dst : Nat) (sat : Bool) (x : List Num) : List (Nat × Flags) :=
  match alignBlock x with
  | none => x.map fun _ => (nanTo dst, fNV)
  | some (ints, l) => (butterfly k (flipSigns sign ints)).map fun y => deliver dst 0 sat y l

/-- Whether a number has an odd number of bits set among its low seven. -/
def oddBits (n : Nat) : Bool := (List.range 7).foldl (fun b i => b != n.testBit i) false

/-- The sign of lane j of the inverse where its sum is exactly zero (R67, R84): of addends that are zeros of one sign that sign, of any
others − under RDN and + in every other mode. DEDUCED, entry 11: the addends are the block's elements with their signs of R84. -/
def zeroSign (sign : BitVec 128) (rm j : Nat) (y : List Num) : Bool :=
  let negs := (List.range y.length).map fun i => match y.getD i (.fin false 0 0) with
    | .fin neg _ _ => neg != (sign.getLsbD j != oddBits (i &&& j))
    | _ => false
  let zeros := y.all fun v => match v with | .fin _ m _ => m = 0 | _ => false
  if zeros && negs.all id then true else if zeros && !negs.any id then false else rm = 2

/-- The inverse of one block (R84, R208), rounded with a mode. -/
def derotateBlock (sign : BitVec 128) (k dst rm : Nat) (sat : Bool) (y : List Num) : List (Nat × Flags) :=
  match alignBlock y with
  | none => y.map fun _ => (canonNaN dst, fNV)
  | some (ints, l) =>
    let out := flipSigns sign (butterfly k ints)
    (List.range out.length).map fun j =>
      let x := out.getD j 0
      if x = 0 && !isInt dst then (withSign dst (zeroSign sign rm j y) 0, fNone) else deliver dst rm sat x (l - k)

/-- A list cut into blocks of b elements, at most n of them. -/
def chunks {α : Type} (b : Nat) : Nat → List α → List (List α)
  | 0, _ => []
  | n + 1, l => if l.isEmpty then [] else l.take b :: chunks b n (l.drop b)

/-- An element as a number (R57, R58). -/
def numOf (t x : Nat) : Num := if isInt t then numOfInt (decodeI t x) else decodeF t x

/-- The registers of a group (R206). -/
def groupRegs (r : Reg) (g : Nat) : List Reg := (List.range g).map fun j => Fin.ofNat 32 (r.val + j)

/-- A rotation form on a register group: every block of group lanes replaced, the sign register and the sources read first (R206). -/
def rotateGroup (ok : Hints) (f : SignReg → Nat → M (List Num → List (Nat × Flags))) (d a : Reg) (src : Fin 16)
    (k : Fin 8) (dst : Fin 16) (s : State) : Host.Outcome State Fault Refusal :=
  let ws := fmtWidth src.val
  let wd := fmtWidth dst.val
  let n := convLanes ws wd 1024
  xIssue ok [] (do
    let q := (← myCore).signReg k.val
    let b := blockOf q.blk.toNat
    let g := max 1 (b / n)
    checkAliases ((groupRegs a g).map vIn ++ (groupRegs d g).map vOut)
    let xs ← (groupRegs a g).mapM rdV
    let fn ← f q (Nat.log2 b)
    let lanes := (xs.map fun x => (List.range n).map fun i => numOf src.val (lane ws x.toNat i)).flatten
    let out := ((chunks b (g * n / b) lanes).map fn).flatten
    for r in (groupRegs d g).zip (chunks n g out) do
      wrV r.1 (BitVec.ofNat 1024 (packLanes wd (r.2.map (·.1)))) (BitVec.allOnes 128)
    raise (out.foldl (fun fl x => fl ||| x.2) fNone)) s

/-- VCVTR (R205 to R207). -/
def execVcvtr (d a : Reg) (t : Fin 16) (k : Fin 8) (u : Fin 16) (s : State) : Host.Outcome State Fault Refusal :=
  rotateGroup satX (fun q l => do
    let sat ← satMode
    return rotateBlock q.sign l u.val sat) d a t k u s

/-- VDEROT (R205, R206, R208). -/
def execVderot (d a : Reg) (t : Fin 16) (k : Fin 8) (u : Fin 16) (s : State) : Host.Outcome State Fault Refusal :=
  rotateGroup noHint (fun q l => do
    let rm ← roundMode
    let sat ← satMode
    return derotateBlock q.sign l u.val rm sat) d a t k u s

/-- HSLD (R209). -/
def execHsld (k a : Reg) (b : Fin 4) (s : State) : Host.Outcome State Fault Refusal :=
  xIssue noHint [vIn a] (do
    let x ← rdV a
    updMy fun c => { c with hs := Tbl.set SignReg.init c.hs k.val ⟨x.setWidth 128, BitVec.ofNat 2 b.val⟩ }) s

/-- HSRD (R209). -/
def execHsrd (d : Reg) (k : Fin 8) (s : State) : Host.Outcome State Fault Refusal :=
  xIssue noHint [vOut d] (do
    let q := (← myCore).signReg k.val
    wrV d (BitVec.ofNat 1024 (q.sign.toNat + q.blk.toNat * 2 ^ 128)) (BitVec.allOnes 128)) s

end Sys2Proof.Machine
end

