-- ==== Sys2Proof/Machine/PartialSum.lean ====
section
/-! DEFINITION. Exact reals with their special values, and the partial-sum row (chapter The number, Block sums and the
running exponent). -/

namespace Sys2Proof.Machine

/-! ## Exact values (R76) -/

/-- An exact real m·2^e, or a special value. -/
structure Exact where
  sp : Special
  m : Int
  e : Int
  deriving DecidableEq, Repr

abbrev Exact.zero : Exact := ⟨.none, 0, 0⟩

/-- A number as an exact value: its sign of zero is not part of it. -/
def Num.exact : Num → Exact
  | .nan _ => ⟨.nan, 0, 0⟩
  | .inf neg => ⟨if neg then .ninf else .pinf, 0, 0⟩
  | .fin neg m e => ⟨.none, if neg then -(m : Int) else m, e⟩

/-- An exact value as a number: a zero is +0 (R81). -/
def Exact.num (x : Exact) : Num :=
  match x.sp with
  | .none => .fin (decide (x.m < 0)) x.m.natAbs x.e
  | .nan => .nan false
  | .pinf => .inf false
  | .ninf => .inf true

/-- The sign of a value that is not NaN. -/
def Exact.sign (x : Exact) : Int :=
  match x.sp with
  | .none => x.m.sign
  | .nan => 0
  | .pinf => 1
  | .ninf => -1

/-- The special state of a sum from those of its terms (R76, R78). -/
def Special.join : Special → Special → Special
  | .none, b => b
  | a, .none => a
  | a, b => if a = b then a else .nan

/-- An exact product: a NaN factor and 0 × ∞ give NaN (R76). -/
def Exact.mul (x y : Exact) : Exact :=
  if x.sp = .none ∧ y.sp = .none then ⟨.none, x.m * y.m, x.e + y.e⟩
  else if x.sp = .nan ∨ y.sp = .nan then ⟨.nan, 0, 0⟩
  else
    let g := x.sign * y.sign
    ⟨if g = 0 then .nan else if 0 < g then .pinf else .ninf, 0, 0⟩

/-- An exact sum (R76). -/
def Exact.add (x y : Exact) : Exact :=
  match x.sp.join y.sp with
  | .none =>
    if x.m = 0 then y
    else if y.m = 0 then x
    else
      let q := if x.e < y.e then x.e else y.e
      ⟨.none, x.m * 2 ^ (x.e - q).toNat + y.m * 2 ^ (y.e - q).toNat, q⟩
  | sp => ⟨sp, 0, 0⟩

/-- The exact sum of a list. -/
def Exact.sum (l : List Exact) : Exact := l.foldl Exact.add Exact.zero

/-- A value moved by a power of two. -/
def Exact.scale (x : Exact) (k : Int) : Exact := { x with e := x.e + k }

/-! ## The row (R77, R78) -/

def PsRow.elem (r : PsRow) (j : Nat) : PsElem := Tbl.get PsElem.init r.el j

/-- The value of an element (R77). -/
def PsRow.value (r : PsRow) (j : Nat) : Exact :=
  let x := r.elem j
  match x.sp with
  | .none => ⟨.none, x.m, r.e⟩
  | sp => ⟨sp, 0, 0⟩

/-- A row from an exponent and its elements. -/
def PsRow.of (e : Int) (l : List PsElem) : PsRow :=
  ⟨e, (List.range l.length).foldl (fun t j => Tbl.set PsElem.init t j (l.getD j PsElem.init)) []⟩

/-- A zeroed row (R77). -/
def PsRow.zeroed (e : Int) : PsRow := ⟨e, []⟩

/-- The largest mantissa. -/
abbrev mantMax : Nat := 2 ^ 63 - 1

/-- The smallest exponent from e on at which a value rounds to a mantissa (R78). -/
def Exact.needs (t : Exact) (e : Int) : Int :=
  if t.m = 0 then e
  else
    let low := t.e + (Nat.log2 t.m.natAbs + 1 : Nat) - 63
    let q := if e < low then low else e
    if mantMax < (onGrid 0 (decide (t.m < 0)) t.m.natAbs t.e q).1 then q + 1 else q

/-- What a step did to a row: NX if it rounded, OF if an element became infinite, NV if one became NaN because two
infinities of opposite sign met; and whether a NaN was added to an element that was none (R225, R234). -/
structure StepEnd where
  row : PsRow
  flags : Flags
  nan : Bool
  deriving DecidableEq, Repr

/-- Adding sixteen values to a row in one step (R78). -/
def PsRow.step (r : PsRow) (s : Nat → Exact) : StepEnd :=
  let idx := List.range 16
  let t := idx.map fun j => (r.value j).add (s j)
  let e2 := t.foldl (fun e x => if x.sp = .none then x.needs e else e) r.e
  let e3 := if 32767 < e2 then 32767 else e2
  let out := t.map fun x =>
    match x.sp with
    | .none =>
      let neg := decide (x.m < 0)
      let q := if x.m = 0 then (0, false) else onGrid 0 neg x.m.natAbs x.e e3
      if mantMax < q.1 then ((⟨0, if neg then .ninf else .pinf⟩ : PsElem), fOF)
      else (⟨if neg then -(q.1 : Int) else q.1, .none⟩, if q.2 then fNX else fNone)
    | sp => (⟨0, sp⟩, fNone)
  let became := idx.filter fun j => (r.elem j).sp != .nan && (t.getD j Exact.zero).sp = .nan
  let opp := became.any fun j => (s j).sp != .nan
  ⟨PsRow.of e3 (out.map (·.1)), out.foldl (fun f x => f ||| x.2) (if opp then fNV else fNone),
    became.any fun j => (s j).sp = .nan⟩

/-! ## Messages (R80) -/

/-- The value of a message; an exponent further out than these bounds gives the same row (R80, R78). -/
def messageValue (w0 w1 : Word) : Exact :=
  match bits w1.toNat 32 3 with
  | 0 =>
    let x := sext 32 w1.toNat
    ⟨.none, w0.toInt, satI x (-33000) 40000⟩
  | 1 => ⟨.nan, 0, 0⟩
  | 2 => ⟨.pinf, 0, 0⟩
  | 4 => ⟨.ninf, 0, 0⟩
  | _ => ⟨.nan, 0, 0⟩

/-- The message of an element, word 0 first (R80, R224). -/
def PsRow.message (r : PsRow) (j : Nat) : Word × Word :=
  let x := r.elem j
  let b := match x.sp with
    | .none => 0
    | .nan => 2 ^ 32
    | .pinf => 2 ^ 33
    | .ninf => 2 ^ 34
  (int64 x.m, BitVec.ofNat 64 (wrapN 32 r.e + b))

/-- Sixteen messages in a register group of v registers (R223). -/
def PsRow.messages (r : PsRow) : Nat :=
  packLanes 64 (((List.range 16).map fun j => [(r.message j).1.toNat, (r.message j).2.toNat]).flatten)

/-! ## Starting exponents (R79, R217) -/

/-- The format codes that an A tile may have, and those a B tile may have beside one (R217). -/
def formatsA : List Nat := [3, 4, 5]
def formatsB : List Nat := [0, 1, 3, 4, 5]

/-- The starting exponent of a format pair (R79). -/
def startExp (a b : Nat) : Int :=
  if (a = 3 ∧ (b = 3 ∨ b ≤ 1)) ∨ (a = 4 ∧ b ≤ 1) then -18 else -32768

/-! ## The partial-sum registers of a core (R222) -/

def Core.psRow (k : Core) (n r : Nat) : PsRow := Tbl.get PsRow.init k.ps (16 * n + r)
def Core.setPsRow (k : Core) (n r : Nat) (x : PsRow) : Core := { k with ps := Tbl.set PsRow.init k.ps (16 * n + r) x }
def Core.tagOf (k : Core) (n : Nat) : Option (BitVec 6) := Tbl.get none k.psTag n
def Core.setTag (k : Core) (n : Nat) (t : Option (BitVec 6)) : Core := { k with psTag := Tbl.set none k.psTag n t }

/-- Zeroing all sixteen rows. -/
def Core.zeroPs (k : Core) (n : Nat) (e : Int) : Core :=
  (List.range 16).foldl (fun k r => k.setPsRow n r (PsRow.zeroed e)) k

/-- c of R82: 5, 6 or 7 for an enabled tag, else 0 (R202). -/
def tagFactor (t : Option (BitVec 6)) : Nat :=
  match t with
  | some x => if tagOn x.toNat then 5 + tagBs x.toNat else 0
  | none => 0

/-! ## Counters (R234, R262) -/

/-- Adding 1 where a condition holds, saturating at 0xFFFF. -/
def bump (on : Bool) (x : BitVec 16) : BitVec 16 := if on && x != 0xFFFF then x + 1 else x

/-- The row counters of R234. -/
def Counters.row (c : Counters) (f : Flags) : Counters :=
  { c with
      nxr := bump (f.getLsbD 0) c.nxr, ufr := bump (f.getLsbD 1) c.ufr, ofr := bump (f.getLsbD 2) c.ofr,
      nvr := bump (f.getLsbD 4) c.nvr }

end Sys2Proof.Machine
end

