-- ==== Sys2Proof/Machine/Unit.lean ====
section
/-! DEFINITION. The matrix unit: acceptance of commands, operand tiles, the arbiter, the effect of each command when it
executes, its completion, and the adapter cache (chapters The accumulator handle and the matrix unit and The adapter). -/

namespace Sys2Proof.Machine

/-! ## Words of the commands -/

/-- The tile descriptor (R215). -/
def tOff (w : Word) : Nat := bits w.toNat 0 20
def tPitch (w : Word) : Nat := bits w.toNat 20 12
def tFmt (w : Word) : Nat := bits w.toNat 32 4
def tTag (w : Word) : Nat := bits w.toNat 36 6
def tTr (w : Word) : Bool := w.getLsbD 42

/-- The control word (R220, R248) and the scale control word (R237). -/
def cK (w : Word) : Nat := bits w.toNat 0 13
def cPs (w : Word) : Nat := bits w.toNat 13 1
def cRow (w : Word) (r : Nat) : Bool := w.getLsbD (16 + r)
def cCol (w : Word) (n : Nat) : Bool := w.getLsbD (32 + n)

/-- The active rows and columns, ascending. -/
def cRows (w : Word) : List Nat := (List.range 16).filter (cRow w)
def cCols (w : Word) : List Nat := (List.range 16).filter (cCol w)

/-- The handle selector word (R227). -/
def sH (w : Word) : Nat := bits w.toNat 0 8
def sIdx (w : Word) : Nat := bits w.toNat 8 4
def sOff (w : Word) : Nat := bits w.toNat 12 4
def sPsf (w : Word) : Bool := w.getLsbD 16
def sPsn (w : Word) : Nat := bits w.toNat 17 1
def sWhat (w : Word) : Nat := bits w.toNat 18 2
def sClr (w : Word) : Bool := w.getLsbD 20

/-- The fields of an adapter table entry (R244). -/
def AdEntry.id (e : AdEntry) : Nat := bits e.w0.toNat 0 16
def AdEntry.rank (e : AdEntry) : Nat := bits e.w0.toNat 16 5
def AdEntry.tag (e : AdEntry) : Nat := bits e.w0.toNat 24 6
def AdEntry.alpha (e : AdEntry) : Nat := bits e.w0.toNat 32 16
def AdEntry.la (e : AdEntry) : Nat := bits e.w1.toNat 0 60
def AdEntry.lb (e : AdEntry) : Nat := bits e.w2.toNat 0 60
def AdEntry.pitch (e : AdEntry) : Nat := bits e.w3.toNat 0 16
def AdEntry.klim (e : AdEntry) : Nat := bits e.w3.toNat 16 16
def AdEntry.nlim (e : AdEntry) : Nat := bits e.w3.toNat 32 16

/-- The adapter bases (R247). -/
def adKB (a : BitVec 32) : Nat := bits a.toNat 0 16
def adNB (a : BitVec 32) : Nat := bits a.toNat 16 16

/-! ## Octet parts -/

def Octet.handle (q : Octet) (h : Nat) : Handle := Tbl.get Handle.init q.handles h
def Octet.updHandle (q : Octet) (h : Nat) (f : Handle → Handle) : Octet :=
  { q with handles := Tbl.upd Handle.init q.handles h f }
def Octet.entry (q : Octet) (n : Nat) : AdEntry := Tbl.get AdEntry.init q.dir n
def Octet.setEntry (q : Octet) (n : Nat) (e : AdEntry) : Octet := { q with dir := Tbl.set AdEntry.init q.dir n e }

/-- The slot that holds an identifier, and its entry (R244, R249). -/
def Octet.lookup (q : Octet) (id : Nat) : Option (Nat × AdEntry) :=
  if id = 0 then none else q.dir.find? fun e => e.2.id = id

/-- Changing one command. -/
def Octet.updCmd (q : Octet) (id : Nat) (f : MxCmd → MxCmd) : Octet :=
  { q with cmds := q.cmds.map fun c => if c.id = id then f c else c }
def Octet.dropCmd (q : Octet) (id : Nat) : Octet := { q with cmds := q.cmds.filter fun c => c.id != id }

/-- The weight w_k of a core (R213, R214). -/
def Octet.weight (q : Octet) (k : Nat) : Nat := bits q.weights.toNat (4 * k) 4

/-- The commands of R211 whose thread waits for their completion. -/
def MxOp.waits : MxOp → Bool
  | .hrowst | .hcolst | .hstat | .hdrain | .psrd | .reda | .redx | .astat => true
  | _ => false

/-- The handle a command names. -/
def MxCmd.handle? (c : MxCmd) : Option Nat :=
  match c.op with
  | .hfree | .hcfg | .hrowld | .hrowst | .hcolld | .hcolst | .hdrain | .hrescale => some (sH c.a)
  | .hzero => if sPsf c.a then none else some (sH c.a)
  | .hstat => if sWhat c.a = 0 then some (sH c.a) else none
  | .halloc => if c.k < 256 then some c.k else none
  | .msca | .mscars => some (sH c.d)
  | _ => none

/-- The partial-sum register a command names. -/
def MxCmd.ps? (c : MxCmd) : Option Nat :=
  match c.op with
  | .mma | .mmaz | .mmaad | .msca | .mscars => some (cPs c.d)
  | .psrd | .reda | .redx => some c.k
  | .hzero => if sPsf c.a then some (sPsn c.a) else none
  | _ => none

/-- A command with nothing staged. -/
def MxCmd.new (op : MxOp) : MxCmd where
  id := 0
  core := 0
  op := op
  d := 0
  a := 0
  b := 0
  v := []
  k := 0
  c := 0
  rm := 0
  sat := false
  exp := 0
  genOld := 0
  adt := 0
  bound := []
  undo := []
  rows := []
  cut := []
  stage := .queued
  f := none
  vres := []
  flags := 0
  old := .none

/-! ## Acceptance (R210 to R212) -/

/-- The X-thread of a compute core. -/
def xCompute : Who := ⟨false, true, [.compute]⟩

/-- The octet of the issuing core, and that core's index in it. -/
def myOctet : M OctName := do return ((← ask State.cur).octet?).getD ⟨0, 0⟩
def myIdx : M (Fin 8) := do
  match ← ask State.cur with
  | .compute _ x => return x
  | _ => return 0

/-- The instruction that follows a discarded command traps, and ERR clears (R241, R256). -/
def mxError : M Unit := do
  match (← myCore).mxErr with
  | some e => trapWith e.1 e.2 fun s => s.updCore s.cur fun k => { k with mxErr := none }
  | none => pure ()

/-- A command waits for room in its core's queue of eight (R210). -/
def mxRoom : M Unit := do
  let o ← myOctet
  let x ← myIdx
  let q ← ask fun s => (s.octet o).cmds
  if 8 ≤ (q.filter fun c => c.core = x && c.stage = .queued).length then wait .matrix

/-- Acceptance: the command enters its core's queue (R210). -/
def mxAccept (c : MxCmd) : M Nat := do
  let o ← myOctet
  let x ← myIdx
  let k ← myCore
  let id ← ask fun s => (s.octet o).nextCmd
  act fun s => s.updOctet o fun q =>
    { q with nextCmd := id + 1, cmds := q.cmds ++ [{ c with id := id, core := x, exp := k.mgen, adt := k.adtbase }] }
  return id

/-- An instruction of R210 that retires at acceptance; GEOM and MSYNC share its first check (R241). DEDUCED, entry 28. -/
def mxIssue (ops : List Opnd) (body : M Unit) (s : State) : Host.Outcome State Fault Refusal :=
  issue xCompute noHint .user (seq do
    mxError
    checkAliases ops
    body) s

/-- HANDLE_RANGE: reason and operand (0 d, 1 a, 2 b) (R110). -/
def handleRange {α : Type} (reason operand : Nat) : M α :=
  trap Cause.handleRange (BitVec.ofNat 64 (reason + 16 * operand))

/-- Parts of a handle in the accepted view: whether it is FREE, its GEN, its DISC. -/
structure ViewSet where
  free : Option Bool
  gen : Option (BitVec 8)
  disc : Option Bool
  deriving DecidableEq, Repr

/-- A handle whose accepted view command number n − 1 has set in part. -/
def Handle.view (x : Handle) (v : ViewSet) (n : Nat) : Handle :=
  { x with
      free := v.free.getD x.free, freeBy := if v.free.isSome then n else x.freeBy,
      gen := v.gen.getD x.gen, genBy := if v.gen.isSome then n else x.genBy,
      disc := v.disc.getD x.disc, discBy := if v.disc.isSome then n else x.discBy }

/-- What a command that sets those parts would put back. -/
def Handle.undos (x : Handle) (h : Nat) (v : ViewSet) : List Undo :=
  (if v.free.isSome then [.free h x.free x.freeBy] else []) ++ (if v.gen.isSome then [.gen h x.gen x.genBy] else []) ++
    (if v.disc.isSome then [.disc h x.disc x.discBy] else [])

/-- Changing a handle in the accepted view; what it was goes with the command (R212, R241). -/
def setView (h : Nat) (v : ViewSet) : M (List Undo) := do
  let o ← myOctet
  let old ← ask fun s => (s.octet o).handle h
  act fun s => s.updOctet o fun q => q.updHandle h fun x => x.view v (q.nextCmd + 1)
  return old.undos h v

/-- Setting a partial-sum register's tag in the accepted view (R202, R212). -/
def setPsTag (n : Nat) (t : Option (BitVec 6)) : M Undo := do
  let old := (← myCore).tagOf n
  updMy fun k => k.setTag n t
  return .tag n old

/-- A command that meets a bad granule when it reads at acceptance is discarded: nothing is queued (R241). -/
def mxDiscarded (f : BitVec 8 × Nat) : M Unit := do
  let o ← myOctet
  updMy fun k => { k with mxErr := some (f.1, BitVec.ofNat 64 (f.2 - scratchBase o)) }

/-! ## Tiles (R215, R216) -/

/-- The bytes of n elements of a stored row (R61, R216). -/
def rowBytes (fmt n : Nat) : Nat := if fmt = 0 then (n + 7) / 8 * 3 else (n * fmtWidth fmt + 7) / 8

/-- The first byte of element n of a stored row: for INT3, of its group of eight (R61). -/
def elemByte (fmt n : Nat) : Nat := if fmt = 0 then n / 8 * 3 else n * fmtWidth fmt / 8

/-- The runs of an ascending list of indices: where each starts, and its length. -/
def runs : List Nat → List (Nat × Nat)
  | [] => []
  | i :: l => match runs l with
    | (j, n) :: r => if j = i + 1 then (i, n + 1) :: r else (i, 1) :: (j, n) :: r
    | [] => [(i, 1)]

/-- The parts of the scratchpad that the active rows of an A tile, or columns of a B tile, read, and no other: `kfirst` says that
the stored rows lie along K (R216). -/
def tileRanges (w : Word) (kfirst : Bool) (act : List Nat) (k : Nat) : List (Nat × Nat) :=
  if kfirst then act.map fun i => (tOff w + i * tPitch w * 64, rowBytes (tFmt w) k)
  else
    let part := fun (j : Nat) (r : Nat × Nat) =>
      let b := elemByte (tFmt w) r.1
      (tOff w + j * tPitch w * 64 + b, rowBytes (tFmt w) (r.1 + r.2) - b)
    (List.range k).flatMap fun j => (runs act).map (part j)

/-- The end of the bytes that are read: rows and pitches only rise. -/
def tileEnd (w : Word) (kfirst : Bool) (act : List Nat) (k : Nat) : Nat :=
  match act.getLast? with
  | none => 0
  | some m =>
    if kfirst then tOff w + m * tPitch w * 64 + rowBytes (tFmt w) k
    else tOff w + (k - 1) * tPitch w * 64 + rowBytes (tFmt w) (m + 1)

/-- Element e of a stored row. -/
def State.stored (s : State) (o : OctName) (w : Word) (row e : Nat) : Exact :=
  let n := fmtWidth (tFmt w)
  let bit := e * n
  let x := s.readLE (scratchBase o + tOff w + row * tPitch w * 64 + bit / 8) ((bit % 8 + n + 7) / 8)
  (numOf (tFmt w) (x / 2 ^ (bit % 8) % 2 ^ n)).exact

/-- A(r, k) and B(k, n) (R216). -/
def State.tileA (s : State) (o : OctName) (w : Word) (r k : Nat) : Exact :=
  if tTr w then s.stored o w k r else s.stored o w r k
def State.tileB (s : State) (o : OctName) (w : Word) (k n : Nat) : Exact :=
  if tTr w then s.stored o w n k else s.stored o w k n

/-- Examining parts of the scratchpad in order; the failure's value is the scratchpad offset (R241). -/
def State.checkParts (s : State) (o : OctName) : List (Nat × Nat) → State × Option (BitVec 8 × Nat)
  | [] => (s, none)
  | p :: ps =>
    let r := s.checkRead (scratchBase o + p.1) p.2
    match r.2 with
    | some f => (r.1, some (f.1, f.2 - scratchBase o))
    | none => r.1.checkParts o ps

/-- Examining elements of a handle's accumulator memory (R241). -/
def State.checkAcc (s : State) (o : OctName) (h : Nat) : List Nat → State × Option (BitVec 8 × Nat)
  | [] => (s, none)
  | i :: is =>
    let r := s.checkRead (accBase o h + 4 * i) 4
    match r.2 with
    | some f => (r.1, some (f.1, 2 ^ 31 + 1024 * h + (f.2 - accBase o h)))
    | none => r.1.checkAcc o h is

/-- What an MMA, MMAZ or row of an MMAAD reads of its tiles, for the rows that are read. -/
def MxCmd.tileParts (c : MxCmd) (rows : List Nat) : List (Nat × Nat) :=
  if rows.isEmpty then []
  else tileRanges c.a (!tTr c.a) rows (cK c.d) ++ tileRanges c.b (tTr c.b) (cCols c.d) (cK c.d)

/-! ## Row sums (R221, R251) -/

/-- The block sum q of row r and column n (R76). -/
def State.blockSum (s : State) (o : OctName) (c : MxCmd) (r n q : Nat) : Exact :=
  Exact.sum ((List.range (min 32 (cK c.d - 32 * q))).map fun i =>
    (s.tileA o c.a r (32 * q + i)).mul (s.tileB o c.b (32 * q + i) n))

/-- The base part of a row: its K-blocks ascending (R221); a row's flags gather as R234 counts them. -/
def State.baseRow (s : State) (o : OctName) (c : MxCmd) (r : Nat) (row : PsRow) : PsRow × Flags :=
  (List.range (ceilDiv (cK c.d) 32)).foldl (fun p q =>
    let x := p.1.step fun n => if cCol c.d n then s.blockSum o c r n q else Exact.zero
    (x.row, p.2 ||| x.flags ||| if x.nan then fNV else fNone)) (row, fNone)

/-- The lines a row with an entry needs (R247). -/
def linesOf (id : Nat) (adt : BitVec 32) (k : Nat) : List LineKey :=
  ((List.range (ceilDiv k 64)).map fun i => ⟨id, .la, 2 * adKB adt + i⟩) ++ [⟨id, .lb, adNB adt / 4⟩]

/-- A line of the cache as a command uses it: the one that it held when that was invalidated, else the valid one (R259). -/
def Octet.line? (q : Octet) (id : Nat) (key : LineKey) (e : AdEntry) : Option AdLine :=
  let here := fun l : AdLine => l.key = key && l.entry = e
  (q.lines.find? fun l => here l && l.stale && l.users.contains id).orElse fun _ => q.lines.find? fun l => here l && !l.stale

/-- The BF16 value at a byte of a line. -/
def Octet.lineValue (q : Octet) (id : Nat) (key : LineKey) (e : AdEntry) (at_ : Nat) : Exact :=
  match q.line? id key e with
  | some l => (decodeF 5 ((l.data.getD at_ 0).toNat + 256 * (l.data.getD (at_ + 1) 0).toNat)).exact
  | none => Exact.zero

/-- The adapter part of a row, after its last K-block: u rounded once, then one step (R251). -/
def State.adapterRow (s : State) (o : OctName) (c : MxCmd) (e : AdEntry) (r : Nat) (row : PsRow) : PsRow × Flags :=
  let q := s.octet o
  let k0 := 128 * adKB c.adt
  let f := tagFactor (some (BitVec.ofNat 6 (tTag c.a)))
  let u := (List.range e.rank).map fun j =>
    let sum := Exact.sum ((List.range (cK c.d)).map fun k =>
      (s.tileA o c.a r k).mul (q.lineValue c.id ⟨e.id, .la, (k0 + k) / 64⟩ e ((k0 + k) % 64 * 32 + 2 * j)))
    roundNum 7 0 false (sum.scale (-(f : Int))).num
  let n0 := 16 * adNB c.adt
  let alpha := (decodeF 5 e.alpha).exact
  let sums := (List.range 16).map fun n =>
    if cCol c.d n then
      (alpha.mul (Exact.sum ((List.range e.rank).map fun j =>
        (decodeF 7 (u.getD j (0, 0)).1).exact.mul
          (q.lineValue c.id ⟨e.id, .lb, adNB c.adt / 4⟩ e (128 * j + 2 * ((n0 + n) % 64)))))).scale f
    else Exact.zero
  let x := row.step fun n => sums.getD n Exact.zero
  (x.row, (u.foldl (fun g y => g ||| y.2) x.flags) ||| if x.nan then fNV else fNone)

/-- The core a command is of. -/
def MxCmd.name (c : MxCmd) (o : OctName) : CoreName := .compute o c.core

/-- Running one row of an MMA, MMAZ or MMAAD, its flags counted once (R221, R234, R251). -/
def State.runRow (s : State) (o : OctName) (c : MxCmd) (r : Nat) : State :=
  let k := s.core (c.name o)
  let base := s.baseRow o c r (k.psRow (cPs c.d) r)
  let out := match c.bound.find? fun b => b.1 = r with
    | some b =>
      let x := s.adapterRow o c b.2 r base.1
      (x.1, base.2 ||| x.2)
    | none => base
  s.updCore (c.name o) fun k => { k.setPsRow (cPs c.d) r out.1 with cnt := k.cnt.row out.2 }

/-! ## The adapter cache (R246, R252, R253) -/

/-- The lines a row of an MMAAD needs, each with its entry: none for a row without an identifier. -/
def MxCmd.needs (c : MxCmd) (r : Nat) : List (LineKey × AdEntry) :=
  match c.bound.find? fun b => b.1 = r with
  | some b => (linesOf b.2.id c.adt (cK c.d)).map fun l => (l, b.2)
  | none => []

/-- The deferred row whose turn it is: of the oldest taken command with one, the first (R253). -/
def Octet.turn? (q : Octet) : Option (MxCmd × Nat) :=
  q.cmds.findSome? fun c => if c.stage = .executed then c.rows.head?.map fun r => (c, r) else none

/-- The rows of an MMAAD that execute in its pass (R252, R256). -/
def MxCmd.passRows (c : MxCmd) : List Nat := (cRows c.d).filter fun r => !c.rows.contains r && !c.cut.contains r

/-- The lines held by the row whose turn it is (R253). -/
def Octet.turnLines (q : Octet) : List (Nat × LineKey × AdEntry) :=
  match q.turn? with
  | some t => (t.1.needs t.2).map fun n => (t.1.id, n)
  | none => []

/-- The lines held against eviction and invalidation, each with its command's number: those of the row whose turn it is, and those
the command that has been taken is about to read (R253, R259). -/
def Octet.heldLines (q : Octet) : List (Nat × LineKey × AdEntry) :=
  q.turnLines ++ q.cmds.flatMap fun c =>
    if c.stage = .taken ∧ c.op = .mmaad then (c.passRows.flatMap c.needs).map fun n => (c.id, n) else []

/-- The commands among some uses that hold a line. -/
def AdLine.holders (l : AdLine) (uses : List (Nat × LineKey × AdEntry)) : List Nat :=
  (uses.filter fun h => h.2 = (l.key, l.entry) && (!l.stale || l.users.contains h.1)).map Prod.fst

/-- Whether a line is held. -/
def Octet.isHeld (q : Octet) (l : AdLine) : Bool := l.holders q.heldLines != []

/-- A line present for a lookup: one that waits only for its use to end is not (R259). -/
def Octet.present (q : Octet) (n : LineKey × AdEntry) : Bool := q.lines.any fun l => l.key = n.1 && l.entry = n.2 && !l.stale

/-- Requesting a fill, once (R252). DESIGN CHOICE, entry 28: a line that two cores ask for while its fill is outstanding is filled, and
counted (R262), for the first of them. -/
def Octet.fill (q : Octet) (x : Fin 8) (n : LineKey × AdEntry) : Octet :=
  if q.present n || q.fills.any fun f => f.key = n.1 && f.entry = n.2 then q
  else { q with fills := q.fills ++ [⟨n.1, n.2, x⟩] }

/-- A line that a command used moves to the end of the order (R253). -/
def Octet.touch (id : Nat) (q : Octet) (n : LineKey × AdEntry) : Octet :=
  match q.line? id n.1 n.2 with
  | some l => { q with lines := (q.lines.filter fun x => x != l) ++ [l] }
  | none => q

/-- Removing the first line that a test names. -/
def dropLine (p : AdLine → Bool) : List AdLine → List AdLine
  | [] => []
  | l :: ls => if p l then ls else l :: dropLine p ls

/-- A row of a taken MMAAD that has lost a line before its pass is deferred (R252, R253). DESIGN CHOICE, entry 28. -/
def Octet.deferRows (q : Octet) (l : AdLine) : Octet :=
  { q with cmds := q.cmds.map fun c =>
      if c.stage = .taken ∧ c.op = .mmaad then
        { c with rows := (cRows c.d).filter fun r =>
            c.rows.contains r || (!c.cut.contains r && (c.needs r).contains (l.key, l.entry)) }
      else c }

/-- Putting a line in: with 128 present, the least recently used one that is not held goes, or where every line is held, the least
recently used one that is not the turn's (R246, R253). -/
def Octet.install (q : Octet) (l : AdLine) : Octet :=
  let rest := q.lines.filter fun x => x.stale || !(x.key = l.key && x.entry = l.entry)
  if rest.length < 128 then { q with lines := rest ++ [l] }
  else match rest.find? (fun x => !q.isHeld x) with
    | some _ => { q with lines := dropLine (fun x => !q.isHeld x) rest ++ [l] }
    | none =>
      let free := fun x : AdLine => x.holders q.turnLines = []
      match rest.find? free with
      | some x => { q.deferRows x with lines := dropLine free rest ++ [l] }
      | none => q

/-- Invalidating lines; one that is held, when that use ends (R259, R260). -/
def Octet.invalidate (q : Octet) (p : Nat → Bool) : Octet :=
  { q with lines := (q.lines.map fun l =>
      if p l.key.id && !l.stale then { l with stale := true, users := l.holders q.heldLines } else l).filter fun l =>
      !l.stale || q.isHeld l }

/-- Lines whose use has ended go, and the row whose turn it is asks again for a line that is gone (R253, R259). -/
def Octet.serve (q : Octet) : Octet :=
  let q := { q with lines := q.lines.filter fun l => !l.stale || q.isHeld l }
  match q.turn? with
  | some t => (t.1.needs t.2).foldl (fun q n => if (q.line? t.1.id n.1 n.2).isSome then q else q.fill t.1.core n) q
  | none => q

/-! ## Discarding (R241, R256) -/

/-- What a later command would put back, were it discarded too, once command `id`, which changed the same before it, is
discarded. -/
def Undo.after (id : Nat) (u later : Undo) : Undo :=
  match u, later with
  | .free h _ _, .free h' _ b => if h = h' ∧ b = id + 1 then u else later
  | .gen h _ _, .gen h' _ b => if h = h' ∧ b = id + 1 then u else later
  | .disc h _ _, .disc h' _ b => if h = h' ∧ b = id + 1 then u else later
  | .slot n _ _, .slot n' _ b => if n = n' ∧ b = id + 1 then u else later
  | _, l => l

/-- Undoing what an acceptance changed in the accepted view; what a later command has changed since stands (R212, R241). -/
def State.undo (s : State) (o : OctName) (c : MxCmd) : State :=
  c.undo.foldl (fun s u =>
    let later := fun s : State => s.updOctet o fun q =>
      { q with cmds := q.cmds.map fun d => { d with undo := d.undo.map (u.after c.id) } }
    match u with
    | .tag n t => s.updCore (c.name o) fun k => k.setTag n t
    | .free h old b =>
      if ((s.octet o).handle h).freeBy = c.id + 1 then s.updOctet o fun q => q.updHandle h fun x => { x with free := old, freeBy := b }
      else later s
    | .gen h old b =>
      if ((s.octet o).handle h).genBy = c.id + 1 then s.updOctet o fun q => q.updHandle h fun x => { x with gen := old, genBy := b }
      else later s
    | .disc h old b =>
      if ((s.octet o).handle h).discBy = c.id + 1 then s.updOctet o fun q => q.updHandle h fun x => { x with disc := old, discBy := b }
      else later s
    | .slot n e b =>
      if Tbl.get 0 (s.octet o).dirBy n = c.id + 1 then
        s.updOctet o fun q => { q.setEntry n e with dirBy := Tbl.set 0 q.dirBy n b }
      else later s) s

/-- Commands that change nothing before their completion, since their thread waits for it (R211, R254). -/
def MxCmd.late (c : MxCmd) : Bool :=
  match c.op with
  | .reda | .astat => true
  | .hstat => sWhat c.a != 0
  | _ => false

/-- What a command has counted is taken back, or added. -/
def Counters.minus (a b : Counters) : Counters :=
  ⟨a.nxr - b.nxr, a.ufr - b.ufr, a.ofr - b.ofr, a.nvr - b.nvr, a.drop - b.drop, a.hitRows - b.hitRows, a.replays - b.replays,
    a.fills - b.fills⟩
def Counters.plus (a b : Counters) : Counters :=
  ⟨a.nxr + b.nxr, a.ufr + b.ufr, a.ofr + b.ofr, a.nvr + b.nvr, a.drop + b.drop, a.hitRows + b.hitRows, a.replays + b.replays,
    a.fills + b.fills⟩

/-- What a command finds as it executes. -/
def State.oldOf (s : State) (o : OctName) (c : MxCmd) : MxOld :=
  let k := s.core (c.name o)
  let inAcc := fun h a => decide (accBase o h ≤ a ∧ a < accBase o h + 1024)
  ⟨match c.ps? with | some p => (List.range 16).map (k.psRow p) | none => [], c.handle?.map (s.octet o).handle,
    match c.handle? with | some h => s.marks.filter fun m => inAcc h m.1 | none => [], k.cnt⟩

/-- A command that has executed keeps what it found, and what it has counted since `s` (R241). -/
def State.keepOld (t s : State) (o : OctName) (c : MxCmd) : State :=
  let w := s.oldOf o c
  t.updOctet o fun q => q.updCmd c.id fun x => { x with old := some { w with counted := (t.core (c.name o)).cnt.minus w.counted } }

/-- The effect of a command that has executed is taken back: while it is not complete, no other command reads or writes its register or
its handle (R241, R242). -/
def State.unrun (s : State) (o : OctName) (c : MxCmd) : State :=
  match c.old with
  | none => s
  | some w =>
    let s := s.updCore (c.name o) fun k =>
      let k := { k with cnt := k.cnt.minus w.counted }
      match c.ps? with
      | some p => ((List.range 16).zip w.rows).foldl (fun k r => k.setPsRow p r.1 r.2) k
      | none => k
    match c.handle?, w.handle with
    | some h, some x =>
      w.marks.foldl (fun s m => s.putMark m.1 m.2)
        (s.updOctet o fun q => q.updHandle h fun y => { y with st := x.st, genX := x.genX, discX := x.discX, el := x.el })
    | _, _ => s

/-- Whether discarding leaves nothing of a command even where what has executed stays: it has not executed, or changes nothing before
its completion. -/
def MxCmd.gone (c : MxCmd) : Bool := c.stage = .queued || c.stage = .taken || (c.stage = .executed && c.late)

/-- Discarding every command of a core from a number on, and raising ERR: `keep` says that rows and commands that have executed keep
their effect (R256), which they lose where a command has met a bad granule (R241). DEDUCED, entry 28. -/
def State.discardFrom (s : State) (o : OctName) (x : Fin 8) (id : Nat) (keep : Bool) (cause : BitVec 8) (tval : Word) : State :=
  let hit := fun c : MxCmd => c.core = x && decide (id ≤ c.id)
  let gone := fun c : MxCmd => !keep || c.gone
  let goes := (s.octet o).cmds.filter fun c => hit c && gone c
  let s := goes.foldr (fun c s => (s.unrun o c).undo o c) s
  let s := s.updOctet o fun q =>
    { q with cmds := (q.cmds.filter fun c => !(hit c && gone c)).map fun c => if hit c then { c with rows := [] } else c }
  (s.updCore (.compute o x) fun k => { k with mxErr := k.mxErr.orElse fun _ => some (cause, tval) }).updOctet o
    Octet.serve

/-! ## Scaling (R82, R237, R238) -/

/-- A scale vector's parts: one for each active index, none with ONE. -/
def scaleSize (w : Word) : Nat := if bits w.toNat 20 4 = 5 then 2 else 4
def scaleOne (w : Word) : Bool := w.getLsbD 24
def scaleParts (w : Word) (act : List Nat) : List (Nat × Nat) :=
  if scaleOne w then [] else act.map fun i => (bits w.toNat 0 20 + i * scaleSize w, scaleSize w)

/-- Scale i. -/
def State.scaleAt (s : State) (o : OctName) (w : Word) (i : Nat) : Num :=
  if scaleOne w then .fin false 1 0
  else decodeF (bits w.toNat 20 4) (s.readLE (scratchBase o + bits w.toNat 0 20 + i * scaleSize w) (scaleSize w))

def Handle.at_ (h : Handle) (i : Nat) : BitVec 32 := Tbl.get 0 h.el i
def Handle.put (h : Handle) (i : Nat) (w : BitVec 32) : Handle := { h with el := Tbl.set 0 h.el i w }

/-- One element of MSCA: the handle's element plus the scaled value, rounded once (R82). -/
def scaleElem (old : BitVec 32) (row : PsRow) (n c : Nat) (sa sb : Num) : Nat × Flags :=
  let p := mulExact ((row.value n).scale (-(c : Int))).num sa
  let q := mulExact p.1 sb
  let sig := sa.sig || sb.sig
  let r := addNum 7 0 false (decodeF 7 old.toNat) q.1
  (r.1, r.2 ||| p.2 ||| q.2 ||| if sig then fNV else fNone)

/-- One element of HRESCALE: times 2^k, rounded once; infinities and zeros stay, and a NaN is NaN in its canonical form (R59, R68,
R238). -/
def rescaleElem (old : BitVec 32) (k : Int) : Nat × Flags :=
  let x := decodeF 7 old.toNat
  match x with
  | .fin neg m e => if m = 0 then (old.toNat, fNone) else roundF 7 0 false neg m (e + k)
  | .nan _ => (canonNaN 7, if x.sig then fNV else fNone)
  | _ => (old.toNat, fNone)

/-- Applying a function to elements of a handle, the flags of each row counted once (R234). -/
def Handle.mapRows (h : Handle) (rows cols : List Nat) (f : Handle → Nat → Nat → Nat × Flags) : Handle × (Nat → Flags) :=
  rows.foldl (fun p r =>
    cols.foldl (fun p n =>
      let x := f p.1 r n
      (p.1.put (16 * r + n) (BitVec.ofNat 32 x.1), fun i => if i = r then p.2 i ||| x.2 else p.2 i)) p) (h, fun _ => fNone)

/-- Writing a handle back, and counting the flags of its rows. -/
def State.putHandle (s : State) (o : OctName) (h : Nat) (c : MxCmd) (x : Handle) (fl : Nat → Flags) : State :=
  (s.updOctet o fun q => q.updHandle h fun _ => x).updCore (c.name o) fun k =>
    { k with cnt := (List.range 16).foldl (fun n r => n.row (fl r)) k.cnt }

/-! ## Execution (R228, R231, R238, R242) -/

/-- The elements a slice move touches (R231). -/
def sliceElems (op : MxOp) (a : Word) : List Nat :=
  (List.range 16).map fun t => match op with
    | .hrowld | .hrowst => 16 * sIdx a + sOff a + t
    | _ => 16 * (sOff a + t) + sIdx a

/-- A command's results. -/
def State.finishWith (s : State) (o : OctName) (c : MxCmd) (f : Option Word) (v : List VWord) (fl : Flags) : State :=
  s.updOctet o fun q => q.updCmd c.id fun x => { x with stage := .executed, f := f, vres := v, flags := fl }

/-- A command executed with no result. -/
def State.finish (s : State) (o : OctName) (c : MxCmd) : State := s.finishWith o c none [] fNone

/-- A number cut into v registers (R223, R226). -/
def vRegs (n w : Nat) : List VWord := (List.range n).map fun j => BitVec.ofNat 1024 (w / 2 ^ (1024 * j))

/-- The states a write makes DIRTY (R228). -/
def Handle.dirtied (h : Handle) : Handle := if h.st = .free then h else { h with st := .dirty }

/-- MMA, MMAZ and the pass of an MMAAD: every tile is examined first; an MMAAD's rows without a line wait (R221, R251,
R252). -/
def State.runMma (s : State) (o : OctName) (c : MxCmd) : State :=
  let zero := c.op = .mmaz || (c.op = .mmaad && c.d.getLsbD 63)
  let rows := c.passRows
  let g := s.checkParts o (c.tileParts rows)
  match g.2 with
  | some f => g.1.discardFrom o c.core c.id false f.1 (BitVec.ofNat 64 f.2)
  | none =>
    let s := if zero then g.1.updCore (c.name o) fun k => k.zeroPs (cPs c.d) (startExp (tFmt c.a) (tFmt c.b)) else g.1
    let s := rows.foldl (fun s r => s.runRow o c r) s
    let hits := (rows.filter fun r => c.bound.any fun b => b.1 = r).length
    let s := s.updCore (c.name o) fun k =>
      { k with cnt := { k.cnt with hitRows := (List.range hits).foldl (fun n _ => bump true n) k.cnt.hitRows } }
    let s := s.updOctet o fun q => (rows.flatMap c.needs).foldl (Octet.touch c.id) q
    (s.finish o c).updOctet o Octet.serve

/-- MSCA, MSCARS and HRESCALE (R236, R238). -/
def State.runScale (s : State) (o : OctName) (c : MxCmd) : State :=
  let h := c.handle?.getD 0
  let sca := c.op != .hrescale
  let rows := if sca then cRows c.d else []
  let cols := if sca then cCols c.d else []
  let shift := c.exp.toInt - c.genOld.toInt
  let res := c.op != .msca && shift != 0
  let g := s.checkParts o (if sca then scaleParts c.a rows ++ scaleParts c.b cols else [])
  let all := List.range 16
  let touched := if res then (List.range 256) else (rows.flatMap fun r => cols.map fun n => 16 * r + n)
  let g := match g.2 with
    | some f => (g.1, some f)
    | none => g.1.checkAcc o h touched
  match g.2 with
  | some f => g.1.discardFrom o c.core c.id false f.1 (BitVec.ofNat 64 f.2)
  | none =>
    let s := g.1
    let k := s.core (c.name o)
    let x := (s.octet o).handle h
    let p := if res then x.mapRows all all (fun x r n => rescaleElem (x.at_ (16 * r + n)) shift) else (x, fun _ => fNone)
    let q := p.1.mapRows rows cols fun x r n =>
      scaleElem (x.at_ (16 * r + n)) (k.psRow (cPs c.d) r) n c.c (s.scaleAt o c.a r) (s.scaleAt o c.b n)
    let x := if touched.isEmpty then q.1 else q.1.dirtied
    let x := if c.op = .msca then x else { x with genX := c.exp }
    (s.putHandle o h c x fun r => p.2 r ||| q.2 r).finish o c

/-- HALLOC and HCFG configure, HFREE frees, HZERO clears (R228, R230, R231). -/
def State.runHandle (s : State) (o : OctName) (c : MxCmd) : State :=
  let h := c.handle?.getD 0
  let set := fun f => ((s.updOctet o fun q => q.updHandle h f).clearMarks (accBase o h) 1024).finish o c
  match c.op with
  | .halloc => set fun x => { x with st := .configured, genX := c.exp, discX := c.a.getLsbD 0, el := [] }
  | .hcfg => set fun x => { x with st := .configured, genX := c.exp, discX := c.b.getLsbD 0, el := [] }
  | .hfree => set fun x => { x with st := .free, genX := 0, discX := false, el := [] }
  | _ => set fun x => { x with st := .configured, el := [] }

/-- The slice moves (R231). -/
def State.runSlice (s : State) (o : OctName) (c : MxCmd) : State :=
  let h := c.handle?.getD 0
  let el := sliceElems c.op c.a
  match c.op with
  | .hrowld | .hcolld =>
    let g := if c.op = .hrowld then (s, none) else s.checkAcc o h el
    match g.2 with
    | some f => g.1.discardFrom o c.core c.id false f.1 (BitVec.ofNat 64 f.2)
    | none =>
      let v := (c.v.headD 0).toNat
      let s := if c.op = .hrowld then g.1.clearMarks (accBase o h + 4 * (el.headD 0)) 64 else g.1
      (s.updOctet o fun q => q.updHandle h fun x =>
        ((List.range 16).foldl (fun x t => x.put (el.getD t 0) (BitVec.ofNat 32 (lane 32 v t))) x).dirtied).finish o c
  | _ =>
    let g := s.checkAcc o h el
    match g.2 with
    | some f => g.1.discardFrom o c.core c.id false f.1 (BitVec.ofNat 64 f.2)
    | none =>
      let x := (g.1.octet o).handle h
      g.1.finishWith o c none [BitVec.ofNat 1024 (packLanes 32 (el.map fun i => (x.at_ i).toNat))] fNone

/-- The counters of R234 and R262 as HSTAT and ASTAT return them, cleared after the read where asked. -/
def State.readCounters (s : State) (o : OctName) (c : MxCmd) : State × Word :=
  let k := s.core (c.name o)
  let n := k.cnt
  let word := fun l : List (BitVec 16) => BitVec.ofNat 64 (packLanes 16 (l.map BitVec.toNat))
  let put := fun (on : Bool) (n : Counters) => if on then s.updCore (c.name o) fun k => { k with cnt := n } else s
  if c.op = .astat then
    (put (c.a.getLsbD 2) { n with hitRows := 0, replays := 0, fills := 0 }, word [n.hitRows, n.replays, n.fills])
  else if sWhat c.a = 1 then
    (put (sClr c.a) { n with nxr := 0, ufr := 0, ofr := 0, nvr := 0 }, word [n.nxr, n.ufr, n.ofr, n.nvr])
  else (put (sClr c.a) { n with drop := 0 }, word [n.drop])

/-- ASTAT's other words (R262): a line that is held is valid until its use ends (R259). DESIGN CHOICE, entry 28: fills outstanding are
shown as at most 255. -/
def Octet.adapterWord (q : Octet) (a : Word) : Word :=
  if bits a.toNat 0 2 = 0 then
    let id := bits a.toNat 16 16
    let slot := match q.lookup id with
      | some e => 1 + 2 * e.1
      | none => 0
    BitVec.ofNat 64 (slot + min 255 (q.lines.filter fun l => l.key.id = id).length * 2 ^ 8)
  else
    BitVec.ofNat 64 (q.lines.length + (q.lines.filter q.isHeld).length * 2 ^ 8 + min 255 q.fills.length * 2 ^ 16)

/-- What a late command does when its instruction retires, which is at its completion: REDA's step, the reads of HSTAT and ASTAT
(R211, R225, R233, R262). -/
def State.runLate (s : State) (o : OctName) (c : MxCmd) : State × MxCmd :=
  match c.op with
  | .reda =>
    let n := c.b.toNat % 16
    let msg := fun j => let w := (c.v.getD (j / 8) 0).toNat / 2 ^ (128 * (j % 8)); messageValue (BitVec.ofNat 64 w) (BitVec.ofNat 64 (w / 2 ^ 64))
    let x := ((s.core (c.name o)).psRow c.k n).step msg
    (s.updCore (c.name o) fun k => k.setPsRow c.k n x.row,
      { c with flags := x.flags ||| if x.flags.getLsbD 2 then fNX else fNone })
  | .astat =>
    if bits c.a.toNat 0 2 = 1 then
      let r := s.readCounters o c
      (r.1, { c with f := some r.2 })
    else (s, { c with f := some ((s.octet o).adapterWord c.a) })
  | _ =>
    let r := s.readCounters o c
    (r.1, { c with f := some r.2 })

/-- HSTAT WHAT 0 (R233). -/
def State.statWord (s : State) (o : OctName) (c : MxCmd) : Word :=
  let h := sH c.a
  let q := s.octet o
  let x := q.handle h
  let pend := min 15 (q.cmds.filter fun d => d.handle? = some h).length
  let st := match x.st with
    | .free => 0
    | .configured => 1
    | .live => 2
    | .dirty => 3
  BitVec.ofNat 64 (if st = 0 then pend * 2 ^ 16
    else st + (if x.discX then 8 else 0) + x.genX.toNat * 2 ^ 8 + pend * 2 ^ 16)

/-- PSRD and REDX read a row (R224, R226). -/
def State.runRead (s : State) (o : OctName) (c : MxCmd) : State :=
  let row := (s.core (c.name o)).psRow c.k (bits c.b.toNat 0 4)
  if c.op = .psrd then s.finishWith o c none (vRegs 2 row.messages) fNone
  else
    let t := bits c.b.toNat 4 4
    let w := fmtWidth t
    let l := (List.range 16).map fun j => roundNum t c.rm.toNat c.sat (row.value j).num
    s.finishWith o c none (vRegs (ceilDiv (16 * w) 1024) (packLanes w (l.map (·.1)))) (l.foldl (fun f x => f ||| x.2) fNone)

/-- APREF's lines (R261). -/
def State.runApref (s : State) (o : OctName) (c : MxCmd) : State :=
  match c.bound.head? with
  | some b =>
    (s.updOctet o fun q =>
      ((linesOf b.2.id c.adt (bits c.b.toNat 0 13)).map fun l => (l, b.2)).foldl (fun q n => q.fill c.core n) q).finish o c
  | none => s.finish o c

/-- Whether a command on a handle that is FREE when it executes is dropped (R236). DESIGN CHOICE, entry 28: also where what freed it is
that another core's HCFG or HALLOC, accepted before it, is taken after it. -/
def MxCmd.dropped (c : MxCmd) (q : Octet) : Bool :=
  match c.op with
  | .halloc | .hcfg | .hstat => false
  | _ => c.handle?.any fun h => (q.handle h).st = .free

/-- The effect of a taken command (R242). DEDUCED, entry 28. -/
def State.runCmd (s : State) (o : OctName) (c : MxCmd) : State :=
  if c.dropped (s.octet o) then
    let v := if c.op = .hrowst ∨ c.op = .hcolst then [(0 : VWord)] else []
    (s.updCore (c.name o) fun k => { k with cnt := { k.cnt with drop := bump true k.cnt.drop } }).finishWith o c none v fNone
  else match c.op with
    | .mma | .mmaz | .mmaad => s.runMma o c
    | .msca | .mscars | .hrescale => s.runScale o c
    | .halloc => if c.k < 256 then s.runHandle o c else s.finish o c
    | .hfree | .hcfg => s.runHandle o c
    | .hzero => if sPsf c.a then (s.updCore (c.name o) fun k => k.zeroPs (sPsn c.a) (-32768)).finish o c else s.runHandle o c
    | .hrowld | .hrowst | .hcolld | .hcolst => s.runSlice o c
    | .hdrain =>
      if ((s.octet o).handle (sH c.a)).st = .dirty then
        let g := s.checkAcc o (sH c.a) (List.range 256)
        match g.2 with
        | some f => g.1.discardFrom o c.core c.id false f.1 (BitVec.ofNat 64 f.2)
        | none => g.1.updOctet o fun q => q.updCmd c.id fun x => { x with stage := .draining }
      else s.finish o c
    | .hstat => if sWhat c.a = 0 then s.finishWith o c (some (s.statWord o c)) [] fNone else s.finish o c
    | .psrd | .redx => s.runRead o c
    | .reda | .astat => s.finish o c
    | .adtbl => (s.updOctet o fun q => (q.invalidate fun i => c.bound.any fun b => b.1 = i).serve).finish o c
    | .ainv =>
      let id := bits c.a.toNat 0 16
      (s.updOctet o fun q => (q.invalidate fun i => id = 0 || i = id).serve).finish o c
    | .apref => s.runApref o c

/-! ## The instructions that wait for their command (R211) -/

/-- Popping the entries of the operands that are stream aliases: they are read at issue and leave their queues at retirement (R152). -/
def popInputs : List Opnd → M Unit
  | [] => pure ()
  | o :: l => do
    if !o.write then
      if o.vec then
        let _ ← rdV (Fin.ofNat 32 o.reg)
      else
        let _ ← rdF (Fin.ofNat 32 o.reg)
    popInputs l

/-- An instruction of R211 that waits for its command: it issues again until the command has completed, and then retires: what a
late command does takes effect, its operands are popped, and the results are written. -/
def mxWait (ok : Hints) (ops : List Opnd) (start : M MxCmd) (finish : Option Word → List VWord → Flags → M Unit)
    (s : State) : Host.Outcome State Fault Refusal :=
  issue xCompute ok .user (seq do
    mxError
    match (← myThread).mx with
    | .asked _ => wait .matrix
    | .done c =>
      let o ← myOctet
      let r ← ask fun s => if c.late then s.runLate o c else (s, c)
      act fun _ => r.1
      popInputs ops
      finish r.2.f r.2.vres r.2.flags
    | .failed cause tval => trap cause tval
    | .none =>
      checkAliases ops
      mxRoom
      let slots := (← myCore).slots
      let id ← mxAccept (← start)
      updMy fun k => { k with slots := slots }
      updMyTh fun h => { h with mx := .asked id }
      waitKeep .matrix) s

/-! ## The steps of the unit -/

/-- Visits 0 to 119 of a round: pass p = 1 to 15, cores in index order (R213). -/
def Octet.visitTakes (q : Octet) (v : Nat) : Bool :=
  decide (v / 8 + 1 ≤ q.weight (v % 8)) && q.cmds.any fun c => c.core.val = v % 8 && c.stage = .queued

/-- The next visit that takes a command. -/
def Octet.nextVisit (q : Octet) : Option Nat :=
  ((List.range 120).map fun i => (8 * q.pass + q.visit + i) % 120).find? q.visitTakes

/-- ARBITER_TAKE (R213, R252): the round goes on at the visit after the last that took a command, whatever time has passed with every
queue empty (DESIGN CHOICE, entry 28); one command is taken when none waits to start; the lines of an MMAAD are looked up. -/
def State.arbiterTake (s : State) (o : OctName) : State :=
  let q := s.octet o
  if q.cmds.any fun c => c.stage = .taken then s
  else match q.nextVisit with
    | none => s
    | some v =>
      match q.cmds.find? fun c => c.core.val = v % 8 && c.stage = .queued with
      | none => s
      | some c =>
        let miss := if c.op = .mmaad then (cRows c.d).filter fun r => !(c.needs r).all q.present else []
        let c := { c with stage := .taken, rows := miss }
        let taken := fun d : MxCmd => d.stage != .queued
        let n := (v + 1) % 120
        let q := { q with
                     pass := n / 8, visit := n % 8,
                     cmds := q.cmds.filter taken ++ [c] ++ q.cmds.filter fun d => !taken d && d.id != c.id }
        s.updOctet o fun _ => (miss.flatMap c.needs).foldl (fun q n => q.fill c.core n) q

/-- Whether a taken command waits for an earlier one that has not completed: both name a partial-sum register of one core
or a handle (R242, R254). -/
def Octet.blocked (q : Octet) (c : MxCmd) : Bool :=
  q.cmds.any fun d => (d.stage = .executed || d.stage = .draining) &&
    ((d.core = c.core && c.ps?.isSome && d.ps? = c.ps?) || (c.handle?.isSome && d.handle? = c.handle?))

/-- MATRIX_EXECUTE (R242). -/
def State.matrixExecute (s : State) (o : OctName) : State :=
  let q := s.octet o
  match q.cmds.find? fun c => c.stage = .taken with
  | none => s
  | some c => if q.blocked c then s else (s.runCmd o c).keepOld s o c

/-- Whether the replays of a core's earlier commands are outstanding (R254). -/
def Octet.replaysBefore (q : Octet) (c : MxCmd) : Bool :=
  q.cmds.any fun d => d.core = c.core && decide (d.id < c.id) && d.op = .mmaad

/-- MATRIX_COMPLETE (R211, R242, R254). -/
def State.matrixComplete (s : State) (o : OctName) (id : Nat) : State :=
  let q := s.octet o
  match q.cmds.find? fun c => c.id = id with
  | none => s
  | some c =>
    if c.stage ≠ .executed ∨ c.rows ≠ [] ∨ (c.op.waits && q.replaysBefore c) = true then s
    else
      (s.updOctet o fun q => q.dropCmd id).updTh (c.name o) .x fun h =>
        if h.mx = .asked id then { h with mx := .done c } else h

/-- The cause a failed request of the microcode is reported with: a lost one as ACCESS_RIGHTS (R442). -/
def reported (cause : BitVec 8) : BitVec 8 := if cause = 0 then Cause.accessRights else cause

/-- HDRAIN_IMAGE_ACK (R232): the image is written through the octet's transfer core, or the write has failed. -/
def State.imageAck (s : State) (o : OctName) (id : Nat) : State :=
  let q := s.octet o
  match q.cmds.find? fun c => c.id = id && c.stage = .draining with
  | none => s
  | some c =>
    let h := sH c.a
    let x := q.handle h
    let va := s.imageVA q.owner o h
    let bytes := (List.range 256).flatMap fun i => bytesOf 4 (x.at_ i).toNat
    let r := s.microWrite (clusterStation o.cl) q.owner va bytes (.drain o id)
    match r.2 with
    | .wait => r.1
    | .ok _ => (r.1.updOctet o fun q => q.updHandle h fun x => { x with st := .live }).finish o c
    | .fails cause =>
      (r.1.updOctet o fun q => q.dropCmd id).updTh (c.name o) .x fun t =>
        if t.mx = .asked id then { t with mx := .failed (reported cause) (BitVec.ofNat 64 va ||| BitVec.ofNat 64 (2 ^ 63)) } else t

/-- The bytes of a line, read under the octet's context (R245, R246, R252). -/
def State.readLine (s : State) (o : OctName) (f : AdFill) : State × MicroEnd :=
  let ctx := (s.octet o).owner
  let st := clusterStation o.cl
  let r := WaitReq.fill o f.key
  match f.key.kind with
  | .la => s.microRead st ctx ((f.entry.la + 2048 * f.key.j) % 2 ^ 60) 2048 r
  | .lb => s.microParts st ctx r ((List.range f.entry.rank).flatMap fun q =>
      pageParts 3 ((f.entry.lb + 128 * f.key.j + 64 * f.entry.pitch * q) % 2 ^ 60) 128)

/-- A failed fill (R256): in every core with a deferred row that needs the line, those rows and the later commands go. DESIGN CHOICE,
entry 28: where several rows need it, TVAL names the lowest of the core's oldest such command. -/
def State.fillFailed (s : State) (o : OctName) (f : AdFill) (cause : BitVec 8) : State :=
  let hit := fun (c : MxCmd) r => (c.needs r).contains (f.key, f.entry)
  (List.range 8).foldl (fun s i =>
    match (s.octet o).cmds.find? fun c => c.core.val = i && c.stage != .queued && c.rows.any (hit c) with
    | none => s
    | some c =>
      let r := (c.rows.find? (hit c)).getD 0
      let s := s.updOctet o fun q => q.updCmd c.id fun x =>
        { x with rows := x.rows.filter fun r => !hit c r, cut := x.cut ++ x.rows.filter (hit c) }
      s.discardFrom o c.core (c.id + 1) true Cause.adapterTable
        (BitVec.ofNat 64 (4 + 16 * r + f.key.id * 2 ^ 8 + cause.toNat * 2 ^ 24))) s

/-- ADAPTER_FILL_ARRIVAL (R252, R253, R256). DEDUCED, entry 28. -/
def State.fillArrival (s : State) (o : OctName) (key : LineKey) : State :=
  match (s.octet o).fills.find? fun f => f.key = key with
  | none => s
  | some f =>
    let r := s.readLine o f
    let drop := fun s : State => s.updOctet o fun q => { q with fills := q.fills.filter fun x => x != f }
    match r.2 with
    | .wait => r.1
    | .fails cause => ((drop r.1).fillFailed o f (reported cause)).updOctet o Octet.serve
    | .ok bytes =>
      let s := (drop r.1).updOctet o fun q => (q.install ⟨f.key, f.entry, bytes, false, []⟩).serve
      s.updCore (.compute o f.core) fun k => { k with cnt := { k.cnt with fills := bump true k.cnt.fills } }

/-- ROW_REPLAY (R253, R254): the row whose turn it is, and the later deferred rows of its command whose lines are all
present, once no line is missing. A bad granule discards the whole command, what it has executed included (R241). -/
def State.rowReplay (s : State) (o : OctName) : State :=
  let q := s.octet o
  match q.turn? with
  | none => s
  | some (c, r) =>
    if (c.needs r).any fun n => (q.line? c.id n.1 n.2).isNone then s
    else
      let rows := r :: (c.rows.drop 1).filter fun r => (c.needs r).all fun n => (q.line? c.id n.1 n.2).isSome
      let g := s.checkParts o (c.tileParts rows)
      match g.2 with
      | some f =>
        g.1.discardFrom o c.core c.id false f.1 (BitVec.ofNat 64 f.2)
      | none =>
        let before := (s.core (c.name o)).cnt
        let s := rows.foldl (fun s r => s.runRow o c r) g.1
        let s := s.updCore (c.name o) fun k =>
          { k with cnt := { k.cnt with replays := rows.foldl (fun n _ => bump true n) k.cnt.replays } }
        let more := (s.core (c.name o)).cnt.minus before
        s.updOctet o fun q =>
          let q := (rows.flatMap c.needs).foldl (Octet.touch c.id) q
          (q.updCmd c.id fun x => { x with
            rows := x.rows.filter fun r => !rows.contains r,
            old := x.old.map fun w => { w with counted := w.counted.plus more } }).serve

/-- Everything a core has in its unit is dropped: its group is cancelled (R364). -/
def State.mxAbort (s : State) (o : OctName) (x : Fin 8) : State :=
  (s.updOctet o fun q => ({ q with cmds := q.cmds.filter fun c => c.core != x } : Octet).serve).updCore (.compute o x) fun k =>
    { k with mxErr := none, x := { k.x with mx := .none } }

/-- ARBITER_TAKE. -/
def execArbiterTake (o : OctName) (s : State) : Host.Outcome State Fault Refusal := event (fun s => s.arbiterTake o) s

/-- MATRIX_EXECUTE. -/
def execMatrixExecute (o : OctName) (s : State) : Host.Outcome State Fault Refusal := event (fun s => s.matrixExecute o) s

/-- MATRIX_COMPLETE. -/
def execMatrixComplete (o : OctName) (id : Nat) (s : State) : Host.Outcome State Fault Refusal :=
  event (fun s => s.matrixComplete o id) s

/-- HDRAIN_IMAGE_ACK. -/
def execHdrainImageAck (o : OctName) (id : Nat) (s : State) : Host.Outcome State Fault Refusal :=
  event (fun s => s.imageAck o id) s

/-- ADAPTER_FILL_ARRIVAL. -/
def execAdapterFillArrival (o : OctName) (line : LineKey) (s : State) : Host.Outcome State Fault Refusal :=
  event (fun s => s.fillArrival o line) s

/-- ROW_REPLAY. -/
def execRowReplay (o : OctName) (s : State) : Host.Outcome State Fault Refusal := event (fun s => s.rowReplay o) s

end Sys2Proof.Machine
end

