-- ==== Sys2Proof/Machine/Matrix.lean ====
section
/-! DEFINITION. Major 0x30: MMA, MMAZ, MMAAD, MSCA, MSCARS, GEOM, MSYNC and PSRD (chapters The accumulator handle and
the matrix unit and The adapter). -/

namespace Sys2Proof.Machine

/-! ## MMA, MMAZ and MMAAD (R220, R221, R248 to R250) -/

/-- The value checks of the control word and the tile descriptors (R221 check 1). -/
def tileValues (d a b : Word) (adapter : Bool) : M Unit := do
  if bits d.toNat 14 2 ≠ 0 ∨ (bits d.toNat 48 16 ≠ 0 ∧ adapter = false) then handleRange 1 0
  if cK d = 0 then handleRange 2 0
  if bits a.toNat 43 21 ≠ 0 ∨ tOff a % 64 ≠ 0 then handleRange 1 1
  if !formatsA.contains (tFmt a) then handleRange 4 1
  if bits b.toNat 43 21 ≠ 0 ∨ tOff b % 64 ≠ 0 then handleRange 1 2
  if !formatsB.contains (tFmt b) then handleRange 4 2

/-- TVAL of TAG_MISMATCH (R203). -/
def tagTval (ta tb : Nat) (tp : Option (BitVec 6)) (reason : Nat) : Word :=
  BitVec.ofNat 64 (ta + tb * 2 ^ 8 + (match tp with | some t => t.toNat * 2 ^ 16 | none => 2 ^ 22) + reason * 2 ^ 24)

/-- The tag checks in their order (R203). -/
def tagReason (ta tb k : Nat) (zero : Bool) (tp : Option (BitVec 6)) : Option Nat :=
  if tagInvalid ta || tagInvalid tb then some 2
  else if ta ≠ tb then some 1
  else if tagOn ta ∧ k % blockOf (tagBs ta) ≠ 0 then some 4
  else match tp with
    | some t => if !zero && t.toNat != ta then some 3 else none
    | none => none

/-- The checks that the three share (R221). -/
def tileChecks (d a b : Word) (adapter zero : Bool) : M Unit := do
  tileValues d a b adapter
  let tp := (← myCore).tagOf (cPs d)
  match tagReason (tTag a) (tTag b) (cK d) zero tp with
  | some r => trap Cause.tagMismatch (tagTval (tTag a) (tTag b) tp r)
  | none => pure ()
  if 2 ^ 20 < tileEnd a (!tTr a) (cRows d) (cK d) then handleRange 3 1
  if cRows d ≠ [] ∧ 2 ^ 20 < tileEnd b (tTr b) (cCols d) (cK d) then handleRange 3 2

/-- The tag after acceptance (R202). -/
def acceptTag (d a : Word) (zero : Bool) : M (List Undo) := do
  if zero || ((← myCore).tagOf (cPs d)).isNone then
    return [← setPsTag (cPs d) (some (BitVec.ofNat 6 (tTag a)))]
  else return []

/-- MMA and MMAZ. -/
def mma (op : MxOp) (zero : Bool) (d a b : Reg) (s : State) : Host.Outcome State Fault Refusal :=
  mxIssue [fIn d, fIn a, fIn b] (do
    mxRoom
    let w ← rdF d
    let x ← rdF a
    let y ← rdF b
    tileChecks w x y false zero
    let u ← acceptTag w x zero
    let _ ← mxAccept { MxCmd.new op with d := w, a := x, b := y, undo := u }) s

/-- MMA (R220, R221). -/
def execMma (d a b : Reg) (s : State) : Host.Outcome State Fault Refusal := mma .mma false d a b s

/-- MMAZ (R220, R221). -/
def execMmaz (d a b : Reg) (s : State) : Host.Outcome State Fault Refusal := mma .mmaz true d a b s

/-- TVAL of ADAPTER_TABLE (R250). -/
def adapterTval (reason row id : Nat) : Word := BitVec.ofNat 64 (reason + row * 16 + id * 2 ^ 8)

/-- Checks 1 and 2 of R250: the entry of an identifier. -/
def adapterEntry (id row k : Nat) (adt : BitVec 32) : M AdEntry := do
  let o ← myOctet
  match ← ask fun s => (s.octet o).lookup id with
  | none => trap Cause.adapterTable (adapterTval 1 row id)
  | some e =>
    if 64 * e.2.klim < 128 * adKB adt + k ∨ 64 * e.2.nlim < 16 * adNB adt + 16 ∨ 63 < ceilDiv k 64 then
      trap Cause.adapterTable (adapterTval 2 row id)
    return e.2

/-- The entries of the active rows, in ascending order (R249, R250). -/
def bindRows (ids : List Word) (d a : Word) (adt : BitVec 32) : List Nat → M (List (Nat × AdEntry))
  | [] => return []
  | r :: rs => do
    let id := bits (ids.getD (r / 4) 0).toNat (16 * (r % 4)) 16
    if id = 0 then bindRows ids d a adt rs
    else
      let e ← adapterEntry id r (cK d) adt
      if e.tag ≠ tTag a then
        trap Cause.tagMismatch (BitVec.ofNat 64 (tTag a + e.tag * 2 ^ 8 + 5 * 2 ^ 24))
      let l ← bindRows ids d a adt rs
      return (r, e) :: l

/-- MMAAD (R248 to R250): the identifier list is read at acceptance. -/
def execMmaad (d a b : Reg) (s : State) : Host.Outcome State Fault Refusal :=
  mxIssue [fIn d, fIn a, fIn b] (do
    mxRoom
    let w ← rdF d
    let x ← rdF a
    let y ← rdF b
    let zero := w.getLsbD 63
    tileChecks w x y true zero
    let o ← myOctet
    let at_ := scratchBase o + 32 * bits w.toNat 48 15
    let g ← ask fun s => s.checkRead at_ 32
    set g.1
    match g.2 with
    | some f => mxDiscarded f
    | none =>
      let ids ← ask fun s => s.words at_ 4
      let adt := (← myCore).adtbase
      let bound ← bindRows ids w x adt (cRows w)
      let u ← acceptTag w x zero
      let _ ← mxAccept { MxCmd.new .mmaad with d := w, a := x, b := y, bound := bound, undo := u }) s

/-! ## MSCA and MSCARS (R236, R237) -/

/-- The checks of a scale descriptor's value (R237). -/
def scaleValue (w : Word) (operand : Nat) : M Unit := do
  if bits w.toNat 25 39 ≠ 0 ∨ (scaleOne w = true ∧ bits w.toNat 0 24 ≠ 0) then handleRange 1 operand
  if !scaleOne w then
    if bits w.toNat 20 4 ≠ 5 ∧ bits w.toNat 20 4 ≠ 7 then handleRange 4 operand
    if bits w.toNat 0 20 % scaleSize w ≠ 0 then handleRange 5 operand

/-- The bytes of a scale vector that are read lie in the scratchpad (R237). -/
def scaleRange (w : Word) (act : List Nat) (operand : Nat) : M Unit :=
  match act.getLast? with
  | some m => if !scaleOne w && decide (2 ^ 20 < bits w.toNat 0 20 + (m + 1) * scaleSize w) then handleRange 3 operand else pure ()
  | none => pure ()

/-- HANDLE_UNCONF of a handle that is FREE in the accepted view (R228). -/
def handleNamed (h : Nat) : M Handle := do
  let o ← myOctet
  let x ← ask fun s => (s.octet o).handle h
  if x.free then trap Cause.handleUnconf (BitVec.ofNat 64 h)
  return x

/-- MSCA and MSCARS. -/
def msca (op : MxOp) (d a b : Reg) (s : State) : Host.Outcome State Fault Refusal :=
  mxIssue [fIn d, fIn a, fIn b] (do
    mxRoom
    let w ← rdF d
    let x ← rdF a
    let y ← rdF b
    if bits w.toNat 8 5 ≠ 0 ∨ bits w.toNat 14 2 ≠ 0 ∨ bits w.toNat 48 16 ≠ 0 then handleRange 1 0
    scaleValue x 1
    scaleValue y 2
    scaleRange x (cRows w) 1
    scaleRange y (cCols w) 2
    let h ← handleNamed (sH w)
    let g := (← myCore).mgen
    if op = .msca ∧ h.gen ≠ g then
      trap Cause.scaleGen (BitVec.ofNat 64 (h.gen.toNat + g.toNat * 2 ^ 8 + sH w * 2 ^ 16))
    let u ← if op = .msca then pure [] else setView (sH w) ⟨none, some g, none⟩
    let c := tagFactor ((← myCore).tagOf (cPs w))
    let _ ← mxAccept { MxCmd.new op with d := w, a := x, b := y, c := c, genOld := h.gen, undo := u }) s

/-- MSCA (R236 to R238). -/
def execMsca (d a b : Reg) (s : State) : Host.Outcome State Fault Refusal := msca .msca d a b s

/-- MSCARS (R236 to R238). -/
def execMscars (d a b : Reg) (s : State) : Host.Outcome State Fault Refusal := msca .mscars d a b s

/-! ## GEOM, MSYNC and PSRD -/

/-- The masks of a tile inside a matrix of M × N (R219). -/
def geomMasks (trow tcol m n : Nat) : Nat :=
  (List.range 16).foldl (fun acc i =>
    acc + (if 16 * trow + i < m then 2 ^ (16 + i) else 0) + if 16 * tcol + i < n then 2 ^ (32 + i) else 0) 0

/-- GEOM (R219). -/
def execGeom (d a : Reg) (s : State) : Host.Outcome State Fault Refusal :=
  mxIssue [fIn a, fOut d] (do
    let x ← rdF a
    let g := (← myCore).gauge.toNat
    wrF d (BitVec.ofNat 64 (geomMasks (bits g 0 28) (bits g 28 28) (bits x.toNat 0 32) (bits x.toNat 32 32)))) s

/-- MSYNC (R211). -/
def execMsync (s : State) : Host.Outcome State Fault Refusal :=
  mxIssue [] (do
    let o ← myOctet
    let x ← myIdx
    if (← ask fun s => (s.octet o).cmds).any fun c => c.core = x then wait .matrix) s

/-- The row word of PSRD and REDA (R223). -/
def rowWord (w : Word) : M Unit := if 16 ≤ w.toNat then handleRange 1 2 else pure ()

/-- Writing a register group in order (R223, R226). -/
def putGroup (d : Reg) (v : List VWord) : M Unit := do
  for r in (groupRegs d v.length).zip v do
    wrV r.1 r.2 (BitVec.allOnes 128)

/-- PSRD (R223, R224). -/
def execPsrd (d k b : Reg) (s : State) : Host.Outcome State Fault Refusal :=
  mxWait noHint ((groupRegs d 2).map vOut ++ [fIn b]) (do
    let w ← rdF b
    rowWord w
    return { MxCmd.new .psrd with b := w, k := k.val })
    (fun _ v _ => putGroup d v) s

end Sys2Proof.Machine
end

