-- ==== Sys2Proof/Machine/Handles.lean ====
section
/-! DEFINITION. Major 0x31, and REDA and REDX of major 0x32: handles, slice moves and messages (chapter The accumulator
handle and the matrix unit). -/

namespace Sys2Proof.Machine

/-- The checks of a selector word (R227): which of its fields the entry uses. -/
def selector (w : Word) (slice psf stat : Bool) : M Unit := do
  if 2 ^ 21 ≤ w.toNat ∨ (psf = false ∧ (sPsf w = true ∨ sPsn w ≠ 0)) ∨ (stat = false ∧ (sWhat w ≠ 0 ∨ sClr w = true)) ∨
      (slice = false ∧ sOff w ≠ 0) then handleRange 1 1
  if slice ∧ sOff w % 16 ≠ 0 then handleRange 5 1

/-- The checks of a configuration word (R227). -/
def configWord (w : Word) (operand : Nat) : M Unit := if 2 ≤ w.toNat then handleRange 1 operand else pure ()

/-- HALLOC (R230). -/
def execHalloc (d a : Reg) (s : State) : Host.Outcome State Fault Refusal :=
  mxIssue [fIn a, fOut d] (do
    mxRoom
    let w ← rdF a
    configWord w 1
    let o ← myOctet
    match ← ask fun s => (List.range 256).find? fun h => ((s.octet o).handle h).free with
    | some h =>
      let u ← setView h ⟨some false, some (← myCore).mgen, some (w.getLsbD 0)⟩
      let _ ← mxAccept { MxCmd.new .halloc with a := w, k := h, undo := u }
      wrF d (BitVec.ofNat 64 h)
    | none =>
      let _ ← mxAccept { MxCmd.new .halloc with a := w, k := 256 }
      wrF d (BitVec.allOnes 64)) s

/-- HFREE (R228, R230). -/
def execHfree (a : Reg) (s : State) : Host.Outcome State Fault Refusal :=
  mxIssue [fIn a] (do
    mxRoom
    let w ← rdF a
    selector w false false false
    let _ ← handleNamed (sH w)
    let u ← setView (sH w) ⟨some true, none, none⟩
    let _ ← mxAccept { MxCmd.new .hfree with a := w, undo := u }) s

/-- HCFG (R228, R230). -/
def execHcfg (a b : Reg) (s : State) : Host.Outcome State Fault Refusal :=
  mxIssue [fIn a, fIn b] (do
    mxRoom
    let w ← rdF a
    let y ← rdF b
    selector w false false false
    configWord y 2
    let u ← setView (sH w) ⟨some false, some (← myCore).mgen, some (y.getLsbD 0)⟩
    let _ ← mxAccept { MxCmd.new .hcfg with a := w, b := y, undo := u }) s

/-- A slice load. -/
def sliceLoad (op : MxOp) (a b : Reg) (s : State) : Host.Outcome State Fault Refusal :=
  mxIssue [fIn a, vIn b] (do
    mxRoom
    let w ← rdF a
    let v ← rdV b
    selector w true false false
    let _ ← handleNamed (sH w)
    let _ ← mxAccept { MxCmd.new op with a := w, v := [v] }) s

/-- A slice store. -/
def sliceStore (op : MxOp) (d a : Reg) (s : State) : Host.Outcome State Fault Refusal :=
  mxWait noHint [fIn a, vOut d] (do
    let w ← rdF a
    selector w true false false
    let _ ← handleNamed (sH w)
    return { MxCmd.new op with a := w })
    (fun _ v _ => wrV d (v.headD 0) (BitVec.allOnes 128)) s

/-- HROWLD (R231). -/
def execHrowld (a b : Reg) (s : State) : Host.Outcome State Fault Refusal := sliceLoad .hrowld a b s

/-- HROWST (R231). -/
def execHrowst (d a : Reg) (s : State) : Host.Outcome State Fault Refusal := sliceStore .hrowst d a s

/-- HCOLLD (R231). -/
def execHcolld (a b : Reg) (s : State) : Host.Outcome State Fault Refusal := sliceLoad .hcolld a b s

/-- HCOLST (R231). -/
def execHcolst (d a : Reg) (s : State) : Host.Outcome State Fault Refusal := sliceStore .hcolst d a s

/-- HZERO, on a handle or on a partial-sum register, whose tag becomes UNSET (R222, R231). -/
def execHzero (a : Reg) (s : State) : Host.Outcome State Fault Refusal :=
  mxIssue [fIn a] (do
    mxRoom
    let w ← rdF a
    selector w false true false
    if sPsf w then
      if sH w ≠ 0 then handleRange 1 1
      let u ← setPsTag (sPsn w) none
      let _ ← mxAccept { MxCmd.new .hzero with a := w, undo := [u] }
    else
      let _ ← handleNamed (sH w)
      let _ ← mxAccept { MxCmd.new .hzero with a := w }) s

/-- HDRAIN (R232). -/
def execHdrain (a : Reg) (s : State) : Host.Outcome State Fault Refusal :=
  mxWait noHint [fIn a] (do
    let w ← rdF a
    selector w false false false
    let _ ← handleNamed (sH w)
    return { MxCmd.new .hdrain with a := w })
    (fun _ _ _ => pure ()) s

/-- HRESCALE (R236, R238). -/
def execHrescale (a : Reg) (s : State) : Host.Outcome State Fault Refusal :=
  mxIssue [fIn a] (do
    mxRoom
    let w ← rdF a
    selector w false false false
    let x ← handleNamed (sH w)
    let u ← setView (sH w) ⟨none, some (← myCore).mgen, none⟩
    let _ ← mxAccept { MxCmd.new .hrescale with a := w, genOld := x.gen, undo := u }) s

/-- HSTAT (R233). -/
def execHstat (d a : Reg) (s : State) : Host.Outcome State Fault Refusal :=
  mxWait noHint [fIn a, fOut d] (do
    let w ← rdF a
    selector w false false true
    if sWhat w = 3 ∨ (sWhat w ≠ 0 ∧ sH w ≠ 0) then handleRange 1 1
    return { MxCmd.new .hstat with a := w })
    (fun f _ _ => wrF d (f.getD 0)) s

/-- REDA (R223, R225): the messages first, then the row word. -/
def execReda (k a b : Reg) (s : State) : Host.Outcome State Fault Refusal :=
  mxWait noHint ((groupRegs a 2).map vIn ++ [fIn b]) (do
    let v ← (groupRegs a 2).mapM rdV
    let w ← rdF b
    if v.any fun x => (List.range 8).any fun j => bits x.toNat (128 * j + 99) 29 != 0 then handleRange 1 1
    rowWord w
    return { MxCmd.new .reda with b := w, v := v, k := k.val })
    (fun _ _ fl => raise fl) s

/-- REDX (R223, R226): the rounding mode and SAT are those at issue. -/
def execRedx (d k b : Reg) (s : State) : Host.Outcome State Fault Refusal :=
  mxWait ⟨false, 1⟩ [fIn b] (do
    let w ← rdF b
    if 256 ≤ w.toNat then handleRange 1 2
    let t := bits w.toNat 4 4
    if t < 5 ∨ 7 < t then handleRange 4 2
    checkAliases [vOut d]
    let rm ← roundMode
    let sat ← satMode
    return { MxCmd.new .redx with b := w, k := k.val, rm := BitVec.ofNat 3 rm, sat := sat })
    (fun _ v fl => do
      putGroup d v
      raise fl) s

end Sys2Proof.Machine
end

