-- ==== Sys2Proof/Machine/Adapter.lean ====
section
/-! DEFINITION. ADTBL, AINV, APREF and ASTAT of major 0x32 (chapter The adapter). -/

namespace Sys2Proof.Machine

/-- An entry with a non-zero ID that R245 calls invalid. -/
def AdEntry.invalid (e : AdEntry) : Bool :=
  bits e.w0.toNat 21 3 != 0 || bits e.w0.toNat 30 2 != 0 || bits e.w0.toNat 48 16 != 0 || bits e.w1.toNat 60 4 != 0 ||
    bits e.w2.toNat 60 4 != 0 || bits e.w3.toNat 48 16 != 0 || e.rank = 0 || 16 < e.rank || tagInvalid e.tag ||
    e.la % 64 != 0 || e.lb % 64 != 0 || e.klim = 0 || e.nlim = 0 || decide (e.pitch < 2 * e.nlim) ||
    (tagOn e.tag && tagBs e.tag = 2 && e.klim % 2 = 1)

/-- ADAPTER_TABLE reason 3 with the failing slot (R250, R259). -/
def badTable {α : Type} (slot : Nat) : M α := trap Cause.adapterTable (BitVec.ofNat 64 (3 + slot * 2 ^ 8))

/-- The first entry of a table that has an identifier and is invalid; the first that is the second with its identifier. -/
def invalidAt (es : List AdEntry) : Option Nat :=
  (List.range es.length).find? fun i => (es[i]?).any fun e => e.id != 0 && e.invalid
def repeatedAt (es : List AdEntry) : Option Nat :=
  (List.range es.length).find? fun i => (es[i]?).any fun e => e.id != 0 && (es.take i).any fun d => d.id = e.id

/-- The slot for which a table is refused (R259): that of an invalid entry, else of the second of two with one identifier (R41). -/
def tableFault (first : Nat) (es : List AdEntry) : Option Nat := ((invalidAt es).orElse fun _ => repeatedAt es).map (first + ·)

/-- Four words as an entry. -/
def entriesOf : List Word → List AdEntry
  | a :: b :: c :: d :: l => ⟨a, b, c, d⟩ :: entriesOf l
  | _ => []

/-- The directory after ADTBL: the entries in their slots, and every other slot with one of their identifiers emptied
(R259). -/
def Octet.loaded (q : Octet) (first : Nat) (es : List AdEntry) (n : Nat) : AdEntry :=
  if first ≤ n ∧ n < first + es.length then es.getD (n - first) AdEntry.init
  else if es.any fun e => e.id != 0 && e.id = (q.entry n).id then AdEntry.init else q.entry n

/-- ADTBL (R259). -/
def execAdtbl (a b : Reg) (s : State) : Host.Outcome State Fault Refusal :=
  mxIssue [fIn a, fIn b] (do
    mxRoom
    let off := (← rdF a).toNat
    let w := (← rdF b).toNat
    let first := bits w 0 6
    let n := bits w 6 7
    if off % 32 ≠ 0 ∨ 2 ^ 20 < off + 32 * n ∨ 2 ^ 13 ≤ w ∨ n = 0 ∨ 64 < n ∨ 64 < first + n then badTable 0
    let o ← myOctet
    let at_ := scratchBase o + off
    let g ← ask fun s => s.checkRead at_ (32 * n)
    set g.1
    match g.2 with
    | some f => mxDiscarded f
    | none =>
      let es := entriesOf (← ask fun s => s.words at_ (4 * n))
      match tableFault first es with
      | some slot => badTable slot
      | none => pure ()
      let q ← ask fun s => s.octet o
      let changed := (List.range 64).filter fun i => q.loaded first es i != q.entry i
      let ids := changed.flatMap fun i => [(q.entry i).id, (q.loaded first es i).id]
      act fun s => s.updOctet o fun q' => changed.foldl (fun q' i =>
        { q'.setEntry i (q.loaded first es i) with dirBy := Tbl.set 0 q'.dirBy i (q.nextCmd + 1) }) q'
      let _ ← mxAccept { MxCmd.new .adtbl with
                           bound := (ids.filter fun i => i != 0).map fun i => (i, AdEntry.init),
                           undo := changed.map fun i => .slot i (q.entry i) (Tbl.get 0 q.dirBy i) }) s

/-- AINV (R260). -/
def execAinv (a : Reg) (s : State) : Host.Outcome State Fault Refusal :=
  mxIssue [fIn a] (do
    mxRoom
    let w ← rdF a
    if 2 ^ 16 ≤ w.toNat then handleRange 1 1
    let _ ← mxAccept { MxCmd.new .ainv with a := w }) s

/-- APREF (R261). -/
def execApref (a b : Reg) (s : State) : Host.Outcome State Fault Refusal :=
  mxIssue [fIn a, fIn b] (do
    mxRoom
    let w ← rdF a
    let y ← rdF b
    if 2 ^ 16 ≤ w.toNat then handleRange 1 1
    if 2 ^ 13 ≤ y.toNat ∨ y = 0 then handleRange 1 2
    let e ← adapterEntry w.toNat 0 y.toNat (← myCore).adtbase
    let _ ← mxAccept { MxCmd.new .apref with a := w, b := y, bound := [(0, e)] }) s

/-- ASTAT (R262). -/
def execAstat (d a : Reg) (s : State) : Host.Outcome State Fault Refusal :=
  mxWait noHint [fIn a, fOut d] (do
    let w ← rdF a
    if bits w.toNat 0 2 = 3 ∨ bits w.toNat 3 13 ≠ 0 ∨ 2 ^ 32 ≤ w.toNat then handleRange 1 1
    return { MxCmd.new .astat with a := w })
    (fun f _ _ => wrF d (f.getD 0)) s

end Sys2Proof.Machine
end

