-- ==== Sys2Proof/Machine/External.lean ====
section
/-! DEFINITION. The synchronous external instructions of majors 0x38 and 0x39, XPROG, XSECT and the sector cache (chapter
The memory core). -/

namespace Sys2Proof.Machine

/-- The A-thread of a memory core. -/
def aMemory : Who := ⟨true, false, [.memory]⟩

/-! ## Operands (R294, R300) -/

/-- A near and an extended operand (R294). -/
def isNear (w : Word) : Bool := w.toNat < 2 ^ 32
def isFar (w : Word) : Bool := isExt w.toNat

/-- A descriptor field outside its limits: the word's index (R300). -/
def badDesc {α : Type} (word : Nat) : M α := trap Cause.queueProtocol (BitVec.ofNat 64 (11 + word * 256))

/-- The four words of a descriptor (R300 step 1). -/
def readDesc (ea : Nat) : M (List Word) := readOwn ea 32 32

/-- A near extent lies in local memory at or above XB (R300 step 3). -/
def nearExtent (w : Word) (n : Nat) : M Unit := do
  if isNear w && n != 0 then
    let xb ← ask fun s => s.xbOf s.cur
    if w.toNat < xb ∨ 2 ^ 16 ≤ w.toNat then trap Cause.localRange w
    if 2 ^ 16 < w.toNat + n then trap Cause.localRange (BitVec.ofNat 64 (2 ^ 16))

/-- Alignment of an operand (R300 step 3). -/
def alignedTo (w : Word) (n : Nat) : M Unit := if w.toNat % n ≠ 0 then trap Cause.misaligned w else pure ()

/-- The homes of the parts of a range; none where a part's request is lost (R302, R308, R442). -/
def farHomes (rd wr : Bool) : List (Nat × Nat) → M (Option (List (Home × Nat × Nat)))
  | [] => return some []
  | p :: ps => do
    act fun s => { s with ea := BitVec.ofNat 64 p.1 }
    let s ← get
    let r := s.resolve s.cur p.1 rd wr
    set r.1
    match r.2 with
    | .at_ h =>
      match ← farHomes rd wr ps with
      | some l => return some ((h, p.1, p.2) :: l)
      | none => return none
    | .lost => return none
    | w => failWhere p.1 wr w

/-- The homes of an operand of n bytes: a near one lies at or above XB, as it is when the element is performed (R117, R140). -/
def operandHomes (ea n : Nat) (rd wr : Bool) : M (Option (List (Home × Nat × Nat))) := do
  if ea < 2 ^ 32 then
    let s ← get
    if ea < s.xbOf s.cur then trap Cause.localRange (BitVec.ofNat 64 ea)
    return some [(.here (localBase s.cur + ea), ea, n)]
  else
    if 2 ^ 60 < ea % 2 ^ 63 + n then trap Cause.localRange (BitVec.ofNat 64 ea)
    farHomes rd wr (pageParts (n / 1024 + 2) ea n)

/-- Examining the granules of every part: the failure in the lowest address is the access's (R274, R275). -/
def examineParts (write : Bool) (l : List (Home × Nat × Nat)) : M Unit :=
  examineSpans (l.filterMap fun p => match p.1 with
    | .here a => some (p.2.1, a, (granules a p.2.2).filter fun g => !write || (!isCxl a && !covers a p.2.2 g))
    | .remote _ _ _ => none)

/-- A request to another device: its answer, none if it is lost (R429, R441, R442). -/
def askRemote (ea d ctx va n : Nat) : M (Option Nat) := fun s =>
  let k := s.askDevice d ctx va n
  match k.2 with
  | .ok v => .ok (some v, k.1)
  | .lost => .ok (none, k.1)
  | r => trapKeep (remoteCause r) (BitVec.ofNat 64 ea) k.1

/-- The line accesses of the parts of an operand to the sector caches (R296, R304). -/
def touchParts (col write : Bool) (l : List (Home × Nat × Nat)) : M Unit :=
  act fun s => l.foldl (fun s p => s.touchHome s.cur p.2.1 p.2.2 p.1 col write) s

/-- The bytes of parts in order. -/
def readParts : List (Home × Nat × Nat) → M (Option (List Byte))
  | [] => return some []
  | p :: ps => do
    let own ← match p.1 with
      | .here a => some <$> ask fun s => s.readBytes a p.2.2
      | .remote d ctx va => (fun r => r.map (bytesOf p.2.2)) <$> askRemote p.2.1 d ctx va p.2.2
    match own, ← readParts ps with
    | some b, some l => return some (b ++ l)
    | _, _ => return none

/-- Reading n bytes of an operand, by row or by column lines; none where a request is lost. -/
def extRead (col : Bool) (ea n : Nat) : M (Option (List Byte)) := do
  match ← operandHomes ea n true false with
  | none => return none
  | some l =>
    touchParts col false l
    examineParts false l
    readParts l

/-- Asking the other devices of a write. -/
def askParts : List (Home × Nat × Nat) → M Bool
  | [] => return true
  | p :: ps => do
    match p.1 with
    | .here _ => askParts ps
    | .remote d ctx va =>
      match ← askRemote p.2.1 d ctx va p.2.2 with
      | some _ => askParts ps
      | none => return false

/-- Storing bytes over parts in order. -/
def storeParts : List (Home × Nat × Nat) → List Byte → M Unit
  | [], _ => pure ()
  | p :: ps, bytes => do
    match p.1 with
    | .here a => act fun s => (s.clearMarks a p.2.2).writeBytes a (bytes.take p.2.2)
    | .remote _ _ _ => pure ()
    storeParts ps (bytes.drop p.2.2)

/-- The parts of several operands, each with what is to be written there; none where a request would be lost. -/
def writePlaces : List (Nat × List Byte) → M (Option (List ((Home × Nat × Nat) × List Byte)))
  | [] => return some []
  | w :: ws => do
    match ← operandHomes w.1 w.2.length false true, ← writePlaces ws with
    | some l, some rest => return some (l.map (fun p => (p, (w.2.drop (p.2.1 - w.1)).take p.2.2)) ++ rest)
    | _, _ => return none

/-- Writing bytes to operands, by row or by column lines, in all or in none (R302, R308); false where a request is lost. -/
def extWrites (col : Bool) (ws : List (Nat × List Byte)) : M Bool := do
  match ← writePlaces ws with
  | none => return false
  | some l =>
    let parts := l.map fun p => p.1
    touchParts col true parts
    examineParts true parts
    if ← askParts parts then
      storeParts parts (l.flatMap fun p => p.2)
      return true
    else return false

/-- Writing bytes to one operand. -/
def extWrite (col : Bool) (ea : Nat) (bytes : List Byte) : M Bool := extWrites col [(ea, bytes)]

/-! ## Copies (R303 to R305) -/

/-- The fields of a copy descriptor's word 2. -/
def cpES (w : List Word) : Nat := 2 ^ bits (w.getD 2 0).toNat 0 2
def cpNC (w : List Word) : Nat := bits (w.getD 2 0).toNat 8 12
def cpNR (w : List Word) : Nat := bits (w.getD 2 0).toNat 20 12
def cpSP (w : List Word) : Nat := bits (w.getD 2 0).toNat 32 16
def cpDP (w : List Word) : Nat := bits (w.getD 2 0).toNat 48 16
def cpDst (w : List Word) : Word := w.getD 0 0
def cpSrc (w : List Word) : Word := w.getD 1 0

/-- The forms that go to the other orientation. -/
def ExtOp.col : ExtOp → Bool
  | .xldcol | .xstcol => true
  | _ => false

/-- The forms with a missing-element map. -/
def ExtOp.mapped : ExtOp → Bool
  | .xgath | .xscat | .xred => true
  | _ => false

/-- An identical pair, transposed in place (R303). -/
def inPlace (op : ExtOp) (w : List Word) : Bool :=
  op.col && isFar (cpDst w) && isFar (cpSrc w) && cpDst w = cpSrc w && cpDP w = cpSP w && cpNR w = cpNC w

/-- Bytes of the source's and the destination's extents (R303, R304). -/
def srcExtent (w : List Word) : Nat := 32 * cpSP w * (cpNR w - 1) + cpES w * cpNC w
def dstExtent (op : ExtOp) (w : List Word) : Nat :=
  if op.col then 32 * cpDP w * (cpNC w - 1) + cpES w * cpNR w else 32 * cpDP w * (cpNR w - 1) + cpES w * cpNC w

/-- An operand's kind is allowed: the near and the extended (R304). -/
def kindOk (w : Word) (near far : Bool) : Bool := (near && isNear w) || (far && isFar w)

/-- The checks of R300, steps 2 to 4, of a copy. DEDUCED, entry 27. -/
def copyChecks (op : ExtOp) (w : List Word) : M Unit := do
  let dst := cpDst w
  let src := cpSrc w
  if !kindOk dst (op != .xst && op != .xstcol) (op != .xld) then badDesc 0
  if !kindOk src (op = .xst || op = .xstcol) (op != .xst) then badDesc 1
  let rows := if op.col then cpNC w else cpNR w
  if bits (w.getD 2 0).toNat 2 6 ≠ 0 ∨ cpNC w = 0 ∨ cpNR w = 0 ∨ (1 < cpNR w ∧ cpSP w = 0) ∨ (1 < rows ∧ cpDP w = 0) then
    badDesc 2
  if w.getD 3 0 ≠ 0 then badDesc 3
  nearExtent dst (dstExtent op w)
  nearExtent src (srcExtent w)
  alignedTo dst (cpES w)
  alignedTo src (cpES w)
  if op.col && isFar dst && isFar src && !inPlace op w &&
      decide (src.toNat < dst.toNat + dstExtent op w ∧ dst.toNat < src.toNat + srcExtent w) then
    trap Cause.overlap dst

/-- The pair (i, j), i < j, of index k in a square of side n (R305). -/
def pairOf (n : Nat) : Nat → Nat → Nat → Nat × Nat
  | 0, i, _ => (i, i)
  | f + 1, i, k => if k < n - 1 - i then (i, i + 1 + k) else pairOf n f (i + 1) (k - (n - 1 - i))

/-- The number of elements. -/
def copyCount (op : ExtOp) (w : List Word) : Nat :=
  if inPlace op w then cpNR w * (cpNR w - 1) / 2 else cpNR w * cpNC w

/-- Performing element k of a copy; false where it is lost (R304, R305). -/
def copyElem (op : ExtOp) (w : List Word) (k : Nat) : M Bool := do
  let es := cpES w
  let src := (cpSrc w).toNat
  let dst := (cpDst w).toNat
  if inPlace op w then
    let p := pairOf (cpNR w) (cpNR w) 0 k
    let a := src + 32 * cpSP w * p.1 + es * p.2
    let b := src + 32 * cpSP w * p.2 + es * p.1
    let ha ← operandHomes a es true true
    let hb ← operandHomes b es true true
    if ha.isNone || hb.isNone then return false
    match ← extRead (op = .xldcol) a es, ← extRead (op = .xldcol) b es with
    | some x, some y => extWrites (op = .xstcol) [(a, y), (b, x)]
    | _, _ => return false
  else
    let i := k / cpNC w
    let j := k % cpNC w
    let from_ := src + 32 * cpSP w * i + es * j
    let dest := if op.col then dst + 32 * cpDP w * j + es * i else dst + 32 * cpDP w * i + es * j
    if (← operandHomes from_ es true false).isNone || (← operandHomes dest es false true).isNone then return false
    match ← extRead (op = .xldcol) from_ es with
    | some x => extWrite (op = .xstcol) dest x
    | none => return false

/-! ## Gathers, scatters and reductions (R306, R307) -/

/-- The fields of a gather descriptor. -/
def gaBase (w : List Word) : Nat := bits (w.getD 0 0).toNat 0 60
def gaLin (w : List Word) : Word := w.getD 1 0
def gaIdx (w : List Word) : Nat := bits (w.getD 2 0).toNat 0 16
def gaIS (w : List Word) : Nat := bits (w.getD 2 0).toNat 16 2
def gaSH (w : List Word) : Nat := bits (w.getD 2 0).toNat 18 6
def gaN (w : List Word) : Nat := bits (w.getD 2 0).toNat 24 24
def gaEL (w : List Word) : Nat := bits (w.getD 3 0).toNat 0 16
def gaFmt (w : List Word) : Nat := bits (w.getD 3 0).toNat 16 4
def gaISize (w : List Word) : Nat := if gaIS w = 0 then 4 else 8

/-- The unit of an element: the lane of XRED, 8 bytes otherwise (R306). -/
def gaUnit (op : ExtOp) (w : List Word) : Nat := if op = .xred then fmtWidth (gaFmt w) / 8 else 8

/-- The missing-element map: its address and bytes (R306). -/
def mapAddr (w : List Word) : Nat := (gaLin w).toNat + 8 * ceilDiv (gaN w * gaEL w) 8
def mapLen (w : List Word) : Nat := ceilDiv (gaN w) 8

/-- The checks of R300, steps 2 and 3, of a gather. DEDUCED, entry 27. -/
def gatherChecks (op : ExtOp) (w : List Word) : M Unit := do
  if bits (w.getD 0 0).toNat 60 4 ≠ 0 then badDesc 0
  if !kindOk (gaLin w) true true then badDesc 1
  if bits (w.getD 2 0).toNat 48 16 ≠ 0 ∨ 1 < gaIS w ∨ 40 < gaSH w ∨ gaIdx w % gaISize w ≠ 0 then badDesc 2
  let fmtOk := if op = .xred then 5 ≤ gaFmt w && gaFmt w ≤ 10 else gaFmt w = 0
  if bits (w.getD 3 0).toNat 20 44 ≠ 0 ∨ gaEL w = 0 ∨ !fmtOk ∨ gaEL w % gaUnit op w ≠ 0 then badDesc 3
  nearExtent (BitVec.ofNat 64 (gaIdx w)) (gaN w * gaISize w)
  nearExtent (gaLin w) (if gaN w = 0 then 0 else mapAddr w - (gaLin w).toNat + mapLen w)
  alignedTo (gaLin w) (gaUnit op w)

/-- The sums of an element's lanes, ascending, with their flags (R307). -/
def redLanes (fmt n : Nat) : Nat → List Byte → List Byte → List Byte × Flags
  | 0, _, _ => ([], fNone)
  | m + 1, old, new =>
    if old.isEmpty then ([], fNone)
    else
      let a := leBytes (old.take n)
      let b := leBytes (new.take n)
      let r := if isInt fmt then ((a + b) % 2 ^ (8 * n), fNone) else addNum fmt 0 false (decodeF fmt a) (decodeF fmt b)
      let rest := redLanes fmt n m (old.drop n) (new.drop n)
      (bytesOf n r.1 ++ rest.1, r.2 ||| rest.2)

/-- What other devices report of their parts of a reduction (R307, R441): the flags; none where a request is lost. -/
def askFlags : List (Home × Nat × Nat) → M (Option Flags)
  | [] => return some fNone
  | p :: ps => do
    match p.1 with
    | .here _ => askFlags ps
    | .remote d ctx va =>
      match ← askRemote p.2.1 d ctx va p.2.2, ← askFlags ps with
      | some f, some g => return some (BitVec.ofNat 5 f ||| g)
      | _, _ => return none

/-- The reduction of one element at the homes of its parts that are here (R307). -/
def reduceParts (fmt : Nat) : List (Home × Nat × Nat) → List Byte → M Flags
  | [], _ => return fNone
  | p :: ps, new => do
    let own ← match p.1 with
      | .here a => do
        let n := fmtWidth fmt / 8
        let old ← ask fun s => s.readBytes a p.2.2
        let r := redLanes fmt n (p.2.2 / n) old (new.take p.2.2)
        act fun s => (s.clearMarks a p.2.2).writeBytes a r.1
        pure r.2
      | .remote _ _ _ => pure fNone
    return own ||| (← reduceParts fmt ps (new.drop p.2.2))

/-- Performing element k of a gather, scatter or reduction; none where it is lost (R306, R307). -/
def gatherElem (op : ExtOp) (w : List Word) (k : Nat) : M (Option Flags) := do
  let idx := gaIdx w + gaISize w * k
  let c ← ask State.cur
  if idx < (← ask fun s => s.xbOf c) then trap Cause.localRange (BitVec.ofNat 64 idx)
  granuleTrap idx (localBase c + idx) (← ask fun s => s.checkRead (localBase c + idx) (gaISize w))
  let x ← ask fun s => s.readLE (localBase c + idx) (gaISize w)
  let t := gaBase w + x * 2 ^ gaSH w
  let el := gaEL w
  if 2 ^ 60 < t + el then trap Cause.localRange (BitVec.ofNat 64 (2 ^ 63 + t % 2 ^ 63))
  let far := 2 ^ 63 + t
  if far % gaUnit op w ≠ 0 then trap Cause.misaligned (BitVec.ofNat 64 far)
  let lin := (gaLin w).toNat + k * el
  let done := fun b : Bool => if b then some fNone else none
  match op with
  | .xgath =>
    if (← operandHomes lin el false true).isNone then return none
    match ← extRead false far el with
    | some b => return done (← extWrite false lin b)
    | none => return none
  | .xscat =>
    if (← operandHomes far el false true).isNone then return none
    match ← extRead false lin el with
    | some b => return done (← extWrite false far b)
    | none => return none
  | _ =>
    if (← operandHomes lin el true false).isNone then return none
    match ← operandHomes far el true true, ← extRead false lin el with
    | some l, some b =>
      touchParts false true l
      examineParts false l
      match ← askFlags l with
      | some f => return some (f ||| (← reduceParts (gaFmt w) l b))
      | none => return none
    | _, _ => return none

/-- Setting bit k of the missing-element map (R306). -/
def markMissing (w : List Word) (k : Nat) : M Unit := do
  let at_ := mapAddr w + k / 8
  match ← extRead false at_ 1 with
  | some b => do
    let _ ← extWrite false at_ [(b.headD 0) ||| BitVec.ofNat 8 (2 ^ (k % 8))]
  | none => pure ()

/-! ## The run of R302 -/

/-- Elements of an instruction. -/
def extCount (op : ExtOp) (w : List Word) : Nat := if op.mapped then gaN w else copyCount op w

/-- What performing an element changes of the thread. -/
inductive ElemEnd where
  | done (f : Flags)
  | missing
  | failed
  deriving DecidableEq, Repr

/-- Performing element k. -/
def extElem (op : ExtOp) (w : List Word) (k : Nat) : M ElemEnd := do
  if op.mapped then
    match ← gatherElem op w k with
    | some f => return .done f
    | none =>
      markMissing w k
      return .missing
  else if ← copyElem op w k then return .done fNone
  else return .failed

/-- The next element of a thread's synchronous external instruction (R302, R308). -/
def State.externalElement (s : State) (c : CoreName) (t : Thread) : State :=
  let h := s.th c t
  match h.pend with
  | .external op w false =>
    let k := h.progK.toNat
    if extCount op w ≤ k then s
    else match s.attempt c t (extElem op w k) with
      | (s', .ok (.done f)) => s'.updTh c t fun h => { h with progK := h.progK + 1, progFl := h.progFl ||| f }
      | (s', .ok .missing) => s'.updTh c t fun h => { h with progK := h.progK + 1, progMiss := true }
      | (s', .ok .failed) => s'.updTh c t fun h => { h with pend := .external op w true }
      | (s', .error (some f)) => s'.takeTrap c t h.pcOf f.1 f.2
      | (_, .error none) => s
  | _ => s

/-- The number of bits set in a list of bytes. -/
def popBytes (l : List Byte) : Nat := l.foldl (fun n b => n + (List.range 8).countP fun i => b.getLsbD i) 0

/-- The status word of an instruction that ends (R301, R308), and PROG cleared. DEDUCED, entry 27. -/
def extFinish (d : Reg) (op : ExtOp) (w : List Word) : M Unit := do
  let h ← myThread
  let missing ← if h.progMiss && op.mapped then do
      match ← extRead false (mapAddr w) (mapLen w) with
      | some b => pure (popBytes b)
      | none => pure 0
    else pure 0
  wrG d (BitVec.ofNat 64 ((if h.progMiss then 1 + missing * 2 ^ 24 else 0) + h.progFl.toNat * 2 ^ 8))
  updMyTh fun h => { h with progK := 0, progMiss := false, progFl := 0 }

/-- A synchronous external instruction: its checks at issue, then its elements one by one, then its status (R295, R302). -/
def external (ok : Hints) (op : ExtOp) (d a : Reg) (s : State) : Host.Outcome State Fault Refusal :=
  issue aMemory ok .user (seq do
    match (← myThread).pend with
    | .external op w failed =>
      if failed then
        let h ← myThread
        wrG d (BitVec.ofNat 64 (2 + h.progFl.toNat * 2 ^ 8))
        updMyTh fun h => { h with progFl := 0 }
      else if extCount op w ≤ (← myThread).progK.toNat then extFinish d op w
      else wait .external
    | _ =>
      coverStores
      let w ← readDesc (← rdG a).toNat
      if op.mapped then gatherChecks op w else copyChecks op w
      let h ← myThread
      if h.progK = 0 && !h.progMiss then
        updMyTh fun h => { h with progFl := 0 }
        if op.mapped && mapLen w != 0 then
          let _ ← extWrite false (mapAddr w) (List.replicate (mapLen w) 0)
      if extCount op w ≤ h.progK.toNat then extFinish d op w
      else
        updMyTh fun h => { h with pend := .external op w false }
        waitKeep .external) s

/-- XLD (R304). -/
def execXld (d a : Reg) (s : State) : Host.Outcome State Fault Refusal := external ntHint .xld d a s

/-- XST (R304). -/
def execXst (d a : Reg) (s : State) : Host.Outcome State Fault Refusal := external ntHint .xst d a s

/-- XLDCOL (R303 to R305). -/
def execXldcol (d a : Reg) (s : State) : Host.Outcome State Fault Refusal := external ntHint .xldcol d a s

/-- XSTCOL (R303 to R305). -/
def execXstcol (d a : Reg) (s : State) : Host.Outcome State Fault Refusal := external ntHint .xstcol d a s

/-- XGATH (R306). -/
def execXgath (d a : Reg) (s : State) : Host.Outcome State Fault Refusal := external ntHint .xgath d a s

/-- XSCAT (R306). -/
def execXscat (d a : Reg) (s : State) : Host.Outcome State Fault Refusal := external ntHint .xscat d a s

/-- XRED (R306, R307). -/
def execXred (d a : Reg) (s : State) : Host.Outcome State Fault Refusal := external noHint .xred d a s

/-- EXTERNAL_ELEMENT (R302). -/
def execExternalElement (c : CoreName) (t : Thread) (s : State) : Host.Outcome State Fault Refusal :=
  event (fun s => s.externalElement c t) s

/-- PROG as a word (R302). -/
def ThreadState.prog (h : ThreadState) : Nat := h.progK.toNat + if h.progMiss then 2 ^ 24 else 0

/-- Setting PROG (R302, R309). The flags of the run that PROG stands for go with it (R301): a run that is left keeps them, and the
one whose PROG comes back has them again. DEDUCED, entry 27. -/
def ThreadState.setProg (h : ThreadState) (w : BitVec 25) : ThreadState :=
  let old := BitVec.ofNat 25 h.prog
  let l := if h.progFl = 0 then h.progStash else (old, h.progFl) :: h.progStash.filter fun e => e.1 != old
  { h with
      progK := w.setWidth 24, progMiss := w.getLsbD 24,
      progFl := ((l.find? fun e => e.1 = w).map Prod.snd).getD 0, progStash := l.filter fun e => e.1 != w }

/-- XPROG (R309). -/
def execXprog (d a : Reg) (s : State) : Host.Outcome State Fault Refusal :=
  issue aMemory noHint .user (seq do
    let w ← rdG a
    if 2 ^ 25 ≤ w.toNat then badDesc 0
    let h ← myThread
    wrG d (BitVec.ofNat 64 h.prog)
    updMyTh fun h => h.setProg (w.setWidth 25)) s

/-! ## The sector cache (R296 to R298, R314) -/

/-- The effect of a kind of XSECT on a sector (R314). -/
def Sector.sect (q : Sector) (kind : Nat) : Sector :=
  match kind with
  | 1 => { q with dirty := false }
  | 2 => Sector.init
  | 3 => if q.present then { q with o := false, other := 0 } else q
  | 4 => if q.present then { q with o := true, other := 0 } else q
  | _ => q

/-- XSECT (R314). DEDUCED, entry 27. -/
def execXsect (d a b : Reg) (s : State) : Host.Outcome State Fault Refusal :=
  issue aMemory noHint .user (seq do
    let ea := (← rdG a).toNat
    let kind := (← rdG b).toNat
    if 4 < kind then badDesc 0
    coverStores
    checkMap ea 1
    match ← findPlace ea true false with
    | .here p =>
      granuleTrap ea p (← ask fun s => s.checkRead p 1)
      let s ← get
      let va := ea % 2 ^ 60
      let tag := s.sectorTag (s.sectorKey s.cur.station (s.ctxOf s.cur) va p) (s.ctxOf s.cur)
      let q := if p < 12 * 2 ^ 36 then s.sector tag else Sector.init
      let twoD := (s.cachedLeaf s.cur.station (s.ctxOf s.cur) va).any fun t => pteTwoD t.pte
      wrG d (BitVec.ofNat 64 (if kind = 0 then (if q.present then 1 else 0) + (if q.o then 2 else 0) +
        (if q.dirty then 4 else 0) + (if twoD && isExt ea then 8 else 0) else 0))
      act fun s => s.updSector tag fun _ => q.sect kind
    | .remote d' ctx va =>
      let _ ← remoteTrap ea d' ctx va 1
      wrG d 0) s

/-- The leaf of a station by which a context reaches a byte of the station's stack at its direct address (R296). -/
def State.leafTo (s : State) (st a : Nat) : Option TlbLeaf :=
  (s.station st).tlb.find? fun t => pteLeaf t.pte && ptePA t.pte ≤ a && a < ptePA t.pte + 2 ^ levelLo t.level

/-- A line access to an address of a stack, by the page through which its station reaches it. -/
def State.lineAt (s : State) (st a : Nat) (col write : Bool) : State :=
  match s.leafTo st a with
  | some t => s.touch st t.ctx (t.page * 2 ^ levelLo t.level + (a - ptePA t.pte)) a 1 col write
  | none => s.lineAccess (a / 1024) 0 col write 1

/-- SECTOR_LINE_ACCESS: a stack's sector is served one line access (R297, R298). DESIGN CHOICE, entry 27. -/
def execSectorLineAccess (st : Fin 12) (addr : BitVec 36) (col write : Bool) (s : State) :
    Host.Outcome State Fault Refusal :=
  event (fun s => s.lineAt st.val (st.val * 2 ^ 36 + addr.toNat) col write) s

end Sys2Proof.Machine
end

