-- ==== Sys2Proof/Machine/System.lean ====
section
/-! DEFINITION. HINT, the system instructions of major 0x02 but for the CSR forms, PUSHM and POPM (chapters The
instruction word and The thread and its core). -/

namespace Sys2Proof.Machine

/-- A HINT takes one issue slot and changes nothing by itself; one behind another HINT is a misuse (R42 to R46). -/
def hint (h : Hint) (s : State) : Host.Outcome State Fault Refusal :=
  issue axAll ⟨true, 0xF⟩ .user (do
    if (← myThread).hint.isSome then trap Cause.hintMisuse ((← ask State.ir).setWidth 64)
    return .hinted h) s

/-- HINT of kind IMM (R42, R44). -/
def execHintImm (d : BitVec 22) (s : State) : Host.Outcome State Fault Refusal := hint (.imm d) s

/-- HINT of kind MOD (R42, R45). -/
def execHintMod (m : BitVec 4) (s : State) : Host.Outcome State Fault Refusal := hint (.mod m) s

/-- HINT of kind BRX (R42, R45). -/
def execHintBr (b : BitVec 2) (s : State) : Host.Outcome State Fault Refusal := hint (.brx b) s

/-- NOP (R39). -/
def execNop (s : State) : Host.Outcome State Fault Refusal := issue axAll noHint .user (return .seq) s

/-- TRAP retires and then traps with BREAK (R137). DEDUCED, entry 11. -/
def execTrap (c : BitVec 12) (s : State) : Host.Outcome State Fault Refusal :=
  issue axAll noHint .user (return .brk (c.setWidth 64)) s

/-- HRET (R113). -/
def execHret (s : State) : Host.Outcome State Fault Refusal :=
  issue axAll noHint .handler (do
    act fun s => s.hret s.cur s.thr
    return .done) s

/-! ## WAIT (R139) -/

/-- The event bits that hold now for a thread. -/
def State.eventBits (s : State) (c : CoreName) (t : Thread) : BitVec 4 :=
  let k := s.core c
  let inq := match t with
    | .a => !k.xaq.isEmpty
    | .x => !k.axq.isEmpty
  let evq := match c with
    | .control cl => decide (0 < (s.cluster cl).evCount)
    | _ => false
  BitVec.ofNat 4 ((if inq then 1 else 0) + (if k.a.wchan then 2 else 0) + (if k.a.wkick then 4 else 0) + (if evq then 8 else 0))

/-- The device time a thread compares a deadline with (R446). -/
def State.timeWord (s : State) : Word := BitVec.ofNat 64 s.nowNs

/-- The event bits a thread may name (R139): no INQ without an X-thread, only INQ in an X-thread, EVQ on kind K. -/
def waitLegal (e : BitVec 4) (s : State) : Bool :=
  match s.thr with
  | .a => (s.cur.hasX || !e.getLsbD 0) && (s.cur.kind = .control || !e.getLsbD 3)
  | .x => e &&& 0xE = 0

/-- WAIT (R139). -/
def execWait (d a : Reg) (l : Bool) (e : BitVec 4) (s : State) : Host.Outcome State Fault Refusal :=
  issueIf (fun s => axAll.legal s && waitLegal e s) noHint .user (seq do
    checkR ([fOut d] ++ if l then [fIn a] else [])
    let deadline ← if l then rdR a else pure 0
    let s ← get
    let hit := e &&& s.eventBits s.cur s.thr
    let late := l && decide (deadline.toNat ≤ s.timeWord.toNat)
    if hit = 0 ∧ late = false then wait .event
    wrR d (BitVec.ofNat 64 (hit.toNat + if late then 256 else 0))
    updMyTh fun h => { h with wchan := h.wchan && !hit.getLsbD 1, wkick := h.wkick && !hit.getLsbD 2 }) s

/-! ## SETXB (R140) -/

/-- SETXB (R140): the boundary both threads fetch under moves when it retires (R119, R120). DEDUCED, entry 16. -/
def execSetxb (d a : Reg) (s : State) : Host.Outcome State Fault Refusal :=
  issue axAll noHint .handler (seq do
    checkR [fIn a, fOut d]
    let w ← rdR a
    if w.toNat % 256 ≠ 0 ∨ 0x10000 < w.toNat then trap Cause.localRange w
    let old ← ask fun s => s.xbOf s.cur
    updMy fun k => { k with xb := BitVec.ofNat 9 (w.toNat / 256) }
    wrR d (BitVec.ofNat 64 old)) s

/-! ## Gangs (R124, R125) -/

/-- The A-thread of a compute core. -/
def aCompute : Who := ⟨true, false, [.compute]⟩

/-- The octet index of a compute core. -/
def CoreIdx (c : CoreName) : Fin 8 :=
  match c with
  | .compute _ x => x
  | _ => 0

/-- The cores at the n yarn positions after a leader's (R124). -/
def gangOf (c : CoreName) (n : Nat) : List (CoreName × Nat) :=
  (List.range n).map fun i => (c.yarn (yarnPos (CoreIdx c) + i + 1), i + 1)

/-- A misuse of GANG (R125). -/
def gangMisuse {α : Type} : M α := trap Cause.gangDiverge 1

/-- GANG FORM (R125): the leader waits until each of its followers has executed JOIN. -/
def execGangForm (d : Reg) (n : Fin 8) (s : State) : Host.Outcome State Fault Refusal :=
  issue aCompute noHint .user (seq do
    let s ← get
    let c := s.cur
    let x := CoreIdx c
    if 7 < yarnPos x + n.val ∨ (s.core c).gang.active = true then gangMisuse
    let fs := gangOf c n.val
    if !(fs.all fun f => let g := (s.core f.1).gang; g.joining && !g.active) then wait .gang
    act fun s => fs.foldl (fun t f => t.updCore f.1 fun k =>
      { k with gang := ⟨0, true, true, false, x, Fin.ofNat 8 f.2, false, [], false⟩ }) s
    updMy fun k => { k with gang := ⟨n, false, true, false, x, 0, false, [], false⟩ }
    wrG d 0) s

/-- GANG JOIN (R125): the follower waits until a FORM names it. -/
def execGangJoin (d : Reg) (s : State) : Host.Outcome State Fault Refusal :=
  issue aCompute noHint .user (seq do
    let k ← myCore
    if k.gang.active then
      if k.a.pend ≠ .gang then gangMisuse
      wrG d (BitVec.ofNat 64 k.gang.pos.val)
    else
      waitWith .gang fun s => s.updCore s.cur fun k =>
        { k with gang := { k.gang with joining := true }, a := { k.a with pend := .gang } }) s

/-- GANG END (R125): the leader stops forwarding; a follower that receives it leaves the gang. DESIGN CHOICE, entry 12: a leader at
handler level forwards nothing, so its followers stay in the gang. -/
def execGangEnd (d : Reg) (s : State) : Host.Outcome State Fault Refusal :=
  issue aCompute noHint .user (seq do
    let s ← get
    let g := (s.core s.cur).gang
    if !(g.active && !g.compare && (!g.follower || s.follows)) then gangMisuse
    updMy fun k => { k with gang := Gang.init }
    wrG d 0) s

/-! ## PUSHM and POPM (R123) -/

/-- The class of register a range instruction moves. -/
inductive RegClass where
  | g | f | v
  deriving DecidableEq, Repr

/-- Bytes of a slot of the stack (R123). -/
def RegClass.size : RegClass → Nat
  | .v => 128
  | _ => 8

/-- A register as a number, and a register set from one; an aliased one is not met here. -/
def Core.rawGet (k : Core) (cl : RegClass) (n : Nat) : Nat :=
  match cl with
  | .g => (k.gr n).toNat
  | .f => (k.fr n).toNat
  | .v => (k.vr n).toNat
def Core.rawSet (k : Core) (cl : RegClass) (n w : Nat) : Core :=
  match cl with
  | .g => k.setG n (BitVec.ofNat 64 w)
  | .f => k.setF n (BitVec.ofNat 64 w)
  | .v => k.setV n (BitVec.ofNat 1024 w)

/-- The threads of the forms (R38). -/
def RegClass.who : RegClass → Who
  | .g => aAll
  | _ => xAll

/-- The checks both instructions make first (R123). -/
def rangeCheck (cl : RegClass) (first last : Nat) : M Unit := do
  let k ← myCore
  if cl ≠ .g ∧ ((List.range (last + 1 - first)).any fun i => (k.alias? (first + i)).isSome) = true then
    trap Cause.queueProtocol 2

/-- PUSHM (R123). -/
def pushm (cl : RegClass) (d a : Reg) (s : State) : Host.Outcome State Fault Refusal :=
  issue cl.who noHint .user (seq do
    rangeCheck cl d.val a.val
    let n := a.val + 1 - d.val
    let h ← myThread
    let c ← ask State.cur
    let xb ← ask fun s => s.xbOf s.cur
    let sp := h.ssp.toNat * 8
    let lo : Int := (sp : Int) - ((n * cl.size : Nat) : Int)
    if lo < ((h.sslo.toNat * 8 : Nat) : Int) then trap Cause.stackOverflow (int64 lo)
    if lo < (xb : Int) ∨ 0x10000 < sp then trap Cause.localRange (int64 lo)
    act fun s => { s with ea := int64 lo }
    if (← ask State.thr) = .a then orderRelaxed (.here (localBase c + lo.toNat)) (n * cl.size)
    act fun s => (List.range n).foldl (fun t i =>
      t.store (localBase c + lo.toNat + i * cl.size) cl.size ((s.core c).rawGet cl (d.val + i))) s
    updMyTh fun h => { h with ssp := BitVec.ofNat 14 (lo.toNat / 8) }) s

/-- POPM (R123). -/
def popm (cl : RegClass) (d a : Reg) (s : State) : Host.Outcome State Fault Refusal :=
  issue cl.who noHint .user (seq do
    rangeCheck cl d.val a.val
    let n := a.val + 1 - d.val
    let h ← myThread
    let c ← ask State.cur
    let xb ← ask fun s => s.xbOf s.cur
    let sp := h.ssp.toNat * 8
    let hi := sp + n * cl.size
    if h.sshi.toNat * 8 < hi then trap Cause.stackUnderflow (BitVec.ofNat 64 hi)
    if sp < xb ∨ 0x10000 < hi then trap Cause.localRange (BitVec.ofNat 64 sp)
    act fun s => { s with ea := BitVec.ofNat 64 sp }
    let base := localBase c + sp
    if (← ask State.thr) = .a then orderRelaxed (.here base) (n * cl.size)
    granuleTrap sp base (← ask fun s => s.checkRead base (n * cl.size))
    act fun s => s.updCore c fun k => (List.range n).foldl (fun k i =>
      k.rawSet cl (d.val + i) (s.readLE (base + i * cl.size) cl.size)) k
    updMyTh fun h => { h with ssp := BitVec.ofNat 14 (hi / 8) }) s

/-- PUSHM of g, f and v registers, POPM of g, f and v registers (R123). -/
def execPushmG (d a : Reg) (s : State) : Host.Outcome State Fault Refusal := pushm .g d a s
def execPushmF (d a : Reg) (s : State) : Host.Outcome State Fault Refusal := pushm .f d a s
def execPushmV (d a : Reg) (s : State) : Host.Outcome State Fault Refusal := pushm .v d a s
def execPopmG (d a : Reg) (s : State) : Host.Outcome State Fault Refusal := popm .g d a s
def execPopmF (d a : Reg) (s : State) : Host.Outcome State Fault Refusal := popm .f d a s
def execPopmV (d a : Reg) (s : State) : Host.Outcome State Fault Refusal := popm .v d a s

/-! ## Steps of a thread that no instruction makes -/

/-- ILLEGAL_INSTR: the word at the thread's program counter decodes to no instruction it may issue (R40, R41). A gang's leader forwards
it like any word it issues (R125), and a checked pair traps in both cores (R416). -/
def execIllegalInstr (s : State) : Host.Outcome State Fault Refusal :=
  event (fun s => s.issuePair fun s =>
    if s.yarnFull then s.waitFor .gang else s.trapIssued s Cause.illegalInstr (s.ir.setWidth 64)) s

/-- FETCH_BOUNDARY: the fetch at or above XB fails; after a HINT the pair's address is reported (R118, R47). -/
def execFetchBoundary (s : State) : Host.Outcome State Fault Refusal :=
  event (fun s => s.issuePair fun s =>
    let h := s.th s.cur s.thr
    s.takeTrap s.cur s.thr h.pcOf Cause.fetchBoundary (BitVec.ofNat 64 h.pc)) s

/-- FETCH_ECC_FAILURE: the fetched word's granule is uncorrectable, and is poisoned, or already poisoned (R116). -/
def execFetchEccFailure (s : State) : Host.Outcome State Fault Refusal :=
  event (fun s => s.issuePair fun s =>
    let h := s.th s.cur s.thr
    let r := s.checkRead (localBase s.cur + h.pc) 4
    match r.2 with
    | none => r.1
    | some f => r.1.takeTrap s.cur s.thr h.pcOf f.1 (BitVec.ofNat 64 h.pc)) s

end Sys2Proof.Machine
end

