-- ==== Sys2Proof/Machine/Channel.lean ====
section
/-! DEFINITION. Major 0x18: channels, rounds and KICK, and the steps of a channel (chapter The channel and the round). -/

namespace Sys2Proof.Machine

/-- The checks an instruction makes of a target word (R321). -/
def resolvesFor (w : Word) : M Target := do
  if targetBad w then trap Cause.queueProtocol 12
  let t ← ask fun s => s.targetOf s.cur w
  if t = .fails then trap Cause.accessRights w
  return t

/-- The checks of an extent that a channel instruction reads or writes (R332, R336). -/
def ownExtent (ea len : Nat) : M Nat := do
  act fun s => { s with ea := BitVec.ofNat 64 ea }
  match ← ask fun s => s.ownRange s.cur ea len with
  | .error e => trap Cause.localRange (BitVec.ofNat 64 e)
  | .ok a =>
    if ea % 8 ≠ 0 then trap Cause.misaligned (BitVec.ofNat 64 ea)
    return a

/-- A region of an input: a base at a multiple of 64, where a ring may lie. -/
def State.regionFits (s : State) (c : CoreName) (base units : Nat) : Bool :=
  base % 64 = 0 && (units = 0 || match s.ownRange c base (64 * units) with | .ok _ => true | .error _ => false)

/-- Check 2 of DECL (R322). DEDUCED, entry 18. -/
def State.declOk (s : State) (c : CoreName) (d : Decl) : Bool :=
  !d.w0.getLsbD 7 && bits d.w0.toNat 12 4 = 0 && d.mode != 3 && bits d.w2.toNat 48 16 = 0 && bits d.w3.toNat 48 16 = 0 &&
  !targetBad d.peer &&
  (if d.out then d.w2 = 0 && d.w3 = 0 && d.lsize = 0 && d.land = 0
   else
    (d.mode = 2 || (d.lsize = 0 && d.land = 0)) && d.rsize != 0 && (d.ssize != 0 || d.spill = 0) &&
    s.regionFits c d.ring d.rsize && s.regionFits c d.spill d.ssize && s.regionFits c d.land d.lsize &&
    !meets d.ring (64 * d.rsize) d.spill (64 * d.ssize) && !meets d.ring (64 * d.rsize) d.land (64 * d.lsize) &&
    !meets d.spill (64 * d.ssize) d.land (64 * d.lsize))

/-! ## Endpoints (R323, R325) -/

def State.updOut (s : State) (c : CoreName) (n : Fin 16) (f : OutEp → OutEp) : State :=
  s.updCore c fun k => { k with outs := Tbl.upd OutEp.init k.outs n.val f }
def State.updIn (s : State) (c : CoreName) (n : Fin 16) (f : InEp → InEp) : State :=
  s.updCore c fun k => { k with ins := Tbl.upd InEp.init k.ins n.val f }

/-- An output and an input that name each other, both CONNECTING and of one MODE, become OPEN, as a connection of its own (R323,
R328). -/
def State.join (s : State) (co : CoreName) (o : Fin 16) (ci : CoreName) (i : Fin 16) : State :=
  let x := (s.core co).outEp o
  let y := (s.core ci).inEp i
  if x.st = .connecting ∧ y.st = .connecting ∧ x.decl.mode = y.decl.mode ∧ x.decl.peerch = i ∧ y.decl.peerch = o ∧
      s.targetOf co x.decl.peer = .core ci ∧ s.targetOf ci y.decl.peer = .core co then
    let n := s.conns + 1
    (({ s with conns := n }).updOut co o fun e => { e with
        st := .opened, seq := 0, mfree := 8 * y.decl.rsize, sfree := 8 * y.decl.ssize, sout := 0,
        land := y.decl.land, lsize := y.decl.lsize, staging := [], conn := n }).updIn ci i fun e =>
      { e with st := .opened, eseq := 0, closing := false, conn := n }
  else s

/-- An endpoint that may connect does (R323). -/
def State.connect (s : State) (c : CoreName) (out : Bool) (n : Fin 16) : State :=
  let d := if out then ((s.core c).outEp n).decl else ((s.core c).inEp n).decl
  match s.targetOf c d.peer with
  | .core p => if out then s.join c n p d.peerch else s.join p d.peerch c n
  | _ => s

/-- The sixteen endpoint numbers. -/
def allCh : List (Fin 16) := (List.range 16).map fun n => Fin.ofNat 16 n

/-- Every endpoint of a core that may connect does. -/
def State.connectCore (s : State) (c : CoreName) : State :=
  allCh.foldl (fun s n => (s.connect c true n).connect c false n) s

/-- Every endpoint of the device that may connect does: a window map has changed. -/
def State.connectAll (s : State) : State := s.cores.foldl (fun s k => s.connectCore (CoreName.ofIndex k.1)) s

/-- The core a message is for. -/
def State.goesTo (s : State) (m : RMsg) : Target := s.resolveTarget m.kind m.ctx m.word

/-- Credit returns on their way to an output that is OPEN no longer are lost. -/
def State.dropCredits (s : State) (c : CoreName) (n : Fin 16) : State :=
  { s with router := s.router.filter fun m =>
      match m.what with
      | .credit _ _ => !(m.ch = n && s.goesTo m = .core c)
      | _ => true }

/-- What a CLOSE does at the peer: of an output, at the input it fed; of an input, at the output that fed it (R325). -/
def State.peerClosed (s : State) (c : CoreName) (n : Fin 16) (wasOut : Bool) : State :=
  if wasOut then
    let e := (s.core c).inEp n
    if e.st ≠ .opened then s
    else if e.ring = [] ∧ e.spill = [] then (s.updIn c n fun e => { e with st := .connecting }).connect c false n
    else s.updIn c n fun e => { e with closing := true }
  else
    let e := (s.core c).outEp n
    if e.st = .opened ∨ e.st = .pending then
      ((s.dropCredits c n).updOut c n fun e =>
        { e with st := .connecting, staging := [], mfree := 0, sfree := 0, sout := 0 }).connect c true n
    else s

/-- What a message does where it arrives (R325, R328, R347): one of a connection that is no more does nothing. -/
def State.apply (s : State) (c : CoreName) (m : RMsg) : State :=
  match m.what with
  | .credit r sp => s.updOut c m.ch fun e =>
    if (e.st = .opened ∨ e.st = .pending) ∧ e.conn = m.conn then
      { e with mfree := e.mfree + r, sfree := e.sfree + sp, sout := e.sout - sp }
    else e
  | .outClosed => if ((s.core c).inEp m.ch).conn = m.conn then s.peerClosed c m.ch true else s
  | .inClosed => if ((s.core c).outEp m.ch).conn = m.conn then s.peerClosed c m.ch false else s
  | .kick v src => s.ring c v src (BitVec.ofNat 12 m.ctx)

/-- A message that needs no time on its way: applied, or held while its target is switched out (R342, R343). -/
def State.sendMsg (s : State) (m : RMsg) : State :=
  match s.goesTo m with
  | .core c => s.apply c m
  | .held => { s with router := s.router ++ [m] }
  | .fails => s

/-- The message a core sends toward the peer of an endpoint's connection. -/
def State.toPeer (s : State) (c : CoreName) (d : Decl) (conn : Nat) (what : RWhat) : RMsg :=
  ⟨(s.core c).ctxid.toNat, c.kind, d.peer, d.peerch, conn, what⟩

/-- An output becomes CLOSED, its staging discarded (R325). -/
def State.closeOut (s : State) (c : CoreName) (n : Fin 16) : State :=
  let e := (s.core c).outEp n
  let t := (s.dropCredits c n).updOut c n fun _ => OutEp.init
  if e.st = .opened ∨ e.st = .pending then t.sendMsg (s.toPeer c e.decl e.conn .outClosed) else t

/-- An input becomes CLOSED, its records discarded (R325). -/
def State.closeIn (s : State) (c : CoreName) (n : Fin 16) : State :=
  let e := (s.core c).inEp n
  let t := s.updIn c n fun _ => InEp.init
  if e.st = .opened ∧ e.closing = false then t.sendMsg (s.toPeer c e.decl e.conn .inClosed) else t

/-- Every endpoint of a core becomes CLOSED: thread end, bind-off, cancel (R325, R366). -/
def State.closeAll (s : State) (c : CoreName) : State :=
  allCh.foldl (fun s n => (s.closeOut c n).closeIn c n) s

/-- What is held toward a restored octet is delivered in order (R342, R343); what no longer resolves is dropped. -/
def State.releaseHeld (s : State) : State :=
  let step := fun (t : State) (m : RMsg) =>
    match t.goesTo m with
    | .core c => t.apply c m
    | .held => { t with router := t.router ++ [m] }
    | .fails => t
  s.router.foldl step { s with router := [] }

/-! ## The end of a thread (R96) -/

/-- A thread goes OFF: what it has not retired has no effect. -/
def ThreadState.end_ (h : ThreadState) : ThreadState :=
  { h with st := .off, wreason := .none, hint := none, pend := .none, mx := .none, since := none }

/-- The requests of a core's threads leave the queues they wait in, and those behind them are granted (R285). -/
def State.leaveQueues (s : State) (c : CoreName) : State :=
  let homes := (s.syncq.filter fun q => q.2.any (SyncReq.of c)).map fun q => q.1
  let s := { s with
             syncq := s.syncq.filterMap fun q =>
               let l := q.2.filter fun r => !r.of c
               if l = [] then none else some (q.1, l),
             takeq := s.takeq.filterMap fun q =>
               let l := q.2.filter fun r => r.1 != c
               if l = [] then none else some (q.1, l) }
  homes.foldl State.grantAll s

/-- Both threads of a core end (R96, R325, R347, R365). -/
def State.endCore (s : State) (c : CoreName) : State :=
  ((s.closeAll c).leaveQueues c).updCore c fun k =>
    { k with a := k.a.end_, x := k.x.end_, gang := if k.gang.compare then k.gang else Gang.init, rptBody := [], edgeStop := false }

/-! ## Placing, staging and delivery (R326 to R328, R332, R333) -/

/-- A header word (R326). -/
def headerWord (len : Nat) (mark : Bool) (seq : BitVec 32) : Word :=
  BitVec.ofNat 64 (len + (if mark then 2 ^ 16 else 0) + seq.toNat * 2 ^ 32)

/-- Where a record of w words is placed: the ring (false), the spill region (true), or nowhere (R328). -/
def OutEp.place (e : OutEp) (w : Nat) : Option Bool :=
  if e.sout = 0 ∧ w ≤ e.mfree then some false else if w ≤ e.sfree then some true else none

/-- The words an output's staging holds (R332). -/
def OutEp.staged (e : OutEp) : Nat := (e.staging.map fun r => r.words.length + r.putWords).sum

/-- Placing a record and copying it into staging (R328, R332). -/
def OutEp.stage (e : OutEp) (r : Rec) : OutEp :=
  let w := r.words.length
  let sp := (e.place w).getD true
  { e with
    staging := e.staging ++ [{ r with spill := sp }],
    mfree := if sp then e.mfree else e.mfree - w, sfree := if sp then e.sfree - w else e.sfree,
    sout := if sp then e.sout + w else e.sout, seq := if r.mark then e.seq else e.seq + 1 }

/-- Whether a delivery may write n bytes of a core at a flat address: none below the core's execute boundary (R117). DESIGN CHOICE,
entry 16. -/
def State.above (s : State) (c : CoreName) (a : Nat) : Bool := !(localBase c ≤ a && a < localBase c + s.xbOf c)

/-- Storing the words of a record at the tail of a region of a core, wrapping (R326). -/
def State.putRing (s : State) (c : CoreName) (base size : Nat) : Nat → List Word → State
  | _, [] => s
  | i, w :: ws =>
    let a := base + 8 * (i % size)
    (if s.above c a then s.store a 8 w.toNat else s).putRing c base size (i + 1) ws

/-- The payload of a PUT written into the landing region of a core (R335); a part that R117 or R275 forbids is not written. -/
def State.putLanding (s : State) (c : CoreName) (base : Nat) : List (Nat × Nat × Nat) → State
  | [] => s
  | p :: ps =>
    let lo := if s.above c (base + p.1) then 0 else localBase c + s.xbOf c - (base + p.1)
    let a := base + p.1 + lo
    let n := p.2.1 - lo
    let q := s.checkWrite a n
    (match q.2 with
      | some _ => q.1
      | none => if n = 0 then s else q.1.store a n (p.2.2 / 256 ^ lo)).putLanding c base ps

/-- A record landing at an input: the payload first, then the record, all at once, unless it is a duplicate (R327, R333,
R335). DEDUCED, entry 18. -/
def State.landRecord (s : State) (t : CoreName) (n : Fin 16) (r : Rec) : State :=
  let e := (s.core t).inEp n
  if !r.mark && r.seq != e.eseq then s
  else
    let s := s.putLanding t (s.ownFlat t e.decl.land) r.put
    let w := r.words.length
    let m : InRec := ⟨w, bits (r.words.headD 0).toNat 0 16, r.mark, r.seq⟩
    let size := 8 * if r.spill then e.decl.ssize else e.decl.rsize
    let base := s.ownFlat t (if r.spill then e.decl.spill else e.decl.ring)
    let s := s.putRing t base size (if r.spill then e.stail else e.rtail) r.words
    (s.updIn t n fun e =>
      let e := { e with eseq := if r.mark then e.eseq else e.eseq + 1 }
      if r.spill then { e with stail := (e.stail + w) % size, spill := e.spill ++ [m] }
      else { e with rtail := (e.rtail + w) % size, ring := e.ring ++ [m] }).updTh t .a fun h => { h with wchan := true }

/-- Whether a relaxed store that a core's thread made before sending a record of an output is still to be performed in a byte that the
record may land in (R289 (a)). -/
def State.storeBefore (s : State) (c : CoreName) (n : Fin 16) (e : OutEp) (r : Rec) : Bool :=
  (s.th c .a).relaxed.any fun x => !x.behind.contains (n.val, e.conn, r.seq) &&
    match x.place s c with
    | some (.here a) => s.landsOut c e a x.size
    | _ => false

/-- Delivering the first staged record of an output (R333): a switched-out target refuses it (R342), and a group that is
being saved delivers nothing (R406). The sender's relaxed stores are performed before its record lands (R289). DEDUCED, entry 18. -/
def State.deliver (s : State) (c : CoreName) (n : Fin 16) (from_ : EpState) : State :=
  let e := (s.core c).outEp n
  if e.st ≠ from_ ∨ (s.vacating c).any (fun v => v.saving) = true then s
  else match e.staging, s.targetOf c e.decl.peer with
    | [], .core _ => s.updOut c n fun e => { e with st := .opened }
    | _ :: _, .held => s.updOut c n fun e => { e with st := .pending }
    | r :: rs, .core t =>
      let i := (s.core t).inEp e.decl.peerch
      let s' := s.ackAll c
      if i.st ≠ .opened ∨ i.conn ≠ e.conn then s
      else if s'.storeBefore c n e r then s'
      else (s'.updOut c n fun e => { e with st := .opened, staging := rs }).landRecord t e.decl.peerch r
    | _, _ => s

/-- RECORD_DELIVERY: an OPEN output delivers its first staged record (R333). -/
def execRecordDelivery (c : CoreName) (ch : Fin 16) (s : State) : Host.Outcome State Fault Refusal :=
  event (fun s => s.deliver c ch .opened) s

/-- DELIVERY_RESUME: a PENDING output whose target is restored goes on with the first record not stored (R343). -/
def execDeliveryResume (c : CoreName) (ch : Fin 16) (s : State) : Host.Outcome State Fault Refusal :=
  event (fun s => s.deliver c ch .pending) s

/-- CREDIT_RETURN: the oldest return on its way to an output reaches its credit view (R328). -/
def execCreditReturn (c : CoreName) (ch : Fin 16) (s : State) : Host.Outcome State Fault Refusal :=
  event (fun s =>
    let mine := fun m : RMsg => m.ch = ch && s.goesTo m = .core c && match m.what with | .credit _ _ => true | _ => false
    match s.router.find? mine with
    | none => s
    | some m => ({ s with router := s.router.erase m }).apply c m) s

/-! ## SEND and SENDM (R330 to R335, R338) -/

/-- A misuse of a channel instruction. -/
def chanMisuse {α : Type} (n : Nat) : M α := trap Cause.queueProtocol (BitVec.ofNat 64 n)

/-- Waiting for credit or a connection, at most 2,048 cycles from the instruction's issue (R338). -/
def creditWait {α : Type} (n : Fin 16) (e : OutEp) (w : Nat) : M α := do
  let late ← ask fun s => match (s.th s.cur s.thr).since with
    | some t => decide (t + 2048 ≤ s.cycle)
    | none => false
  if late then
    trap Cause.channelOverflow (BitVec.ofNat 64 (n.val + (if e.st = .connecting then 256 else 0) + e.mfree % 2 ^ 16 * 2 ^ 16 +
      e.sfree % 2 ^ 16 * 2 ^ 32 + w % 2 ^ 16 * 2 ^ 48))
  wait .channel

/-- Changing an endpoint of the issuing core. -/
def updMyOut (n : Fin 16) (f : OutEp → OutEp) : M Unit := act fun s => s.updOut s.cur n f
def updMyIn (n : Fin 16) (f : InEp → InEp) : M Unit := act fun s => s.updIn s.cur n f

/-- Fields of a SEND control word (R330). -/
def scLen (w : Word) : Nat := bits w.toNat 0 13
def scTr (w : Word) : Bool := w.getLsbD 13
def scEs (w : Word) : Nat := 2 ^ bits w.toNat 14 2
def scNr (w : Word) : Nat := bits w.toNat 16 8
def scOff (w : Word) : Nat := bits w.toNat 24 20

/-- Check 1 of SEND (R330, R332). -/
def sendWordOk (e : OutEp) (w : Word) : Bool :=
  1 ≤ scLen w && scLen w ≤ 512 && bits w.toNat 44 20 = 0 &&
  (if scTr w then scNr w != 0 && scLen w % (scEs w * scNr w) = 0 else bits w.toNat 14 2 = 0 && scNr w = 0) &&
  (e.st = .closed || e.decl.mode != 0 || (!scTr w && scOff w = 0))

/-- The writes of a put, relative to the landing region (R335): the bytes in order, or element (i, j) at ES·(j·NR + i); in
place, the pairs off the diagonal. -/
def putWrites (w : Word) (inPlace : Bool) (bytes : List Byte) : List (Nat × Nat × Nat) :=
  if scTr w then
    let es := scEs w
    let nr := scNr w
    let nc := scLen w / (es * nr)
    let elem := fun i j => leBytes ((bytes.drop (es * (i * nc + j))).take es)
    let at_ := fun i j => (scOff w + es * (j * nr + i), es, elem i j)
    if inPlace then
      (List.range nr).flatMap fun i => (List.range nc).flatMap fun j => if i < j then [at_ i j, at_ j i] else []
    else (List.range nr).flatMap fun i => (List.range nc).map fun j => at_ i j
  else [(scOff w, scLen w, leBytes bytes)]

/-- Check 5 of SEND: the landing region's bound, and the overlap rule of R335; whether the put transposes in place. -/
def putCheck (e : OutEp) (w : Word) (src flat : Nat) : M Bool := do
  if e.decl.mode ≠ 2 then return false
  if 64 * e.lsize < scOff w + scLen w then chanMisuse 12
  match ← ask fun s => (s.placeOf s.cur e.decl.peer, s) with
  | (some t, s) =>
    let dst := s.ownFlat t (e.land + scOff w)
    if scTr w && meets flat (scLen w) dst (scLen w) then
      if flat = dst ∧ scNr w * scNr w * scEs w = scLen w then return true
      trap Cause.overlap (BitVec.ofNat 64 src)
    return false
  | _ => return false

/-- What SEND and SENDM do from check 3 on: state and MODE, then connection and credit. -/
def sendReady (n : Fin 16) (msg : Bool) (w : Nat) : M OutEp := do
  let e := (← myCore).outEp n
  if e.st = .closed ∨ (e.decl.mode = 1) ≠ (msg = true) then chanMisuse 13
  if !(← modBit 2) then coverStores
  if e.st = .connecting ∨ e.place w = none then creditWait n e w
  return e

/-- The record enters staging, when there is room (R332). -/
def stageRecord (n : Fin 16) (e : OutEp) (r : Rec) : M Unit := do
  if 66 < e.staged + r.words.length + r.putWords then wait .channel
  updMyOut n fun e => e.stage r

/-- SEND and SENDM accept RELAXED and BRX (R329). -/
def sendHints : Hints := ⟨false, 4⟩

/-- SEND (R330, R332, R335). -/
def execSend (c a b : Reg) (s : State) : Host.Outcome State Fault Refusal :=
  issue aAll sendHints .user (seq do
    let n : Fin 16 := Fin.ofNat 16 c.val
    let w ← rdG b
    let src := (← rdG a).toNat
    if !sendWordOk ((← myCore).outEp n) w then chanMisuse 12
    let len := scLen w
    let flat ← ownExtent src len
    let put := ((← myCore).outEp n).decl.mode = 2
    let e ← sendReady n false (if put then 2 else 1 + (len + 7) / 8)
    let inPlace ← putCheck e w src flat
    orderRelaxed (.here flat) len
    granuleTrap src flat (← ask fun s => s.checkRead flat len)
    let bytes ← ask fun s => s.readBytes flat len
    let payload := if put then [w] else wordsOf ((len + 7) / 8) bytes
    stageRecord n e ⟨headerWord (if put then 8 else len) false e.seq :: payload, e.seq, false, false,
      if put then putWrites w inPlace bytes else [], if put then (len + 7) / 8 else 0⟩) s

/-- SENDM (R332): a one-word message has b = 0. -/
def execSendm (c a b : Reg) (s : State) : Host.Outcome State Fault Refusal :=
  issue aAll sendHints .user (seq do
    let n : Fin 16 := Fin.ofNat 16 c.val
    let one := b.val = 0
    let w0 ← rdG a
    let w1 ← rdG b
    let payload := if one then [w0] else [w0, w1]
    let e ← sendReady n true (if one then 2 else 3)
    stageRecord n e ⟨headerWord (if one then 8 else 16) false e.seq :: payload, e.seq, false, false, [], 0⟩) s

/-! ## RECV and RECVM (R336, R337) -/

/-- The records of an input in the order they are taken: the ring's, then the spill region's (R328). -/
def InEp.recs (e : InEp) : List (Bool × InRec) := e.ring.map (fun r => (false, r)) ++ e.spill.map fun r => (true, r)

/-- The head of an input leaves it (R326, R337). -/
def InEp.drop1 (e : InEp) : InEp :=
  match e.ring with
  | _ :: l => { e with ring := l }
  | [] => { e with spill := e.spill.drop 1 }

/-- Freeing the head: its words go back as credit (R328), or end an input whose peer has closed (R325). -/
def State.freeHead (s : State) (c : CoreName) (n : Fin 16) : State :=
  let e := (s.core c).inEp n
  match e.recs with
  | [] => s
  | (sp, r) :: rest =>
    let t := s.updIn c n InEp.drop1
    if e.closing then
      if rest = [] then (t.updIn c n fun e => { e with st := .connecting, closing := false }).connect c false n else t
    else { t with router := t.router ++ [t.toPeer c e.decl e.conn (.credit (if sp then 0 else r.w) (if sp then r.w else 0))] }

/-- Freeing the first records of an input. DEDUCED, entry 18. -/
def State.freeHeads (s : State) (c : CoreName) (n : Fin 16) : Nat → State
  | 0 => s
  | k + 1 => (s.freeHead c n).freeHeads c n k

/-- The markers of past rounds at the head of an input (R337). -/
def InEp.passed (e : InEp) (round : BitVec 32) : Nat := (e.recs.takeWhile fun r => r.2.mark && r.2.seq < round).length

/-- The word of a region at which its oldest record starts. -/
def regionHead (tail size : Nat) (l : List InRec) : Nat := (tail + size - (l.map InRec.w).sum % size) % size

/-- The near addresses of the words of the first k records of an input, in order: those taken from the ring, then from the
spill region. -/
def InEp.wordAddrs (e : InEp) (k : Nat) : List Nat × List Nat :=
  let part := fun (base size tail : Nat) (l : List InRec) (m : Nat) =>
    let h := regionHead tail size l
    (List.range ((l.take m).map InRec.w).sum).map fun i => base + 8 * ((h + i) % size)
  (part e.decl.ring (8 * e.decl.rsize) e.rtail e.ring k,
    part e.decl.spill (8 * e.decl.ssize) e.stail e.spill (k - e.ring.length))

/-- Addresses of a region's words in rising order: those past the wrap come first. -/
def rising (l : List Nat) : List Nat :=
  match l with
  | [] => []
  | a :: _ => l.filter (fun b => b < a) ++ l.filter fun b => a ≤ b

/-- Reading the words of the first k records of an input, every granule examined; the lowest that fails is reported
(R274, R337). -/
def takeWords (e : InEp) (k : Nat) : M (List Word) := do
  let s ← get
  let p := e.wordAddrs k
  let near := if e.decl.spill < e.decl.ring then rising p.2 ++ rising p.1 else rising p.1 ++ rising p.2
  let r := s.examine 0 (near.map (s.ownFlat s.cur))
  set r.1
  match r.2 with
  | some f => trapKeep f.1 (BitVec.ofNat 64 ((near.find? fun a => s.ownFlat s.cur a = f.2).getD 0))
  | none => return (p.1 ++ p.2).map fun a => s.word (s.ownFlat s.cur a)

/-- The payloads of consecutive records. -/
def payloads : List InRec → List Word → List (List Word)
  | [], _ => []
  | r :: rs, ws => ((ws.take r.w).drop 1) :: payloads rs (ws.drop r.w)

/-- A receive (R336, R337). -/
def receive (msg : Bool) (d a b : Reg) (s : State) : Host.Outcome State Fault Refusal :=
  issue aAll noHint .user (seq do
    let w ← rdG b
    let dst := (← rdG a).toNat
    let max := bits w.toNat 8 10
    let n : Fin 16 := Fin.ofNat 16 (bits w.toNat 0 4)
    if bits w.toNat 5 3 ≠ 0 ∨ bits w.toNat 18 46 ≠ 0 ∨ max = 0 ∨ (if msg then 64 else 512) < max then chanMisuse 12
    let flat ← ownExtent dst (if msg then 16 * max else max)
    let k ← myCore
    let e := k.inEp n
    if e.st = .closed ∨ (e.decl.mode = 1) ≠ (msg = true) then chanMisuse 13
    act fun s => s.freeHeads s.cur n (e.passed k.round)
    let e := (← myCore).inEp n
    match e.recs with
    | [] => if w.getLsbD 4 then wrG d 0 else waitKeep .channel
    | (_, h) :: _ =>
      let taken := (e.recs.takeWhile fun r => !r.2.mark).take (if msg then max else 1)
      if !msg && !h.mark && max < h.len then chanMisuse 14
      let words ← takeWords e taken.length
      let ps := payloads (taken.map fun r => r.2) words
      let bytes := if msg then ps.flatMap fun p => bytesOf 8 (p.getD 0 0).toNat ++ bytesOf 8 (p.getD 1 0).toNat
        else (ps.flatten.flatMap fun x => bytesOf 8 x.toNat).take (if taken = [] then 0 else h.len)
      orderRelaxed (.here flat) bytes.length
      granuleTrap dst flat (← ask fun s => s.checkWrite flat bytes.length)
      act fun s => ((s.clearMarks flat bytes.length).writeBytes flat bytes).freeHeads s.cur n taken.length
      let stop := match e.recs.drop taken.length with
        | (_, r) :: _ => r.mark && decide (k.round ≤ r.seq)
        | [] => false
      wrG d (BitVec.ofNat 64 ((if msg then taken.length else bytes.length) +
        (if taken = [] then 0 else h.seq.toNat * 2 ^ 16) + (if taken.any (fun r => r.1) then 2 ^ 62 else 0) +
        if stop then 2 ^ 63 else 0))) s

/-- RECV (R336, R337). DEDUCED, entry 18. -/
def execRecv (d a b : Reg) (s : State) : Host.Outcome State Fault Refusal := receive false d a b s

/-- RECVM (R336, R337). -/
def execRecvm (d a b : Reg) (s : State) : Host.Outcome State Fault Refusal := receive true d a b s

/-! ## MARK and RADV (R339, R340) -/

/-- Placing a marker on every output that is not CLOSED, all or none (R339). -/
def markAll : M Unit := do
  coverStores
  let k ← myCore
  let outs := allCh.filter fun n => (k.outEp n).st != .closed
  match outs.find? fun n => (k.outEp n).st = .connecting || (k.outEp n).place 1 = none with
  | some n => creditWait n (k.outEp n) 1
  | none => pure ()
  if outs.any fun n => decide (66 < (k.outEp n).staged + 1) then wait .channel
  act fun s => outs.foldl (fun s n => s.updOut s.cur n fun e =>
    e.stage ⟨[headerWord 0 true k.round], k.round, true, false, [], 0⟩) s
  updMy fun k => { k with marked := true }

/-- MARK (R339). -/
def execMark (s : State) : Host.Outcome State Fault Refusal :=
  issue aAll noHint .user (seq do
    if (← myCore).marked then chanMisuse 15
    markAll) s

/-- RADV (R340); in a group that is being vacated its retirement is the edge stop (R405). -/
def execRadv (d : Reg) (s : State) : Host.Outcome State Fault Refusal :=
  issue aAll noHint .user (seq do
    if !(← myCore).marked then markAll
    let k ← myCore
    let ins := allCh.filter fun n => (k.inEp n).st != .closed
    let edge := fun r : Bool × InRec => r.2.mark && r.2.seq = k.round
    if !(ins.all fun n => (k.inEp n).recs.any edge) then waitKeep .round
    let heads := ins.filter fun n => ((k.inEp n).recs.head?).any edge
    let late := ((ins.filter fun n => !heads.contains n).map fun n => 2 ^ n.val).sum
    act fun s => heads.foldl (fun s n => s.freeHead s.cur n) s
    let stop ← ask fun s => (s.vacating s.cur).isSome
    updMy fun k => { k with round := k.round + 1, marked := false, edgeStop := stop }
    wrG d (BitVec.ofNat 64 (late + (k.round + 1).toNat * 2 ^ 32))) s

/-! ## CHSTAT (R345, R346) -/

/-- An endpoint select (R345). -/
def endpointOf (a : Reg) : M (Fin 16 × Bool) := do
  let w ← rdG a
  if 32 ≤ w.toNat then chanMisuse 12
  return (Fin.ofNat 16 w.toNat, w.getLsbD 4)

/-- The code of an endpoint's state (R345). -/
def EpState.code : EpState → Nat
  | .closed => 0
  | .connecting => 1
  | .opened => 2
  | .pending => 3

/-- CHSTAT STATE (R345). -/
def execChstatState (d a : Reg) (s : State) : Host.Outcome State Fault Refusal :=
  issue aAll noHint .user (seq do
    let p ← endpointOf a
    let k ← myCore
    let three := fun x y z : Nat => x % 2 ^ 16 * 2 ^ 16 + y % 2 ^ 16 * 2 ^ 32 + z % 2 ^ 16 * 2 ^ 48
    if p.2 then
      let e := k.outEp p.1
      wrG d (BitVec.ofNat 64 (e.st.code + 4 + e.decl.mode * 8 + three e.mfree e.sfree e.staged))
    else
      let e := k.inEp p.1
      wrG d (BitVec.ofNat 64 (e.st.code + e.decl.mode * 8 + three (e.ring.map InRec.w).sum (e.spill.map InRec.w).sum
        (e.recs.filter fun r => r.2.mark).length))) s

/-- CHSTAT DECL (R322, R331). -/
def execChstatDecl (d a : Reg) (s : State) : Host.Outcome State Fault Refusal :=
  issue aAll noHint .user (seq do
    let w ← readOwn (← rdG a).toNat 32 32
    let dec : Decl := ⟨w.getD 0 0, w.getD 1 0, w.getD 2 0, w.getD 3 0⟩
    let s ← get
    if !s.declOk s.cur dec then chanMisuse 12
    let k ← myCore
    if (if dec.out then (k.outEp dec.ch).st else (k.inEp dec.ch).st) ≠ .closed then chanMisuse 13
    if (← resolvesFor dec.peer) = .held then wait .none
    if dec.out then updMyOut dec.ch fun _ => { OutEp.init with st := .connecting, decl := dec }
    else updMyIn dec.ch fun _ => { InEp.init with st := .connecting, decl := dec }
    act fun s => s.connect s.cur dec.out dec.ch
    wrG d 0) s

/-- CHSTAT CLOSE (R346). -/
def execChstatClose (d a : Reg) (s : State) : Host.Outcome State Fault Refusal :=
  issue aAll noHint .user (seq do
    let p ← endpointOf a
    if p.2 then
      if ((← myCore).outEp p.1).staging ≠ [] then wait .channel
      act fun s => s.closeOut s.cur p.1
    else act fun s => s.closeIn s.cur p.1
    wrG d 0) s

/-- CHSTAT KWORD (R345): read and cleared in one step. -/
def execChstatKword (d : Reg) (s : State) : Host.Outcome State Fault Refusal :=
  issue aAll noHint .user (seq do
    let w := (← myCore).kick
    updMy fun k => { k with kick := 0 }
    wrG d w) s

/-- CHSTAT ROUND (R345). -/
def execChstatRound (d : Reg) (s : State) : Host.Outcome State Fault Refusal :=
  issue aAll noHint .user (seq do
    let k ← myCore
    wrG d (BitVec.ofNat 64 (k.round.toNat + if k.marked then 2 ^ 32 else 0))) s

/-- CHSTAT SEQ (R345). -/
def execChstatSeq (d a : Reg) (s : State) : Host.Outcome State Fault Refusal :=
  issue aAll noHint .user (seq do
    let p ← endpointOf a
    let k ← myCore
    wrG d ((if p.2 then (k.outEp p.1).seq else (k.inEp p.1).eseq).setWidth 64)) s

/-! ## KICK (R347) -/

/-- KICK RING (R347): a kick toward a switched-out core is held by the router (R343). DESIGN CHOICE, entry 17. -/
def execKickRing (a b : Reg) (s : State) : Host.Outcome State Fault Refusal :=
  issue aAll noHint .user (seq do
    let w ← rdG a
    let v ← rdG b
    let _ ← resolvesFor w
    release
    act fun s => s.sendMsg ⟨(s.core s.cur).ctxid.toNat, s.cur.kind, w, 0, 0, .kick v s.cur.cluster?⟩) s

/-- The mailbox store of MBOX, DONE and DONEREC: as FENCE of device scope, then an 8-byte store (R347). -/
def mailbox (a b : Reg) : M Unit := do
  let ea := (← rdG a).toNat
  let v ← rdG b
  fenceAll
  storeValue ea 8 v.toNat

/-- KICK MBOX (R347). -/
def execKickMbox (a b : Reg) (s : State) : Host.Outcome State Fault Refusal := issue aAll noHint .user (seq (mailbox a b)) s

/-- The record of DONEREC, posted to the cluster of the RING that started the thread, else to the one that services the
core (R347). -/
def State.postDone (s : State) (c : CoreName) (v : Word) : State :=
  let q := s.ownSeq c
  let k := q.1.core c
  q.1.post (k.kickCl.getD c.servedBy) 5 (v.toNat % 2 ^ 36) k.ctxid.toNat 0 v q.2

/-- DONE and DONEREC: on a transfer or memory core the mailbox is released and its threads end (R347). -/
def engineDone (post : Bool) (a b : Reg) (s : State) : Host.Outcome State Fault Refusal :=
  issue aAll noHint .user (do
    let c ← ask State.cur
    if c.kind ≠ .transfer ∧ c.kind ≠ .memory then chanMisuse 13
    let v ← rdG b
    mailbox a b
    if post then act fun s => s.postDone c v
    act fun s => s.endCore c
    return .done) s

/-- KICK DONE (R347). -/
def execKickDone (a b : Reg) (s : State) : Host.Outcome State Fault Refusal := engineDone false a b s

/-- KICK DONEREC (R347). -/
def execKickDonerec (a b : Reg) (s : State) : Host.Outcome State Fault Refusal := engineDone true a b s

end Sys2Proof.Machine
end

