-- ==== Sys2Proof/Machine/Barrier.lean ====
section
/-! DEFINITION. Major 0x19: barrier registers, and the steps of the barrier network (chapter The barrier). -/

namespace Sys2Proof.Machine

/-! ## Shapes and cells (R349, R350) -/

def shRow (w : BitVec 16) : Nat := bits w.toNat 0 4
def shCol (w : BitVec 16) : Nat := bits w.toNat 4 4
def shH (w : BitVec 16) : Nat := bits w.toNat 8 4 + 1
def shW (w : BitVec 16) : Nat := bits w.toNat 12 4 + 1

/-- The row and the column of a core in the logical grid of its group (R349). -/
def Core.cell (k : Core) (x : Fin 8) : Nat × Nat := (2 * k.orow + x.val / 4, 4 * k.ocol + x.val % 4)

/-- The core at a cell of a group that stands somewhere (R359). -/
def Group.coreAt (g : Group) (r c : Nat) : CoreName :=
  .compute ⟨g.cl, Fin.ofNat 24 (g.po + 4 * (r / 2) + c / 4)⟩ (Fin.ofNat 8 (4 * (r % 2) + c % 4))

/-- The group a compute core runs for, while it stands. -/
def State.groupOf (s : State) (c : CoreName) : Option Group :=
  match c with
  | .compute o _ => (s.standing o).bind fun g => if g.st = .running then some g else none
  | _ => none

/-- A shape that is valid for a core (R350). -/
def State.shapeOk (s : State) (c : CoreName) (w : Word) : Bool :=
  match s.groupOf c with
  | none => false
  | some g =>
    let sh : BitVec 16 := w.setWidth 16
    let p := (s.core c).cell (CoreIdx c)
    w.getLsbD 16 && bits w.toNat 17 47 = 0 && decide (shRow sh + shH sh ≤ 2 * g.h ∧ shCol sh + shW sh ≤ 4 * g.w ∧
      shRow sh ≤ p.1 ∧ p.1 < shRow sh + shH sh ∧ shCol sh ≤ p.2 ∧ p.2 < shCol sh + shW sh)

def Core.bar (k : Core) (n : Fin 4) : Bar := Tbl.get Bar.init k.bars n.val
def State.updBar (s : State) (c : CoreName) (n : Fin 4) (f : Bar → Bar) : State :=
  s.updCore c fun k => { k with bars := Tbl.upd Bar.init k.bars n.val f }

/-! ## The instructions (R351 to R354) -/

/-- Either thread of a compute core. -/
def axCompute : Who := ⟨true, true, [.compute]⟩

/-- BARRIER_SHAPE (R352). -/
def barTrap {α : Type} (reason : Nat) (n : Fin 4) (shape : Nat) : M α :=
  trap Cause.barrierShape (BitVec.ofNat 64 (reason + 8 * n.val + shape % 2 ^ 16 * 2 ^ 16))

/-- Changing a barrier register of the issuing core. -/
def updMyBar (n : Fin 4) (f : Bar → Bar) : M Unit := act fun s => s.updBar s.cur n f

/-- BCFG (R350, R352). Arrivals that wait at the core for its configuration stay (R355). DEDUCED, entry 19. -/
def execBcfg (a : Reg) (k : Fin 4) (s : State) : Host.Outcome State Fault Refusal :=
  issue axCompute noHint .user (seq do
    checkR [fIn a]
    let w ← rdR a
    let s ← get
    let b := (s.core s.cur).bar k
    let off := w.getLsbD 16 = false && bits w.toNat 17 47 = 0
    if !(off || s.shapeOk s.cur w) then barTrap 1 k w.toNat
    if b.st = .arrived ∨ b.st = .done then barTrap 2 k b.shape.toNat
    if off then updMyBar k fun b => { b with st := .unconf, sw := false }
    else updMyBar k fun b => { b with
      st := .idle, shape := w.setWidth 16, gen := 0, owner := s.thr, sw := false, forwarded := false, fired := false }) s

/-- The states in which BARR, BWAIT, BSYNC and BTEST trap whatever they do (R352). DEDUCED, entry 19. -/
def useBar (k : Fin 4) : M Bar := do
  let s ← get
  let b := (s.core s.cur).bar k
  if b.st = .unconf then barTrap 4 k b.shape.toNat
  if b.owner ≠ s.thr then barTrap 5 k b.shape.toNat
  if b.st = .broken then barTrap 3 k b.shape.toNat
  return b

/-- Every element pushed to a write slot is performed (R161, R365). -/
def Core.slotsDrained (k : Core) : Bool := [0, 1, 2, 3].all fun n => (k.slot n).store.isEmpty

/-- Whether the matrix unit of an octet holds no command of a core (R211). -/
def State.mxIdle (s : State) (c : CoreName) : Bool :=
  match c with
  | .compute o x => (s.octet o).cmds.all fun m => m.core != x
  | _ => true

/-- The release side of an arrival (R353); an X-thread's is an SFLUSH of every element that it has pushed. -/
def releaseSide : M Unit := do
  if (← ask State.thr) = .a then release
  else
    [0, 1, 2, 3].forM fun n : Fin 4 => do
      let q := (← myCore).slot n.val
      if q.state ≠ .off ∧ q.cur.own.write = true then flushWrites n { q with covered := q.pushed }
    if !(← ask fun s => s.mxIdle s.cur) then wait .matrix

/-- BARR (R352, R353). -/
def execBarr (k : Fin 4) (s : State) : Host.Outcome State Fault Refusal :=
  issue axCompute noHint .user (seq do
    let b ← useBar k
    if b.st = .arrived then barTrap 2 k b.shape.toNat
    releaseSide
    updMyBar k fun b => { b with st := .arrived, sw := false, forwarded := false }) s

/-- BWAIT (R352, R354). -/
def execBwait (k : Fin 4) (s : State) : Host.Outcome State Fault Refusal :=
  issue axCompute noHint .user (seq do
    let b ← useBar k
    if b.st = .idle then barTrap 2 k b.shape.toNat
    if b.st = .arrived then wait .barrier
    updMyBar k fun b => { b with st := .idle, sw := false }) s

/-- BSYNC (R352, R356): the arrival is made once, and SW keeps a second one away when it issues again; one that waits for an arrival
of BARR's takes that release. -/
def execBsync (k : Fin 4) (s : State) : Host.Outcome State Fault Refusal :=
  issue axCompute noHint .user (seq do
    let b ← useBar k
    if b.st = .arrived then waitAs .barrier .asked
    if b.st = .done ∧ (b.sw = true ∨ (← myThread).pend = .asked) then updMyBar k fun b => { b with st := .idle, sw := false }
    else
      releaseSide
      updMyBar k fun b => { b with st := .arrived, sw := true, forwarded := false }
      waitKeep .barrier) s

/-- BTEST (R352). -/
def execBtest (d : Reg) (k : Fin 4) (s : State) : Host.Outcome State Fault Refusal :=
  issue axCompute noHint .user (seq do
    checkR [fOut d]
    let b ← useBar k
    let took := b.st = .done
    if took then updMyBar k fun b => { b with st := .idle }
    wrR d (BitVec.ofNat 64 ((if took then 1 else 0) + b.gen.toNat * 2 ^ 16))) s

/-! ## The sweep and the release (R355) -/

/-- The core to which a cell forwards its combined arrival: the one to its left, on the first column the one above; none
from the corner. -/
def Group.nextHop (g : Group) (sh : BitVec 16) (r c : Nat) : Option (CoreName × Bool) :=
  if shCol sh < c then some (g.coreAt r (c - 1), true)
  else if shRow sh < r then some (g.coreAt (r - 1) c, false)
  else none

/-- Whether a cell's own arrival and those that come to it through it have all reached it. -/
def Bar.complete (b : Bar) (r c : Nat) : Bool :=
  b.st = .arrived && !b.forwarded &&
    (c + 1 = shCol b.shape + shW b.shape || b.inbox.contains ⟨b.shape, b.gen, true⟩) &&
    (c != shCol b.shape || r + 1 = shRow b.shape + shH b.shape || b.inbox.contains ⟨b.shape, b.gen, false⟩)

/-- The arrivals a cell has combined are used up. -/
def Bar.combined (b : Bar) : Bar :=
  { b with forwarded := true, inbox := b.inbox.filter fun m => !(m.shape = b.shape && m.gen = b.gen) }

/-- BARRIER_ARRIVAL_COMBINE (R355): the combined arrival passes to the next core. -/
def execBarrierArrivalCombine (c : CoreName) (k : Fin 4) (s : State) : Host.Outcome State Fault Refusal :=
  event (fun s =>
    match s.groupOf c with
    | none => s
    | some g =>
      let p := (s.core c).cell (CoreIdx c)
      let b := (s.core c).bar k
      match g.nextHop b.shape p.1 p.2 with
      | none => s
      | some n =>
        if b.complete p.1 p.2 then
          (s.updBar c k Bar.combined).updBar n.1 k fun q => { q with inbox := q.inbox ++ [⟨b.shape, b.gen, n.2⟩] }
        else s) s

/-- The participants of a shape. -/
def Group.participants (g : Group) (sh : BitVec 16) : List CoreName :=
  (List.range (shH sh)).flatMap fun i => (List.range (shW sh)).map fun j => g.coreAt (shRow sh + i) (shCol sh + j)

/-- Sending a release, or a broken one, to every participant of a shape. -/
def State.sendRelease (s : State) (g : Group) (k : Fin 4) (sh : BitVec 16) (broken : Bool) : State :=
  (g.participants sh).foldl (fun s c => s.updBar c k fun b => { b with releases := b.releases ++ [broken] }) s

/-- BARRIER_CORNER_FIRE (R355). -/
def execBarrierCornerFire (c : CoreName) (k : Fin 4) (s : State) : Host.Outcome State Fault Refusal :=
  event (fun s =>
    match s.groupOf c with
    | none => s
    | some g =>
      let p := (s.core c).cell (CoreIdx c)
      let b := (s.core c).bar k
      if b.complete p.1 p.2 ∧ g.nextHop b.shape p.1 p.2 = none ∧ b.fired = false then
        (s.updBar c k fun b => { b.combined with fired := true }).sendRelease g k b.shape false
      else s) s

/-- The first release at a core takes effect: ARRIVED becomes DONE (R352). -/
def State.receive (s : State) (c : CoreName) (k : Fin 4) : State :=
  match ((s.core c).bar k).releases with
  | false :: rest => s.updBar c k fun b =>
    if b.st = .arrived then { b with releases := rest, st := .done, gen := b.gen + 1, fired := false, forwarded := false }
    else { b with releases := rest }
  | _ => s

/-- What a release does at a core and, in a checked pair, at its follower with it: the two registers keep in step (R416). -/
def State.withPair (s : State) (c : CoreName) (f : State → CoreName → State) : State :=
  if (s.core c).pairFollows then s
  else match s.pairOf c with
    | none => f s c
    | some w => f (f s c) w

/-- BARRIER_RELEASE_RECEIPT (R352). -/
def execBarrierReleaseReceipt (c : CoreName) (k : Fin 4) (s : State) : Host.Outcome State Fault Refusal :=
  event (fun s => s.withPair c fun s c => s.receive c k) s

/-- An arrival that breaks the generation at the core it has reached (R355): its shape or GEN differs, it waits for no
configuration, and it is not the next generation's behind a release to come. -/
def Bar.breaks (b : Bar) (m : BarMsg) : Bool :=
  b.st != .unconf && !(m.shape = b.shape && m.gen = b.gen) &&
    !(m.shape = b.shape && m.gen = b.gen + 1 && b.st = .arrived)

/-- A broken notice of a generation reaches the corner of a shape: unless the corner has fired for it, every participant
gets a broken release, and the corner fires no more for it. DEDUCED, entry 19. -/
def State.notice (s : State) (g : Group) (k : Fin 4) (sh : BitVec 16) (gen : BitVec 12) : State :=
  let corner := g.coreAt (shRow sh) (shCol sh)
  let q := (s.core corner).bar k
  let ahead := (q.gen - gen).toNat
  let mine := q.st ≠ .unconf ∧ q.shape = sh
  if mine ∧ ((ahead = 0 ∧ q.fired = true) ∨ (0 < ahead ∧ ahead < 2048)) then s
  else (if mine ∧ ahead = 0 then s.updBar corner k fun b => { b with fired := true } else s).sendRelease g k sh true

/-- BARRIER_BROKEN_NOTICE (R355): the core sends notices to the corners of both shapes. -/
def execBarrierBrokenNotice (c : CoreName) (k : Fin 4) (s : State) : Host.Outcome State Fault Refusal :=
  event (fun s =>
    match s.groupOf c with
    | none => s
    | some g =>
      let b := (s.core c).bar k
      match b.inbox.find? b.breaks with
      | none => s
      | some m =>
        let t := (s.updBar c k fun b => { b with inbox := b.inbox.erase m }).notice g k b.shape b.gen
        if m.shape = b.shape ∧ m.gen = b.gen then t else t.notice g k m.shape m.gen) s

/-- The first release at a core, a broken one, takes effect: a participant in ARRIVED or IDLE goes BROKEN, and the arrival it has
forwarded counts no more (R352, R355). -/
def State.receiveBroken (s : State) (c : CoreName) (k : Fin 4) : State :=
  let b := (s.core c).bar k
  match b.releases with
  | true :: rest =>
    let t := s.updBar c k fun b => { b with releases := rest }
    if b.st = .arrived ∨ b.st = .idle then
      let t := t.updBar c k fun b => { b with st := .broken, forwarded := false, fired := false }
      if b.forwarded then
        match s.groupOf c with
        | none => t
        | some g =>
          let p := (s.core c).cell (CoreIdx c)
          match g.nextHop b.shape p.1 p.2 with
          | none => t
          | some n => t.updBar n.1 k fun q => { q with inbox := q.inbox.erase ⟨b.shape, b.gen, n.2⟩ }
      else t
    else t
  | _ => s

/-- BARRIER_BROKEN_RELEASE (R352, R355). -/
def execBarrierBrokenRelease (c : CoreName) (k : Fin 4) (s : State) : Host.Outcome State Fault Refusal :=
  event (fun s => s.withPair c fun s c => s.receiveBroken c k) s

end Sys2Proof.Machine
end

