-- ==== Sys2Proof/Machine/Queue.lean ====
section
/-! DEFINITION. Major 0x1A: range tasks and work lists; EVPOP and EVPUSH; the steps of the range units and of the event
queues (chapter The queue). -/

namespace Sys2Proof.Machine

/-- WORK_PROTOCOL (R382). -/
def workTrap {α : Type} (reason : Nat) (operand : Word) : M α :=
  trap Cause.workProtocol (BitVec.ofNat 64 (reason + operand.toNat % 2 ^ 32 * 2 ^ 32))

/-! ## Range states (R379, R380) -/

/-- The group a core issues for. -/
def Core.group (k : Core) : GroupKey := k.gkey.getD ⟨k.ctxid.toNat, k.kernelid.toNat % 2 ^ 36, k.groupid.toNat⟩

/-- A range state when it is created (R379). -/
def RangeState.init (ctx kid : Nat) : RangeState := ⟨ctx, kid, false, [], []⟩

/-- The state of a kernel in a range unit. -/
def RangeUnit.stateOf (u : RangeUnit) (ctx kid : Nat) : Option RangeState := u.states.find? fun r => r.ctx = ctx && r.kid = kid

/-- Changing the state of a kernel; it is created by its first use (R379). -/
def RangeUnit.upd (u : RangeUnit) (ctx kid : Nat) (f : RangeState → RangeState) : RangeUnit :=
  match u.stateOf ctx kid with
  | some _ => { u with states := u.states.map fun r => if r.ctx = ctx ∧ r.kid = kid then f r else r }
  | none => { u with states := u.states ++ [f (RangeState.init ctx kid)] }

/-- The live range of a group: empty where none is held. -/
def RangeState.live (r : RangeState) (gid : Nat) : Nat × Nat := Tbl.get (0, 0) r.ranges gid

/-- Giving a group a live range. -/
def RangeState.setLive (r : RangeState) (gid : Nat) (x : Nat × Nat) : RangeState :=
  { r with ranges := Tbl.set (0, 0) r.ranges gid (if x.1 < x.2 then x else (0, 0)) }

/-- RQPUSH (R383). -/
def execRqpush (c : Bool) (a b : Reg) (s : State) : Host.Outcome State Fault Refusal :=
  issue aCompute noHint .user (seq do
    let lo ← rdG a
    let hi ← rdG b
    if hi.toNat < lo.toNat ∨ 0xFFFFFFFF < hi.toNat then workTrap 1 hi
    let s ← get
    let g := (s.core s.cur).group
    let d := s.cur.die
    match (s.die d).stateOf g.ctx g.kid with
    | some r => if r.closed then workTrap 2 lo
    | none => pure ()
    release
    if lo ≠ hi ∧ (64 ≤ (s.die d).tasks.length ∨ (s.die d).heldReturns ≠ []) then wait .work
    act fun s => s.updDie d fun u =>
      let u := u.upd g.ctx g.kid fun r => { r with closed := r.closed || c }
      if lo = hi then u else { u with tasks := u.tasks ++ [⟨g.ctx, g.kid, lo.toNat, hi.toNat⟩] }) s

/-- The NEXT requests of a core whose answers are not written (R384). -/
def State.nextsOf (s : State) (c : CoreName) : Nat :=
  let k := s.core c
  let u := s.die c.die
  let mine := fun r : RangeReq => r.g = k.group && r.orow = k.orow && r.ocol = k.ocol && r.x = (CoreIdx c).val && r.ans.isSome
  (u.arriving.filter mine).length + (u.states.flatMap RangeState.waiting |>.filter mine).length +
    (u.heldAnswers.filter fun r => mine r.1).length

/-- A request sets out for the range unit. -/
def askRange (ans : Option Nat) : M Unit :=
  act fun s =>
    let k := s.core s.cur
    s.updDie s.cur.die fun u =>
      { u with arriving := u.arriving ++ [⟨s.cycle, k.group, k.orow, k.ocol, (CoreIdx s.cur).val, ans⟩] }

/-- NEXT (R384). -/
def execNext (a : Reg) (s : State) : Host.Outcome State Fault Refusal :=
  issue aCompute noHint .user (seq do
    let ea := (← rdG a).toNat
    act fun s => { s with ea := BitVec.ofNat 64 ea }
    if ea < 2 ^ 20 ∨ 2 ^ 21 ≤ ea then trap Cause.localRange (BitVec.ofNat 64 ea)
    if ea % 8 ≠ 0 then trap Cause.misaligned (BitVec.ofNat 64 ea)
    if 8 ≤ (← ask fun s => s.nextsOf s.cur) then wait .work
    askRange (some (ea - 2 ^ 20))) s

/-- NEXTW (R385): the request is made once, and its answer waits for the instruction. -/
def execNextw (d : Reg) (s : State) : Host.Outcome State Fault Refusal :=
  issue aCompute noHint .user (seq do
    match (← myThread).pend with
    | .index i => wrG d (i.setWidth 64)
    | .asked => wait .work
    | _ =>
      askRange none
      updMyTh fun h => { h with pend := .asked }
      waitKeep .work) s

/-! ## Answers (R384 to R387) -/

/-- The core a request comes from, while its group stands, and whether the router lets an answer through. -/
def State.asker (s : State) (r : RangeReq) : Option (CoreName × Bool) :=
  match s.group? r.g with
  | none => none
  | some g =>
    if g.st = .running then
      some (.compute ⟨g.cl, Fin.ofNat 24 (g.po + 4 * r.orow + r.ocol)⟩ (Fin.ofNat 8 r.x),
        match g.vac with
        | none => true
        | some v => r.ans.isNone && !v.saving)
    else none

/-- The answer to a request: the answer word written in one piece, or NEXTW's index. What cannot reach its group yet is
held (R403). -/
def State.answer (s : State) (die : Nat) (r : RangeReq) (i : BitVec 32) : State :=
  match s.asker r with
  | some (c, true) =>
    match r.ans, c with
    | some off, .compute o _ => s.store (scratchBase o + off) 8 (i.toNat + 2 ^ 63)
    | none, _ => s.updTh c .a fun h => { h with pend := .index i }
    | _, _ => s
  | _ => s.updDie die fun u => { u with heldAnswers := u.heldAnswers ++ [(r, i)] }

/-- The requests of a group that its range can serve, with their indices (R386). -/
def serveList : Nat → Nat → List RangeReq → List (RangeReq × BitVec 32)
  | _, _, [] => []
  | lo, hi, r :: rs => if lo < hi then (r, BitVec.ofNat 32 lo) :: serveList (lo + 1) hi rs else []

/-- Serving the waiting requests of a group from its range (R386, R387). -/
def State.serveGroup (s : State) (die ctx kid gid : Nat) : State :=
  match (s.die die).stateOf ctx kid with
  | none => s
  | some r =>
    let x := r.live gid
    let mine := r.waiting.filter fun q => q.g.gid = gid
    let l := serveList x.1 x.2 mine
    let t := s.updDie die fun u => u.upd ctx kid fun r =>
      { (r.setLive gid (x.1 + l.length, x.2)) with
          waiting := (r.waiting.filter fun q => q.g.gid != gid) ++ mine.drop l.length }
    l.foldl (fun t p => t.answer die p.1 p.2) t

/-- Removing the request that arrives next: of those that issued first, the lowest GID (R386). -/
def nextArrival (l : List RangeReq) : Option RangeReq :=
  l.foldl (fun best r => match best with
    | none => some r
    | some b => if r.at_ < b.at_ ∨ (r.at_ = b.at_ ∧ r.g.gid < b.g.gid) then some r else some b) none

/-- RANGE_REQUEST_ARRIVAL (R386): served on arrival, or waiting for a step. -/
def execRangeRequestArrival (die : Fin 4) (s : State) : Host.Outcome State Fault Refusal :=
  event (fun s =>
    match nextArrival (s.die die.val).arriving with
    | none => s
    | some r =>
      let t := s.updDie die.val fun u => { u with arriving := u.arriving.erase r }
      let t := t.updDie die.val fun u => u.upd r.g.ctx r.g.kid fun q => { q with waiting := q.waiting ++ [r] }
      t.serveGroup die.val r.g.ctx r.g.kid r.g.gid) s

/-! ## Steps (R387, R388) -/

/-- The requesters of a state in ascending GID, each once. -/
def RangeState.requesters (r : RangeState) : List Nat :=
  ((r.waiting.foldl (fun (t : Tbl Nat) q => Tbl.insert q.g.gid 1 (Tbl.erase q.g.gid t)) []).map fun e => e.1)

/-- Giving queued tasks of a kernel to requesters: the state, the tasks left, and who still has none. -/
def giveTasks (r : RangeState) (tasks : List Task) : List Nat → RangeState × List Task × List Nat
  | [] => (r, tasks, [])
  | g :: gs =>
    match tasks.find? fun t => t.ctx = r.ctx && t.kid = r.kid with
    | none => (r, tasks, g :: gs)
    | some t => giveTasks (r.setLive g (t.lo, t.hi)) (tasks.erase t) gs

/-- The group with the largest live range, ties to the lowest GID. -/
def RangeState.victim (r : RangeState) : Option (Nat × Nat × Nat) :=
  r.ranges.foldl (fun best e => match best with
    | none => some (e.1, e.2.1, e.2.2)
    | some b => if b.2.2 - b.2.1 < e.2.2 - e.2.1 then some (e.1, e.2.1, e.2.2) else some b) none

/-- Dealing the parts of a split range, the larger ones first: part number i starts at `lo`. -/
def dealParts (r : RangeState) (lo size extra : Nat) : List Nat → RangeState
  | [] => r
  | g :: gs =>
    let n := size + if 0 < extra then 1 else 0
    dealParts (r.setLive g (lo, lo + n)) (lo + n) size (extra - 1) gs

/-- One state's part of a step: tasks to requesters, then at most one split; the new state, the tasks left, the groups
that were given a range, and those that go without. -/
def RangeState.step (r : RangeState) (tasks : List Task) : RangeState × List Task × List Nat × List Nat :=
  let q := r.requesters
  let p := giveTasks r tasks q
  let got := q.take (q.length - p.2.2.length)
  match p.2.2, p.1.victim with
  | [], _ => (p.1, p.2.1, got, [])
  | l, none => (p.1, p.2.1, got, l)
  | l, some (v, lo, hi) =>
    let n := hi - lo
    let m := min l.length (n - 1)
    if m = 0 then (p.1, p.2.1, got, l)
    else (dealParts p.1 lo (n / (m + 1)) (n % (m + 1)) (v :: l.take m), p.2.1, got ++ l.take m, l.drop m)

/-- The returns held enter the task queue, the oldest first, as long as an entry is free (R390). -/
def enterHeld : List Task → List Task → List Task × List Task
  | tasks, [] => (tasks, [])
  | tasks, t :: ts => if tasks.length < 64 then enterHeld (tasks ++ [t]) ts else (tasks, t :: ts)

/-- The held returns enter as soon as entries have freed (R390). -/
def RangeUnit.admitHeld (u : RangeUnit) : RangeUnit :=
  let p := enterHeld u.tasks u.heldReturns
  { u with tasks := p.1, heldReturns := p.2 }

/-- Answering every waiting request of the groups that go without, once nothing more can come (R387, R388): a return that is
still held is work to come. -/
def State.endOfWork (s : State) (die ctx kid : Nat) (l : List Nat) : State :=
  match (s.die die).stateOf ctx kid with
  | none => s
  | some r =>
    if l ≠ [] ∧ r.closed = true ∧ !(((s.die die).tasks ++ (s.die die).heldReturns).any fun t => t.ctx = ctx && t.kid = kid) ∧
        !(r.ranges.any fun e => decide (e.2.1 + 2 ≤ e.2.2)) then
      let t := s.updDie die fun u => u.upd ctx kid fun r => { r with waiting := r.waiting.filter fun q => !l.contains q.g.gid }
      (r.waiting.filter fun q => l.contains q.g.gid).foldl (fun t q => t.answer die q 0xFFFFFFFF) t
    else s

/-- The step of a range unit for one kernel. -/
def State.rangeStepOf (s : State) (die ctx kid : Nat) : State :=
  match (s.die die).stateOf ctx kid with
  | none => s
  | some r =>
    let p := r.step (s.die die).tasks
    let t := s.updDie die fun u => ({ (u.upd ctx kid fun _ => p.1) with tasks := p.2.1 } : RangeUnit).admitHeld
    (p.2.2.1.foldl (fun t g => t.serveGroup die ctx kid g) t).endOfWork die ctx kid p.2.2.2

/-- RANGE_STEP (R387): every state with requesters. -/
def execRangeStep (die : Fin 4) (s : State) : Host.Outcome State Fault Refusal :=
  event (fun s => (s.die die.val).states.foldl (fun s r => if r.waiting = [] then s else s.rangeStepOf die.val r.ctx r.kid) s) s

/-- RANGE_RETURN_HELD: the held returns enter the task queue while an entry is free (R390). -/
def execRangeReturnHeld (die : Fin 4) (s : State) : Host.Outcome State Fault Refusal :=
  event (fun s => s.updDie die.val RangeUnit.admitHeld) s

/-- A group leaves a die: its requests go, and a range that is not empty is returned as a task, or discarded (R390). -/
def State.leaveRange (s : State) (die : Nat) (g : GroupKey) (keep : Bool) : State :=
  s.updDie die fun u =>
    match u.stateOf g.ctx g.kid with
    | none => { u with arriving := u.arriving.filter fun r => r.g != g }
    | some r =>
      let x := r.live g.gid
      let t : Task := ⟨g.ctx, g.kid, x.1, x.2⟩
      let u := u.upd g.ctx g.kid fun r => { (r.setLive g.gid (0, 0)) with waiting := r.waiting.filter fun q => q.g != g }
      let u := { u with arriving := u.arriving.filter fun q => q.g != g, heldAnswers := u.heldAnswers.filter fun q => q.1.g != g }
      if !keep || x.2 ≤ x.1 then u
      else if u.tasks.length < 64 ∧ u.heldReturns = [] then { u with tasks := u.tasks ++ [t] }
      else { u with heldReturns := u.heldReturns ++ [t] }

/-- The answers held toward a group that stands again are delivered (R385, R403). -/
def State.releaseAnswers (s : State) (die : Nat) : State :=
  let l := (s.die die).heldAnswers
  l.foldl (fun t p => t.answer die p.1 p.2) (s.updDie die fun u => { u with heldAnswers := [] })

/-- The state of a finished kernel is deleted at every die (R379, R390). -/
def State.deleteRange (s : State) (ctx kid : Nat) : State :=
  [0, 1, 2, 3].foldl (fun s d => s.updDie d fun u => RangeUnit.admitHeld
    { u with
        states := u.states.filter fun r => !(r.ctx = ctx && r.kid = kid),
        tasks := u.tasks.filter fun t => !(t.ctx = ctx && t.kid = kid),
        heldReturns := u.heldReturns.filter fun t => !(t.ctx = ctx && t.kid = kid),
        arriving := u.arriving.filter fun r => !(r.g.ctx = ctx && r.g.kid = kid) }) s

/-! ## Work lists (R391 to R396) -/

/-- The octet whose scratchpad a flat address lies in. -/
def scratchOctet (a : Nat) : OctName := OctName.ofIndex ((a - 2 ^ 61) / 2 ^ 20)

/-- Fields of a list record at a flat address (R391). -/
def State.lRing (s : State) (p : Nat) : Nat := bits (s.word p).toNat 0 20
def State.lCap (s : State) (p : Nat) : Nat := 2 ^ bits (s.word p).toNat 20 4
def State.lHead (s : State) (p : Nat) : BitVec 32 := BitVec.ofNat 32 (s.readLE (p + 8) 4)
def State.lTail (s : State) (p : Nat) : BitVec 32 := BitVec.ofNat 32 (s.readLE (p + 12) 4)
def State.lActive (s : State) (p : Nat) : BitVec 16 := BitVec.ofNat 16 (s.readLE (p + 16) 2)
def State.lArmed (s : State) (p : Nat) : Bool := (s.word (p + 16)).getLsbD 16
def State.lTerm (s : State) (p : Nat) : Bool := (s.word (p + 16)).getLsbD 17
def State.lTag (s : State) (p : Nat) : Nat := bits (s.word (p + 24)).toNat 0 36

/-- A record that reason 3 refuses (R382). -/
def State.listBad (s : State) (p : Nat) : Bool :=
  let w := (s.word p).toNat
  bits w 24 40 != 0 || bits (s.word (p + 16)).toNat 18 46 != 0 || bits (s.word (p + 24)).toNat 36 28 != 0 ||
    bits w 20 4 < 4 || 14 < bits w 20 4 || decide (2 ^ 20 < bits w 0 20 + 8 * 2 ^ bits w 20 4)

/-- The flat address of item i (R391). -/
def State.lItem (s : State) (p : Nat) (i : BitVec 32) : Nat :=
  scratchBase (scratchOctet p) + s.lRing p + 8 * (i.toNat % s.lCap p)

/-- Setting flags of word 2 of a record. -/
def State.setFlags (s : State) (p : Nat) (m : Nat) : State :=
  s.putWord (p + 16) (s.word (p + 16) ||| BitVec.ofNat 64 m)

/-- The first waiting TAKEs of a list are given the items that are there, in order; a terminated list gives the token
(R395). One whose item cannot be read issues again and meets the failure itself. -/
def State.serveTakes (s : State) (p : Nat) : Nat → State
  | 0 => s
  | n + 1 =>
    match Tbl.get [] s.takeq p with
    | [] => s
    | (c, ea) :: rest =>
      let give := fun (s : State) (w : Pend) (hold : Option Nat) =>
        ({ s with takeq := Tbl.set [] s.takeq p rest }.updCore c fun k =>
          { k with hold := hold, a := { k.a with pend := w } })
      if s.lHead p ≠ s.lTail p then
        let q := s.checkRead (s.lItem p (s.lHead p)) 8
        match q.2 with
        | some _ => (give s .none none).serveTakes p n
        | none =>
          let w := s.word (s.lItem p (s.lHead p))
          let s := (s.writeLE (p + 8) 4 (s.lHead p + 1).toNat).writeLE (p + 16) 2 (s.lActive p + 1).toNat
          (give s (.item w) (some ea)).serveTakes p n
      else if s.lTerm p then (give s (.item (BitVec.allOnes 64)) none).serveTakes p n
      else s

/-- What the home does after every change of a record: waiting TAKEs are served, and the detector looks (R395, R396). -/
def State.listChanged (s : State) (p : Nat) : State :=
  let s := s.serveTakes p (Tbl.get [] s.takeq p).length
  if s.lArmed p && !s.lTerm p && s.lHead p = s.lTail p && s.lActive p = 0 then
    let s := s.setFlags p (2 ^ 17)
    let o := scratchOctet p
    (s.serveTakes p (Tbl.get [] s.takeq p).length).postBy s.cur .a o.cl 9 (s.lTag p) (s.octet o).owner 0 ((s.lTail p).setWidth 64) none
  else s

/-- Where a list record stands (R392): in a scratchpad, checked by R268 with n = 32, its granules read; the instruction is an atomic that
is not relaxed (R278). -/
def listHome (a : Reg) : M (Nat × Nat) := do
  let ea := (← rdG a).toNat
  fenceAll
  checkMap ea 32
  if !((2 ^ 20 ≤ ea && ea < 2 ^ 21) || (2 ^ 31 ≤ ea && ea < 2 ^ 32 && winTarget ea = 8)) then
    trap Cause.localRange (BitVec.ofNat 64 ea)
  match ← findHome ea true true with
  | .remote _ _ _ => trap Cause.localRange (BitVec.ofNat 64 ea)
  | .here p =>
    orderRelaxed (.here p) 32
    granuleTrap ea p (← ask fun s => s.checkRead p 32)
    if ← ask fun s => s.listBad p then workTrap 3 (BitVec.ofNat 64 ea)
    return (ea, p)

/-- A core's hold ends: ACTIVE goes down at the list's home, and the detector looks (R393). A list whose octet is switched
out is waited for; one that is no more has nothing to count. -/
def endHold : M Unit := do
  match (← myCore).hold with
  | none => pure ()
  | some ea =>
    match ← ask fun s => (s.resolve s.cur ea true true).2 with
    | .at_ (.here p) =>
      updMy fun k => { k with hold := none }
      act fun s => (s.writeLE (p + 16) 2 (s.lActive p - 1).toNat).listChanged p
    | .held => waitAs .none (.held (BitVec.ofNat 64 ea))
    | _ => updMy fun k => { k with hold := none }

/-- APPEND (R394). -/
def execAppend (d a b : Reg) (s : State) : Host.Outcome State Fault Refusal :=
  issue aCompute noHint .user (seq do
    let item ← rdG b
    let h ← listHome a
    let p := h.2
    let s ← get
    if s.lTerm p ∨ item = BitVec.allOnes 64 then workTrap 4 item
    if (s.lTail p - s.lHead p).toNat = s.lCap p then wrG d 1
    else
      act fun s => ((s.store (s.lItem p (s.lTail p)) 8 item.toNat).writeLE (p + 12) 4 (s.lTail p + 1).toNat).listChanged p
      wrG d 0) s

/-- TAKE (R395): the hold ends first; then the first item, or the token, or a wait in the order in which TAKEs reached the
home. DEDUCED, entry 23. -/
def execTake (d a : Reg) (s : State) : Host.Outcome State Fault Refusal :=
  issue aCompute noHint .user (seq do
    match (← myThread).pend with
    | .item w => wrG d w
    | .asked => wait .work
    | _ =>
      let h ← listHome a
      endHold
      act fun s =>
        let s := s.updTh s.cur .a fun h => { h with pend := .asked }
        { s with takeq := Tbl.upd [] s.takeq h.2 fun q => q ++ [(s.cur, h.1)] }.listChanged h.2
      match (← myThread).pend with
      | .item w => wrG d w
      | .asked => waitKeep .work
      | _ =>
        let q ← ask fun s => s.checkRead (s.lItem h.2 (s.lHead h.2)) 8
        match q.2 with
        | some f => fun _ => trapKeep f.1 (BitVec.ofNat 64 (h.1 / 2 ^ 20 * 2 ^ 20 + f.2 % 2 ^ 20)) q.1
        | none => waitKeep .work) s

/-- TAKE with op 1 ends the hold (R395). -/
def execTakeEndHold (d a : Reg) (s : State) : Host.Outcome State Fault Refusal :=
  issue aCompute noHint .user (seq do
    let _ ← listHome a
    endHold
    wrG d 0) s

/-- TDARM (R396). DEDUCED, entry 23. -/
def execTdarm (a b : Reg) (s : State) : Host.Outcome State Fault Refusal :=
  issue ⟨true, false, [.compute, .control]⟩ noHint .user (seq do
    let tag ← rdG b
    let ea ← rdG a
    let h ← listHome a
    let p := h.2
    let s ← get
    if s.lTerm p then workTrap 4 ea
    if s.lArmed p then workTrap 5 ea
    if 2 ^ 36 ≤ tag.toNat then workTrap 3 ea
    act fun s => ((s.putWord (p + 24) tag).setFlags p (2 ^ 16)).listChanged p) s

/-! ## Event queues (R397 to R400) -/

/-- The A-thread of a control core. -/
def aControl : Who := ⟨true, false, [.control]⟩

/-- The A-thread of a control core or of the management core. -/
def aSuper : Who := ⟨true, false, [.control, .management]⟩

/-- The cluster of a control core. -/
def myCl : M (Fin 16) := do
  match ← ask State.cur with
  | .control cl => return cl
  | _ => return 0

/-- EVPOP (R400). -/
def execEvpop (d a : Reg) (s : State) : Host.Outcome State Fault Refusal :=
  issue aControl noHint .user (seq do
    let dst ← ownLocal (← rdG a).toNat 32 32
    let cl ← myCl
    let q ← ask fun s => s.cluster cl
    if q.evCount = 0 then wrG d 0
    else
      let near := q.evBase.toNat * 64 + 32 * q.evHead
      let c ← ask State.cur
      orderRelaxed (.here (localBase c + near)) 32
      orderRelaxed (.here dst) 32
      granuleTrap near (localBase c + near) (← ask fun s => s.checkRead (localBase c + near) 32)
      act fun s => (s.storeWords dst (s.words (localBase c + near) 4)).updCluster cl fun q =>
        { q with evHead := (q.evHead + 1) % 2 ^ q.evSzl.toNat, evCount := q.evCount - 1 }
      wrG d 1) s

/-- EVPUSH (R399, R400): a release, as every post is. DEDUCED, entry 22. -/
def execEvpush (d a b : Reg) (s : State) : Host.Outcome State Fault Refusal :=
  issue aSuper noHint .user (seq do
    let ea ← rdG a
    let w ← readOwn ea.toNat 32 32
    let t ← rdG b
    let w0 := (w.getD 0 0).toNat
    let kind := bits w0 56 8
    if 16 ≤ t.toNat ∨ kind = 0 ∨ (10 < kind ∧ kind < 128) ∨ w.getD 1 0 ≠ 0 ∨ w.getD 3 0 ≠ 0 then workTrap 6 ea
    let cl : Fin 16 := Fin.ofNat 16 t.toNat
    release
    let s ← get
    let mgmt := s.cur = .management
    let r : CRec := ⟨kind, bits w0 0 36, bits w0 36 12, bits w0 48 8, w.getD 2 0, s.timeWord,
      if mgmt then some s.mgmtSeq else none, none⟩
    if (s.cluster cl).held = [] ∧ s.canStore cl r = true then
      act fun s => { (s.storeRecord cl r) with mgmtSeq := if mgmt then s.mgmtSeq + 1 else s.mgmtSeq }
      wrG d 0
    else wrG d 1) s

end Sys2Proof.Machine
end

