-- ==== Sys2Proof/Machine/Bind.lean ====
section
/-! DEFINITION. How kernels finish and groups bind off: completion records, successors, graphs, jobs, and cancellation
(chapters The group and The kernel). -/

namespace Sys2Proof.Machine

/-! ## Kernels and graph instances (R371, R374) -/

def State.kernel? (s : State) (ctx kid : Nat) : Option Kernel := (s.ctx ctx).kernels.find? fun k => k.kid = kid
def State.updKernel (s : State) (ctx kid : Nat) (f : Kernel → Kernel) : State :=
  s.updCtx ctx fun c => { c with kernels := c.kernels.map fun k => if k.kid = kid then f k else k }

/-- The number of groups of a kernel. -/
def Kernel.size (k : Kernel) : Nat := k.nrow * k.ncol

/-- The kernels of a context that are not FINISHED: JCOUNT (R374). -/
def State.jcount (s : State) (ctx : Nat) : Nat := ((s.ctx ctx).kernels.filter fun k => k.st != .finished).length

/-- Changing the open instance of a graph id. -/
def State.updGraph (s : State) (ctx id : Nat) (f : GraphInst → GraphInst) : State :=
  s.updCtx ctx fun c => { c with graphs := c.graphs.map fun g => if g.id = id ∧ g.done = false then f g else g }

/-- The open instance of a graph id. -/
def State.openGraph (s : State) (ctx id : Nat) : Option GraphInst :=
  (s.ctx ctx).graphs.find? fun g => g.id = id && !g.done

/-! ## The host's completion ring (R439, R440) -/

/-- Fields of a host queue block at a physical address (R439). -/
def State.hqWord (s : State) (b n : Nat) : Nat := (s.word ((homePA b).getD b + 8 * n)).toNat
def State.hqTail (s : State) (b : Nat) : BitVec 32 := BitVec.ofNat 32 (s.hqWord b 0)
def State.hqHead (s : State) (b : Nat) : BitVec 32 := BitVec.ofNat 32 (s.hqWord b 1)
def State.hqCmd (s : State) (b : Nat) : Nat := bits (s.hqWord b 2) 0 52
def State.hqSize (s : State) (b : Nat) : Nat := 2 ^ bits (s.hqWord b 2) 52 4
def State.hqCpl (s : State) (b : Nat) : Nat := bits (s.hqWord b 3) 0 52
def State.hqCtail (s : State) (b : Nat) : BitVec 32 := BitVec.ofNat 32 (s.hqWord b 4)
def State.hqChead (s : State) (b : Nat) : BitVec 32 := BitVec.ofNat 32 (s.hqWord b 4 / 2 ^ 32)

/-- Storing at a physical address that has a home. -/
def State.storePA (s : State) (pa n w : Nat) : State :=
  match homePA pa with
  | some a => s.store a n w
  | none => s

/-- Writing the completions of a context that its ring has room for, each before CTAIL (R440); none while its block cannot be read
(R29). -/
def State.flushHost (s : State) (ctx : Nat) : Nat → State
  | 0 => s
  | n + 1 =>
    match (s.ctx ctx).hostBlock, (s.ctx ctx).hostDone with
    | some b, (tag, w) :: rest =>
      if (s.hqCtail b - s.hqChead b).toNat = s.hqSize b ∨ (s.checkRead ((homePA b).getD b) 64).2.isSome then s
      else
        let e := s.hqCpl b + 16 * ((s.hqCtail b).toNat % s.hqSize b)
        let s := ((s.storePA e 8 tag.toNat).storePA (e + 8) 8 w.toNat).storePA (b + 32) 4 (s.hqCtail b + 1).toNat
        (s.updCtx ctx fun c => { c with hostDone := rest }).flushHost ctx n
    | _, _ => s

/-- A completion for the host. -/
def State.hostComplete (s : State) (ctx : Nat) (tag w : Word) : State :=
  let s := s.updCtx ctx fun c => { c with hostDone := c.hostDone ++ [(tag, w)] }
  s.flushHost ctx (s.ctx ctx).hostDone.length

/-! ## Entering FINISHED (R371, R374) -/

/-- A graph's counter goes down by a kernel that has finished; a closed instance with none left is done (R374). -/
def State.graphDown (s : State) (k : Kernel) (ctx : Nat) (cancelled : Bool) : State :=
  let s := s.updGraph ctx k.graph fun g => { g with gcount := g.gcount - 1, cancelled := g.cancelled || cancelled }
  match s.openGraph ctx k.graph with
  | none => s
  | some g =>
    if g.closed ∧ g.gcount = 0 then
      (s.updGraph ctx k.graph fun g => { g with done := true }).post k.cl 3 k.graph ctx (if g.cancelled then 1 else 0)
        (BitVec.ofNat 64 g.total) none
    else s

/-- JOB_DONE when no kernel of the context is left unfinished (R374). -/
def State.jobDown (s : State) (ctx : Nat) (job : Bool) : State :=
  if s.jcount ctx = 0 then
    (s.updCtx ctx fun c => { c with jobEnds := c.jobEnds ++ [if job then 1 else 0] }).post (s.ctx ctx).hostCl 4 0 ctx (if job then 1 else 0) 0 none
  else s

/-- What a finished kernel does to a successor in WAITING (R371): cancelled with it, READY with its last predecessor;
the kernels that thereby enter FINISHED join the list. -/
def State.successor (ctx kid status : Nat) (p : State × List (Nat × Nat)) (j : Kernel) : State × List (Nat × Nat) :=
  match p.1.kernel? ctx j.kid with
  | none => p
  | some j =>
    if j.st ≠ .waiting ∨ !j.preds.contains kid ∨ p.2.any (fun e => e.1 = j.kid) then p
    else if status = 1 then (p.1, p.2 ++ [(j.kid, 1)])
    else
      let s := p.1.updKernel ctx j.kid fun j => { j with pcount := j.pcount - 1 }
      if j.pcount ≠ 1 then (s, p.2)
      else
        let s := s.updKernel ctx j.kid fun j => { j with st := .ready, readyAt := s.cycle, eprio := j.prio }
        (s, if j.size = 0 then p.2 ++ [(j.kid, 2)] else p.2)

/-- One kernel enters FINISHED (R371, R374): its record and the host's completion, its successors, its graph, its job;
the list of those that follow it in the same step. -/
def State.finishOne (s : State) (ctx : Nat) (job : Bool) (k : Kernel) (status : Nat) (rest : List (Nat × Nat)) :
    State × List (Nat × Nat) :=
  let s := (s.updKernel ctx k.kid fun k => { k with st := .finished, status := status }).post k.cl 2 k.kid ctx status k.value none
  let s := match k.hostTag with
    | some t => s.hostComplete ctx t (BitVec.ofNat 64 (2 ^ 63 + status * 2 ^ 40 + k.kid))
    | none => s
  let p := (s.ctx ctx).kernels.foldl (State.successor ctx k.kid status) (s, rest)
  let s := if k.graph = 0 then p.1 else p.1.graphDown k ctx (status = 1)
  let s := s.jobDown ctx job
  ({ s.deleteRange ctx k.kid with
       groups := s.groups.filter fun g => !(g.key.ctx = ctx && g.key.kid = k.kid && g.ending.isNone) }, p.2)

/-- Kernels enter FINISHED in turn, each with the status beside it (R371, R376). -/
def State.finishAll (ctx : Nat) (job : Bool) : Nat → State → List (Nat × Nat) → State
  | 0, s, _ => s
  | _ + 1, s, [] => s
  | n + 1, s, e :: rest =>
    match s.kernel? ctx e.1 with
    | none => State.finishAll ctx job n s rest
    | some k =>
      if k.st = .finished then State.finishAll ctx job n s rest
      else
        let p := s.finishOne ctx job k e.2 rest
        State.finishAll ctx job n p.1 p.2

/-- A kernel enters FINISHED, and with it the successors that do so in the same step (R371). -/
def State.finishKernel (s : State) (ctx kid status : Nat) (job : Bool) : State :=
  State.finishAll ctx job ((s.ctx ctx).kernels.length + 1) s [(kid, status)]

/-! ## Bind-off (R366, R367) -/

/-- A kernel counts a group that has bound off (R371). -/
def State.countGroup (s : State) (g : Group) : State :=
  match s.kernel? g.key.ctx g.key.kid with
  | none => s
  | some k =>
    if k.st = .finished then s
    else
      let s := s.updKernel g.key.ctx g.key.kid fun k => { k with kcount := k.kcount - 1, value := k.value + g.value }
      if k.kcount = 1 then s.finishKernel g.key.ctx g.key.kid 0 false else s

/-- The bind-offs that waited for their records to be stored are complete (R399). -/
def State.settleBinds (s : State) : State :=
  s.groups.foldl (fun s g =>
    match g.ending with
    | none => s
    | some r =>
      if (s.cluster g.cl).held.contains r then s
      else (s.updGroup g.key fun g => { g with ending := none }).countGroup g) s

/-- Requests of units that are no more leave the stations' queues (R427). -/
def State.dropReqs (s : State) (p : WaitReq → Bool) : State :=
  { s with
    stations := s.stations.map fun x => (x.1, { x.2 with
      walks := x.2.walks.filter fun w => !p w.req, failed := x.2.failed.filter fun r => !p r.1,
      faults := x.2.faults.map fun f => { f with waiting := f.waiting.filter fun r => !p r },
      full := x.2.full.map fun f => { f with waiting := f.waiting.filter fun r => !p r } }) }

/-- The requests made for a group on its octets: by their microcode and by their transfer cores. -/
def reqOf (g : Group) : WaitReq → Bool
  | .xfer (.transfer o) _ => g.holds o
  | .fill o _ => g.holds o
  | .drain o _ => g.holds o
  | .cast cl => g.st = .casting && g.cl = cl
  | .save k => g.key = k
  | _ => false

/-! ## Islands (R21, R464) -/

/-- The eight cores of an octet. -/
def octetCores (o : OctName) : List CoreName := (List.range 8).map fun x => .compute o (Fin.ofNat 8 x)

/-- What an island serves: an octet's half (0 compute, 1 matrix), a memory core, a port, or a unit that serves context 0: a stack's PHY,
a cluster's mesh, a die's crossbar. The model numbers the islands in the order in which R21 lists them. -/
inductive IslandOf where
  | octet (o : OctName) (half : Nat)
  | memory (s : Fin 12) (c : Fin 16)
  | port (p : PortName)
  | shared
  deriving DecidableEq, Repr

/-- The unit an island holds, by its number in the order of R21. DESIGN CHOICE, entry 30. -/
def islandOf (n : Nat) : IslandOf :=
  if n < 768 then .octet (OctName.ofIndex (n / 2)) (n % 2)
  else if n < 960 then .memory (Fin.ofNat 12 ((n - 768) / 16)) (Fin.ofNat 16 (n - 768))
  else if n < 988 then .shared
  else if n < 1006 then .port ⟨.scaleUp, Fin.ofNat 18 (n - 988)⟩
  else if n < 1010 then .port ⟨.frame, Fin.ofNat 18 (n - 1006)⟩
  else if n < 1014 then .shared
  else if n < 1022 then .port ⟨.cxl, Fin.ofNat 18 (n - 1014)⟩
  else .port ⟨.umval, Fin.ofNat 18 (n - 1022)⟩

/-- The number of a port's island. -/
def portIsland (p : PortName) : Nat :=
  p.idx.val + (match p.kind with | .scaleUp => 988 | .frame => 1006 | .cxl => 1014 | .umval => 1022)

def State.islandRuns (s : State) (n : Nat) : Bool := Tbl.get false s.life.islands n
def State.setIsland (s : State) (n : Nat) (b : Bool) : State := { s with life := { s.life with islands := Tbl.set false s.life.islands n b } }

/-- The cores of an island. -/
def islandCores (n : Nat) : List CoreName :=
  match islandOf n with
  | .octet o 0 => octetCores o ++ [.transfer o]
  | .memory st c => [.memory st c]
  | _ => []

/-- A core's state is lost with its island. -/
def State.loseCore (s : State) (c : CoreName) : State :=
  let l := localBase c
  (((s.wipe l 65536).leaveQueues c).dropReqs fun r => match r with | .xfer d _ => d = c | _ => false).setCore c Core.init

/-- An island stops, and the state of its units is lost (R464). DESIGN CHOICE, entry 30. -/
def State.islandOff (s : State) (n : Nat) : State :=
  let s := ((islandCores n).foldl State.loseCore s).setIsland n false
  match islandOf n with
  | .octet o 0 => (s.wipe (scratchBase o) (2 ^ 20)).updOctet o fun q => { q with dmask := 0 }
  | .octet o _ => (s.wipe (accBase o 0) (2 ^ 18)).updOctet o fun q => { q with handles := [], dir := [], lines := [], fills := [], weights := Octet.init.weights }
  | .port p => s.updPort p fun _ => Port.init
  | _ => s

/-- Both islands of an octet stop. -/
def State.octetOff (s : State) (o : OctName) : State := (s.islandOff (2 * o.index)).islandOff (2 * o.index + 1)

/-- An octet is freed (R366, R403): its handles are FREE, its cores' barrier registers UNCONF, and its microcode the one that the device
runs (R461); its cluster may place groups again (R373). A retired octet's islands stop then (R464, R465). -/
def State.freeOctet (s : State) (o : OctName) : State :=
  let s := (s.updCluster o.cl fun q => { q with blocked := none }).updOctet o fun q =>
    { q with owner := 0, lastOwner := q.owner, handles := [], fills := [], freeSince := s.cycle, oldMicro := none }
  let s := (List.range 8).foldl (fun s x => s.updCore (.compute o (Fin.ofNat 8 x)) fun k => { k with bars := [], gkey := none }) s
  if (s.octet o).retired then s.octetOff o else s

/-- An octet's transfer core, which belongs to the group while the group holds the octet, ends with it, its transfers dropped (R26,
R357). DESIGN CHOICE, entry 22. -/
def State.endTransfer (s : State) (o : OctName) : State :=
  (s.endCore (.transfer o)).updCore (.transfer o) fun k => { k with xfers := [], slots := [] }

/-- A context takes an octet: its transfer core, which may have run under none, ends and belongs to the group from then on (R357); what
another context left in the scratchpad, in the accumulators and in the directory is gone (R26, R27, R244). DEDUCED, entry 20. -/
def State.takeOctet (s : State) (ctx : Nat) (o : OctName) : State :=
  let s := s.endTransfer o
  let s := if (s.octet o).lastOwner = ctx then s
    else ((s.wipe (scratchBase o) (2 ^ 20)).wipe (accBase o 0) (2 ^ 18)).updOctet o fun q => { q with dir := [] }
  s.updOctet o fun q => { q with owner := ctx, lastOwner := ctx, lines := [], fills := [], pairLive := q.pairConf }

/-- Every core of an octet ends, its accepted matrix commands dropped and its stream queues discarded (R96, R149, R364). -/
def State.endOctet (s : State) (o : OctName) : State :=
  ((List.range 8).foldl (fun s x =>
    let c := CoreName.compute o (Fin.ofNat 8 x)
    ((s.endCore c).mxAbort o (Fin.ofNat 8 x)).updCore c fun k => { k with slots := [] }) s).endTransfer o

/-- The endpoints of the cores that a skein keeps are closed toward their peers (R325, R366). -/
def State.closeKept (s : State) (k : Core) : State :=
  let send := fun (s : State) (d : Decl) (n : Nat) (w : RWhat) => s.sendMsg ⟨k.ctxid.toNat, .compute, d.peer, d.peerch, n, w⟩
  allCh.foldl (fun s n =>
    let o := k.outEp n
    let i := k.inEp n
    let s := if o.st = .opened ∨ o.st = .pending then send s o.decl o.conn .outClosed else s
    if i.st = .opened ∧ i.closing = false then send s i.decl i.conn .inClosed else s) s

/-- The octets of a group that stands somewhere are freed and its slots emptied (R366); a saved group's skein is
abandoned, its endpoints closed (R325, R413). -/
def State.leave (s : State) (g : Group) : State :=
  let on := g.st = .casting ∨ g.st = .running
  let s := if on then g.octets.foldl State.endOctet s
    else ((s.skeins.filter fun k => k.g = g.key).flatMap Skein.cores).foldl State.closeKept s
  let s := if on then g.octets.foldl State.freeOctet s else s
  let s := s.dropReqs (reqOf g)
  let s := s.updCtx g.key.ctx fun c => { c with
    slots := (List.range (g.h * g.w)).foldl (fun t i => Tbl.set .empty t (24 * g.cl.val + g.s0 + i) .empty) c.slots }
  let s := s.updCluster g.cl fun q => { q with blocked := none }
  { s with skeins := s.skeins.filter fun k => k.g != g.key }

/-- What runs under PLACE for a group that is no more ends with DONE, its requests dropped, and the octets a restore had taken are
freed (R413, R427). -/
def State.endPlace (s : State) (g : Group) : State :=
  let done := fun s : State => (s.dropReqs fun r => r = .cast g.cl).updCluster g.cl fun q => { q with placeStatus := 2, placeReason := 0, placeOp := none }
  match (s.cluster g.cl).placeOp with
  | some (.cast k) => if k = g.key then done s else s
  | some (.migrate k) => if k = g.key then done s else s
  | some (.restore k po) =>
    if k = g.key then done (({ g with po := po } : Group).octets.foldl (fun s o => (s.endTransfer o).freeOctet o) s) else s
  | _ => s

/-- Bind-off of a group that stands or is saved (R366, R390): DONE with status 0, or CANCELLED with status 1; `count` says
that its kernel counts it. DEDUCED, entry 22. -/
def State.bindOff (s : State) (key : GroupKey) (cancel count : Bool) : State :=
  match s.group? key with
  | none => s
  | some g =>
    if g.st = .done ∨ g.st = .cancelled then s
    else
      let s := ((s.leave g).endPlace g).leaveRange (g.cl.val / 4) key (!cancel)
      let s := { s with router := s.router.filter fun m => s.goesTo m != Target.fails }
      let st := if cancel then 1 else 0
      let r : CRec := ⟨1, key.gid, key.ctx, st, g.value, s.timeWord, none, none⟩
      let s := s.post g.cl 1 key.gid key.ctx st g.value none
      let held := (s.cluster g.cl).held.contains r
      let s := s.updGroup key fun g => { g with
        st := if cancel then .cancelled else .done, vac := none, ending := if held && count then some r else none }
      if count && !held then s.countGroup g else s

/-! ## CANCEL of a kernel (R364, R371, R377) -/

/-- Every group of a kernel goes to CANCELLED: those never placed post to the queue of the kernel's records (R366). -/
def State.cancelGroups (s : State) (ctx : Nat) (k : Kernel) : State :=
  (List.range k.size).foldl (fun s gid =>
    match s.group? ⟨ctx, k.kid, gid⟩ with
    | some _ => s.bindOff ⟨ctx, k.kid, gid⟩ true false
    | none => s.post k.cl 1 gid ctx 1 0 none) s

/-- The groups of a kernel that CANCEL covers: the values of those already DONE are counted (R377), the others are cancelled. -/
def State.cancelParts (s : State) (ctx kid : Nat) : State :=
  match s.kernel? ctx kid with
  | none => s
  | some k =>
    if k.st = .finished then s
    else
      let held := (s.groups.filter fun g => g.key.ctx = ctx && g.key.kid = kid && g.ending.isSome && g.st = .done).map Group.value
      let s := s.updKernel ctx kid fun k => { k with value := held.foldl (fun a b => a + b) k.value }
      let s := { s with groups := s.groups.map fun (g : Group) =>
        if g.key.ctx = ctx ∧ g.key.kid = kid then { g with ending := none } else g }
      s.cancelGroups ctx k

/-- Kernels are cancelled together: the groups of each, those of one that WAITS for another of them too; then each is FINISHED, with
the successors that it held (R364, R371, R376). DEDUCED, entry 21. -/
def State.cancelKernels (s : State) (ctx : Nat) (l : List Nat) (job : Bool) : State :=
  l.foldl (fun s kid => match s.kernel? ctx kid with
    | none => s
    | some k => if k.st = .finished then s else s.finishKernel ctx kid 1 job) (l.foldl (fun s kid => s.cancelParts ctx kid) s)

/-- One kernel is cancelled. -/
def State.cancelKernel (s : State) (ctx kid : Nat) (job : Bool) : State := s.cancelKernels ctx [kid] job

/-- EVENT_HELD_STORE: held posts are stored, and bind-offs that waited for theirs are complete (R399). -/
def execEventHeldStore (cl : Fin 16) (s : State) : Host.Outcome State Fault Refusal :=
  event (fun s => ((s.takeComing cl).storeHeld cl).settleBinds) s

end Sys2Proof.Machine
end

