-- ==== Sys2Proof/Machine/Group.lean ====
section
/-! DEFINITION. Cast-on: the launch parameter block, the checks of a placement record, the loading of octets and the start
of a group; GINFO and GDONE (chapter The group; R369). -/

namespace Sys2Proof.Machine

/-! ## The launch parameter block (R369) -/

/-- A kernel as its block describes it, before a launch gives it an id. -/
def Kernel.ofBlock (block : Nat) (ws : List Word) : Kernel :=
  let w := fun n : Nat => (ws.getD n 0).toNat
  { kid := 0, block := block, ncol := bits (w 0) 0 24, nrow := bits (w 0) 24 24, h := bits (w 0) 48 3, w := bits (w 0) 51 2 + 1,
    prio := bits (w 0) 53 2, gend := (ws.getD 0 0).getLsbD 55, arg := ws.getD 1 0, image := bits (w 2) 0 60, ilen := bits (w 3) 0 17,
    xbnd := bits (w 3) 17 9, tvb := bits (w 3) 26 10, xoff := bits (w 3) 36 10, graph := bits (w 4) 0 24,
    clmask := bits (w 4) 24 16, preds := ((List.range 8).map fun i => bits (w (8 + i)) 0 36).filter fun p => p != 0,
    st := .waiting, pcount := 0, kcount := 0, value := 0, status := 0, readyAt := 0, eprio := 0, cl := 0, hostTag := none }

/-- A block that breaks a limit of R369, whatever the context's state. -/
def blockBad (ws : List Word) : Bool :=
  let w := fun n : Nat => (ws.getD n 0).toNat
  let k := Kernel.ofBlock 0 ws
  bits (w 0) 56 8 != 0 || bits (w 2) 60 4 != 0 || bits (w 3) 46 18 != 0 || bits (w 4) 40 24 != 0 ||
    [5, 6, 7].any (fun n => w n != 0) || ([8, 9, 10, 11, 12, 13, 14, 15].any fun n => bits (w n) 36 28 != 0) ||
    k.image % 64 != 0 || k.h = 0 || k.h = 7 || k.ilen % 4 != 0 || k.ilen < 4 || decide (0x10000 < k.ilen) ||
    k.xbnd = 0 || decide (256 < k.xbnd) || decide (k.ilen < k.xbnd * 256) || decide (k.xbnd * 256 ≤ 64 * k.xoff) ||
    decide (k.xbnd * 256 ≤ k.tvb * 64)

/-- Reading the block at an address of a context at once, through a memory core of a cluster's die (R372, R426, R479). -/
def State.readBlock (s : State) (cl : Fin 16) (ctx va : Nat) : State × Option (List Word) :=
  let r := s.readNow (clusterStation cl) ctx (pageParts 3 va 128)
  (r.1, r.2.map (wordsOf 16))

/-! ## Placement records (R359, R361) -/

/-- A placement record. -/
structure PlaceRec where
  w0 : Word
  w1 : Word
  w2 : Word
  w3 : Word
  deriving DecidableEq, Repr

def PlaceRec.gid (r : PlaceRec) : Nat := bits r.w0.toNat 0 24
def PlaceRec.ctx (r : PlaceRec) : Nat := bits r.w0.toNat 24 12
def PlaceRec.lpb (r : PlaceRec) : Nat := bits r.w1.toNat 0 60
def PlaceRec.po (r : PlaceRec) : Nat := bits r.w2.toNat 0 5
def PlaceRec.s0 (r : PlaceRec) : Nat := bits r.w2.toNat 8 5

/-- A reserved bit, a CTX of 0, or an octet or a slot that is none. -/
def PlaceRec.bad (r : PlaceRec) : Bool :=
  bits r.w0.toNat 36 28 != 0 || bits r.w1.toNat 60 4 != 0 || bits r.w2.toNat 5 3 != 0 || bits r.w2.toNat 13 51 != 0 ||
    r.w3 != 0 || r.ctx = 0 || decide (23 < r.po) || decide (23 < r.s0)

/-- The record at four words. -/
def PlaceRec.ofWords (ws : List Word) : PlaceRec := ⟨ws.getD 0 0, ws.getD 1 0, ws.getD 2 0, ws.getD 3 0⟩

/-- A rectangle lies within a cluster (R359). -/
def rectOk (po h w : Nat) : Bool := decide (po < 24 ∧ po / 4 + h ≤ 6 ∧ po % 4 + w ≤ 4)

/-- The physical octets of a rectangle, in the order of the slots. -/
def rectOctets (cl : Fin 16) (po h w : Nat) : List OctName :=
  (List.range (h * w)).map fun i => ⟨cl, Fin.ofNat 24 (po + 4 * (i / w) + i % w)⟩

/-- An octet that a group may be placed on: held by none, not being vacated, not reserved by a migration, not retired (R361,
R405, R411, R465). -/
def State.octetFree (s : State) (o : OctName) : Bool :=
  (s.octet o).owner = 0 && !(s.octet o).retired && (s.standing o).isNone &&
    !(s.groups.any fun g => g.cl = o.cl && match g.vac with
      | some v => v.target.any fun po => (rectOctets o.cl po g.h g.w).contains o
      | none => false)

/-- Slots S0 to S0 + n − 1 of a context in a cluster. -/
def State.slotsAre (s : State) (ctx : Nat) (cl : Fin 16) (s0 n : Nat) (p : SlotMap → Bool) : Bool :=
  (List.range n).all fun i => p (s.slotMap ctx cl.val (s0 + i))

/-- Whether a group of a kernel is PENDING (R364): the kernel READY or RUNNING, the group placed by none. -/
def State.groupPending (s : State) (ctx : Nat) (k : Kernel) (gid : Nat) : Bool :=
  (k.st = .ready || k.st = .running) && decide (gid < k.size) && (s.group? ⟨ctx, k.kid, gid⟩).isNone

/-- Changing slots S0 on of a context in a cluster. -/
def State.setSlots (s : State) (ctx : Nat) (cl : Fin 16) (s0 : Nat) (l : List SlotMap) : State :=
  s.updCtx ctx fun c => { c with
    slots := (l.zip (List.range l.length)).foldl (fun t e => Tbl.set .empty t (24 * cl.val + s0 + e.2) e.1) c.slots }

/-- The status and the reason in PLACE, and what runs under it (R360). -/
def State.setPlace (s : State) (cl : Fin 16) (status : BitVec 2) (reason : BitVec 4) (op : Option PlaceOp) : State :=
  s.updCluster cl fun q => { q with placeStatus := status, placeReason := reason, placeOp := op }

/-! ## Cast-on (R361, R362) -/

/-- An octet is given to a group's context: discard mask, handles and barrier registers cleared; the adapter directory too
where another context owned the octet last (R362). -/
def State.giveOctet (s : State) (ctx : Nat) (o : OctName) : State :=
  let s := (s.takeOctet ctx o).updOctet o fun q => { q with dmask := 0, handles := [] }
  (List.range 8).foldl (fun s x => s.updCore (.compute o (Fin.ofNat 8 x)) fun k => { k with bars := [] }) s

/-- A cast-on starts: the group takes its rectangle and its slots (R362 steps 1 and 2, R371). -/
def State.startCast (s : State) (cl : Fin 16) (ctx : Nat) (k b : Kernel) (gid po s0 : Nat) : State :=
  let key : GroupKey := ⟨ctx, k.kid, gid⟩
  let g : Group := ⟨key, .casting, gid / b.ncol, gid % b.ncol, b.h, b.w, cl, po, s0, 0, 0, s.castSeq, [], none, none⟩
  let s := { s with groups := s.groups ++ [g], castSeq := s.castSeq + 1 }
  let s := s.updKernel ctx k.kid fun k => { k with
    st := .running, image := b.image, ilen := b.ilen, xbnd := b.xbnd, tvb := b.tvb, xoff := b.xoff, arg := b.arg }
  let s := g.octets.foldl (fun s o => s.giveOctet ctx o) s
  (s.setSlots ctx cl s0 (g.octets.map fun o => .mapped o.oct)).setPlace cl 1 0 (some (.cast key))

/-- The kernel of least id among those launched from a block that have a group PENDING (R361). -/
def State.castKernel (s : State) (ctx block gid : Nat) : Option Kernel :=
  ((s.ctx ctx).kernels.filter fun k => k.block = block && s.groupPending ctx k gid).foldl (fun best k =>
    match best with
    | none => some k
    | some b => if k.kid < b.kid then some k else some b) none

/-- A cast-on from a placement record, with its checks in order (R361). DEDUCED, entry 20. -/
def State.castOn (s : State) (cl : Fin 16) (r : PlaceRec) : State :=
  if r.bad then s.setPlace cl 3 1 none
  else
    let q := s.readBlock cl r.ctx r.lpb
    match q.2 with
    | none => q.1.setPlace cl 3 1 none
    | some ws =>
      let s := q.1
      let b := Kernel.ofBlock r.lpb ws
      if blockBad ws || decide (b.size ≤ r.gid) || !rectOk r.po b.h b.w || decide (24 < r.s0 + b.h * b.w) then s.setPlace cl 3 1 none
      else if !((rectOctets cl r.po b.h b.w).all s.octetFree) then s.setPlace cl 3 2 none
      else if !(s.slotsAre r.ctx cl r.s0 (b.h * b.w) fun m => m = .empty) then s.setPlace cl 3 3 none
      else match s.castKernel r.ctx r.lpb r.gid with
        | none => s.setPlace cl 3 4 none
        | some k => s.startCast cl r.ctx k b r.gid r.po r.s0

/-- PLACE_CAST_ON: a write of w to PLACE (R360): nothing while an operation runs; REC is kept, and OP 1 starts a cast-on from
the record at REC in the control core's local memory. A record that cannot be read is invalid. DEDUCED, entry 20. -/
def State.writePlace (s : State) (cl : Fin 16) (w : Word) : State :=
  if (s.cluster cl).placeStatus = 1 then s
  else
    let s := s.updCluster cl fun q => { q with placeRec := BitVec.ofNat 11 (bits w.toNat 5 11) }
    if bits w.toNat 0 2 ≠ 1 then s
    else
      let a := localBase (.control cl) + 32 * bits w.toNat 5 11
      let q := s.checkRead a 32
      if q.2.isSome then q.1.setPlace cl 3 1 none
      else q.1.castOn cl (PlaceRec.ofWords (q.1.words a 4))

/-- PLACE_CAST_ON: a cluster whose control core has stopped places nothing (R414). -/
def execPlaceCastOn (cl : Fin 16) (w : Word) (s : State) : Host.Outcome State Fault Refusal :=
  event (fun s => if (s.cluster cl).stopped then s else s.writePlace cl w) s

/-! ## Loading and start (R362, R363) -/

/-- Both islands of an octet run (R464). -/
def State.octetRuns (s : State) (o : OctName) : Bool :=
  Tbl.get false s.life.islands (2 * o.index) && Tbl.get false s.life.islands (2 * o.index + 1)

/-- A core as the loader leaves it: the registers of the launch set, every other as after reset (R362), FCSR's flags among them
(R107). -/
def Core.loaded (old : Core) (now : Nat) (g : Group) (k : Kernel) (o : OctName) (x : Fin 8) : Core :=
  let r := o.oct.val / 4 - g.po / 4
  let c := o.oct.val % 4 - g.po % 4
  let trow := g.gr * 2 * g.h + 2 * r + x.val / 4
  let tcol := g.gc * 4 * g.w + 4 * c + x.val % 4
  let core := { Core.init with
      ctxid := BitVec.ofNat 12 g.key.ctx, xb := BitVec.ofNat 9 k.xbnd, groupid := BitVec.ofNat 24 g.key.gid,
      kernelid := BitVec.ofNat 60 (g.key.kid + k.graph * 2 ^ 36), griddim := BitVec.ofNat 48 (k.ncol + k.nrow * 2 ^ 24),
      gauge := BitVec.ofNat 62 (trow % 2 ^ 28 + tcol % 2 ^ 28 * 2 ^ 28 + g.h * 2 ^ 56 + (g.w - 1) * 2 ^ 60),
      gkey := some g.key, orow := r, ocol := c, islandStart := old.islandStart, flagLog := old.flagLog,
      a := { ThreadState.init with tvec := BitVec.ofNat 10 k.tvb }, x := { ThreadState.init with tvec := BitVec.ofNat 10 k.tvb } }
  core.noteFlags now (old.fcsr.setWidth 5)

/-- The image written to one core of an octet and from there to the others, every byte above it zero. -/
def State.loadImage (s : State) (g : Group) (k : Kernel) (o : OctName) : State × MicroEnd :=
  let base := localBase (.compute o 0)
  let s := (s.clearMarks base 65536).zeroBytes base 65536
  let q := s.copyIn (clusterStation g.cl) g.key.ctx (.cast g.cl) (pageParts (k.ilen / 1024 + 2) k.image k.ilen) base
  match q.2 with
  | .ok _ =>
    (((octetCores o).drop 1).foldl (fun s c => (s.clearMarks (localBase c) 65536).copyBytes base (localBase c) 65536) q.1, .ok [])
  | e => (q.1, e)

/-- The gang of a core that comes to an octet whose pairs are checked or not (R416). -/
def Core.coupled (k : Core) (pairs : BitVec 4) (x : Fin 8) : Core :=
  if pairs.getLsbD (x.val / 2) then
    { k with gang := ⟨if x.val % 2 = 0 then 1 else 0, decide (x.val % 2 = 1), true, true, Fin.ofNat 8 (x.val / 2 * 2), Fin.ofNat 8 (x.val % 2),
        false, [], false⟩ }
  else if k.gang.compare then { k with gang := Gang.init }
  else k

/-- The threads of a core start with the launch argument and the group id (R96, R363); the cores of a checked pair are
coupled (R416). -/
def Core.begin_ (c : Core) (k : Kernel) (gid : Nat) (pairs : BitVec 4) (x : Fin 8) : Core :=
  let c := { c with a := { c.a with st := .run, pc := 0 }, x := { c.x with st := .run, pc := 64 * k.xoff } }
  ((((c.setG 1 k.arg).setG 2 (BitVec.ofNat 64 gid)).setF 1 k.arg).setF 2 (BitVec.ofNat 64 gid)).coupled pairs x

/-- The last octet is loaded: every thread starts, and the router lets through what it held (R362, R364). -/
def State.startGroup (s : State) (g : Group) (k : Kernel) : State :=
  let s := g.octets.foldl (fun s o =>
    (List.range 8).foldl (fun s x => s.updCore (.compute o (Fin.ofNat 8 x)) fun c =>
      c.begin_ k g.key.gid (s.octet o).pairLive (Fin.ofNat 8 x)) s) s
  let s := s.updGroup g.key fun g => { g with st := .running, count := 8 * g.h * g.w }
  ((s.setPlace g.cl 2 0 none).releaseHeld).connectAll

/-- The group whose cast-on loads an octet, and its kernel. -/
def State.castingAt (s : State) (o : OctName) : Option (Group × Kernel) :=
  match s.standing o with
  | some g => if g.st = .casting then (s.kernel? g.key.ctx g.key.kid).map fun k => (g, k) else none
  | none => none

/-- Whether cast-ons go on: at the power limit a group of which no octet is loaded waits (R20). -/
def State.mayLoad (s : State) (g : Group) : Bool := !s.life.powerLimit || g.loaded != []

/-- CAST_ON_OCTET_LOADED: an octet is written, and with the last one the group starts (R362). -/
def State.octetLoaded (s : State) (o : OctName) : State :=
  match s.castingAt o with
  | none => s
  | some (g, k) =>
    if g.loaded.contains o.oct.val ∨ !s.octetRuns o ∨ !s.mayLoad g then s
    else
      let q := s.loadImage g k o
      match q.2 with
      | .fails _ => s
      | .wait => q.1
      | .ok _ =>
        let s := (List.range 8).foldl (fun s x => s.updCore (.compute o (Fin.ofNat 8 x)) fun c => c.loaded s.cycle g k o (Fin.ofNat 8 x)) q.1
        let s := s.updGroup g.key fun g => { g with loaded := g.loaded ++ [o.oct.val] }
        if g.loaded.length + 1 = g.h * g.w then s.startGroup g k else s

/-- CAST_ON_OCTET_LOADED. -/
def execCastOnOctetLoaded (o : OctName) (s : State) : Host.Outcome State Fault Refusal := event (fun s => s.octetLoaded o) s

/-- CAST_ON_IMAGE_FAILURE: a read of the image fails for an octet that is not loaded; the group is cancelled (R362). -/
def State.imageFailure (s : State) (cl : Fin 16) : State :=
  match s.groups.find? fun g => g.st = .casting && g.cl = cl with
  | none => s
  | some g =>
    match s.kernel? g.key.ctx g.key.kid with
    | none => s
    | some k =>
      let failing := (g.octets.filter fun o => !g.loaded.contains o.oct.val && s.octetRuns o && s.mayLoad g).findSome? fun o =>
        let q := s.loadImage g k o
        match q.2 with
        | .fails _ => some q.1
        | _ => none
      match failing with
      | none => s
      | some t => (t.bindOff g.key true true).setPlace cl 3 5 none

/-- CAST_ON_IMAGE_FAILURE. -/
def execCastOnImageFailure (cl : Fin 16) (s : State) : Host.Outcome State Fault Refusal := event (fun s => s.imageFailure cl) s

/-! ## GINFO and GDONE (R365, R368) -/

/-- The group a core runs for, as it stands or stood. -/
def State.myGroup (s : State) : Option Group := ((s.core s.cur).gkey).bind s.group?

/-- An item of GINFO (R368). -/
def ginfoItem (g : Group) (k : Core) (x : Fin 8) (item : Nat) (b : Word) : Word :=
  let ncol := bits k.griddim.toNat 0 24
  let nrow := bits k.griddim.toNat 24 24
  match item with
  | 0 => BitVec.ofNat 64 g.key.gid
  | 1 => BitVec.ofNat 64 g.gr
  | 2 => BitVec.ofNat 64 g.gc
  | 3 => BitVec.ofNat 64 nrow
  | 4 => BitVec.ofNat 64 ncol
  | 5 => BitVec.ofNat 64 (g.h + (g.w - 1) * 8)
  | 6 => BitVec.ofNat 64 (k.orow + k.ocol * 2 ^ 8 + x.val * 2 ^ 16)
  | 7 => BitVec.ofNat 64 g.s0
  | 8 =>
    let r := bits b.toNat 0 8
    let c := bits b.toNat 8 8
    if g.h ≤ r ∨ g.w ≤ c ∨ bits b.toNat 16 48 ≠ 0 then BitVec.allOnes 64 else BitVec.ofNat 64 (g.s0 + r * g.w + c)
  | _ => BitVec.ofNat 64 g.count

/-- GINFO (R368); items 10 to 31 are no instruction. -/
def execGinfo (d i b : Reg) (s : State) : Host.Outcome State Fault Refusal :=
  issueIf (fun s => aCompute.legal s && decide (i.val < 10) && (i.val = 8 || b.val = 0)) noHint .user (seq do
    let y ← rdG b
    let s ← get
    match s.myGroup with
    | some g => wrG d (ginfoItem g (s.core s.cur) (CoreIdx s.cur) i.val y)
    | none => wrG d 0) s

/-- A core leaves its group's COUNT (R364, R365): the follower of a checked pair leaves with its leader (R416). -/
def State.leaveCount (s : State) (key : GroupKey) (n : Nat) (v : Word) : State :=
  let s := s.updGroup key fun g => { g with count := g.count - n, value := g.value + v }
  match s.group? key with
  | some g => if g.count = 0 then s.bindOff key false true else s
  | none => s

/-- What GDONE ends: both threads of its core; but an X-thread in STOP stays there, and its core in COUNT, until the control core
acts (R96, R365, R367). DEDUCED, entry 20. -/
def State.gdone (s : State) (c : CoreName) (n : Nat) (v : Word) : State :=
  let stop := (s.th c .x).st = .stop
  let key := (s.core c).group
  let s := s.endCore c
  (if stop then s.updTh c .x fun h => { h with st := .stop } else s).leaveCount key (if stop then 0 else n) v

/-- GDONE (R365): the hold ends first (R393), then the waits, then both threads end. DEDUCED, entry 20. -/
def execGdone (a : Reg) (s : State) : Host.Outcome State Fault Refusal :=
  issue aCompute noHint .user (do
    let v ← rdG a
    endHold
    if !(← ask fun s => s.mxIdle s.cur) then waitKeep .matrix
    if (← myCore).outs.any fun e => e.2.staging != [] then waitKeep .channel
    if (← myThread).relaxed ≠ [] ∨ !(← myCore).slotsDrained then waitKeep .fence
    match (← myThread).relaxFail with
    | none => pure ()
    | some f => trapWith f.1 f.2 fun s => s.updTh s.cur s.thr fun h => { h with relaxFail := none }
    let n := if (← myCore).gang.compare then 2 else 1
    act fun s => s.gdone s.cur n (if n = 2 then v + v else v)
    return .done) s

end Sys2Proof.Machine
end

