-- ==== Sys2Proof/Machine/Kernel.lean ====
section
/-! DEFINITION. LAUNCH, LWAIT, CANCEL and CNTRD; the launch queues and the placement of groups (chapter The kernel). -/

namespace Sys2Proof.Machine

/-! ## LAUNCH (R369, R372) -/

/-- What makes a block invalid by the state of its context (R369). -/
def State.blockStale (s : State) (ctx : Nat) (b : Kernel) : Bool :=
  b.preds.any (fun p => decide ((s.ctx ctx).nextKid ≤ p)) ||
    (b.graph != 0 && (s.openGraph ctx b.graph).any fun g => g.closed)

/-- A graph instance gains a kernel; the first opens it, one with GEND closes it (R374). -/
def State.joinGraph (s : State) (ctx : Nat) (b : Kernel) : State :=
  if b.graph = 0 then s
  else match s.openGraph ctx b.graph with
    | some _ => s.updGraph ctx b.graph fun g => { g with gcount := g.gcount + 1, total := g.total + 1, closed := g.closed || b.gend }
    | none => s.updCtx ctx fun c => { c with graphs := c.graphs ++ [⟨b.graph, b.gend, 1, 1, false, false⟩] }

/-- The predecessors a kernel names, each once (R372). -/
def distinctPreds (l : List Nat) : List Nat := l.foldl (fun acc p => if acc.contains p then acc else acc ++ [p]) []

/-- A kernel is created (R372 check 6): its id, and 0 ACCEPTED, 1 CANCELLED, 2 EMPTY. -/
def State.register (s : State) (ctx : Nat) (b : Kernel) (cl : Fin 16) (tag : Option Word) : State × Nat × Nat :=
  let kid := (s.ctx ctx).nextKid
  let ps := distinctPreds b.preds
  let n := (ps.filter fun p => (s.kernel? ctx p).any fun k => k.st != .finished).length
  let dead := ps.any fun p => (s.kernel? ctx p).any fun k => k.st = .finished && k.status = 1
  let k := { b with
             kid := kid, preds := ps, st := if n = 0 then .ready else .waiting, pcount := n, kcount := b.size, value := 0,
             status := 0, readyAt := s.cycle, eprio := b.prio, cl := cl, hostTag := tag }
  let s := (s.joinGraph ctx b).updCtx ctx fun c => { c with kernels := c.kernels ++ [k], nextKid := kid + 1 }
  if dead then (s.finishKernel ctx kid 1 false, kid, 1)
  else if n = 0 ∧ b.size = 0 then (s.finishKernel ctx kid 2 false, kid, 2)
  else (s, kid, 0)

/-- How a launch ends: 3 RANGE or 4 INVALID, a wait for the context to have fewer kernels, or a block that may be
registered (R372). -/
inductive LaunchCheck where
  | refused (code : Nat)
  | full
  | good (b : Kernel)
  deriving DecidableEq, Repr

/-- The checks of a launch after its operands', in order (R372 checks 2 to 5). -/
def State.launchCheck (s : State) (cl : Fin 16) (ctx va : Nat) : State × LaunchCheck :=
  let q := s.readBlock cl ctx va
  match q.2 with
  | none => (q.1, .refused 4)
  | some ws =>
    let b := Kernel.ofBlock va ws
    if blockBad ws || q.1.blockStale ctx b then (q.1, .refused 4)
    else if 2 ^ 24 ≤ b.size then (q.1, .refused 3)
    else if 4096 ≤ q.1.jcount ctx then (q.1, .full)
    else (q.1, .good b)

/-- The result word of LAUNCH (R372). -/
def launchWord (kid code : Nat) : Word := BitVec.ofNat 64 (kid % 2 ^ 36 + code * 2 ^ 40)

/-- LAUNCH (R372): on a compute core b is g0 and the context CTXID; on a control core g[b] gives it. DEDUCED, entry 21. -/
def execLaunch (d a b : Reg) (s : State) : Host.Outcome State Fault Refusal :=
  issueIf (fun s => s.thr = .a && (s.cur.kind = .control || (s.cur.kind = .compute && b.val = 0))) noHint .user (seq do
    let w ← rdG a
    let sup := (← ask State.cur).kind = .control
    let y ← rdG b
    let ctx ← if sup then pure (bits y.toNat 0 12) else (fun k => k.ctxid.toNat) <$> myCore
    let cl ← ask fun s => s.cur.servedBy
    release
    let refuse := fun (code : Nat) => do
      act fun s => s.post cl 2 0 ctx code w none
      wrG d (launchWord 0 code)
    if 2 ^ 60 ≤ w.toNat ∨ w.toNat % 64 ≠ 0 ∨ (sup ∧ ctx = 0) then refuse 4
    else
      let q ← ask fun s => s.launchCheck cl ctx w.toNat
      act fun _ => q.1
      match q.2 with
      | .refused code => refuse code
      | .full => waitKeep .launch
      | .good blk =>
        let r ← ask fun s => s.register ctx blk cl none
        act fun _ => r.1
        wrG d (launchWord r.2.1 r.2.2)) s

/-! ## Object words (R375, R376) -/

def owId (w : Word) : Nat := bits w.toNat 0 36
def owLevel (w : Word) : Nat := bits w.toNat 36 2
def owNowait (w : Word) : Bool := w.getLsbD 38
def owCtx (w : Word) : Nat := bits w.toNat 40 12

/-- A misuse of an object word. -/
def objTrap {α : Type} (w : Word) : M α := trap Cause.workProtocol (w ||| BitVec.ofNat 64 (2 ^ 63))

/-- The object word of g[a], checked, and the context it is of. -/
def objectOf (a : Reg) : M (Word × Nat) := do
  let w ← rdG a
  let sup := (← ask State.cur).kind = .control
  if w.getLsbD 39 = true ∨ bits w.toNat 52 12 ≠ 0 ∨ owLevel w = 3 ∨ (owLevel w = 2 ∧ owId w ≠ 0) ∨ (!sup && owCtx w != 0) = true then
    objTrap w
  let k ← myCore
  return (w, if sup then owCtx w else k.ctxid.toNat)

/-- How an object stands (R375, R376). -/
inductive ObjEnd where
  | unknown
  | going
  | ended (status : Nat)
  deriving DecidableEq, Repr

/-- The state of a kernel, a graph or a job (R375, R376). -/
def State.object (s : State) (ctx level id : Nat) : ObjEnd :=
  match level with
  | 0 => match s.kernel? ctx id with
    | none => .unknown
    | some k => if k.st = .finished then .ended k.status else .going
  | 1 =>
    if (s.openGraph ctx id).isSome then .going
    else match ((s.ctx ctx).graphs.filter fun g => g.id = id && g.done).getLast? with
      | some g => .ended (if g.cancelled then 1 else 0)
      | none => .unknown
  | _ => if s.jcount ctx = 0 then .ended ((s.ctx ctx).jobEnds.getLastD 0) else .going

/-- What an LWAIT that waits keeps of its object: the number of the graph's open instance, or of the job (R374, R376). -/
def State.instanceOf (s : State) (ctx level id : Nat) : Nat :=
  match level with
  | 1 => (s.ctx ctx).graphs.findIdx fun g => g.id = id && !g.done
  | _ => (s.ctx ctx).jobEnds.length

/-- How the object stands that an LWAIT waits for: the instance it met when it issued, whatever has opened since (R376). DEDUCED,
entry 21. -/
def State.waited (s : State) (ctx level id n : Nat) : ObjEnd :=
  match level with
  | 0 => s.object ctx 0 id
  | 1 => match (s.ctx ctx).graphs[n]? with
    | some g => if g.done then .ended (if g.cancelled then 1 else 0) else .going
    | none => .unknown
  | _ => match (s.ctx ctx).jobEnds[n]? with
    | some st => .ended st
    | none => .going

/-- The threads that launch and wait: the A-thread of compute and control cores (R37). -/
def aLaunch : Who := ⟨true, false, [.compute, .control]⟩

/-- LWAIT (R375, R376): while it waits it keeps the object that it met. -/
def execLwait (d a : Reg) (s : State) : Host.Outcome State Fault Refusal :=
  issue aLaunch noHint .user (seq do
    let o ← objectOf a
    let w := o.1
    let s ← get
    let k := s.core s.cur
    let own := s.cur.kind = .compute && match owLevel w with
      | 0 => owId w == bits k.kernelid.toNat 0 36
      | 1 => owId w != 0 && owId w == bits k.kernelid.toNat 36 24
      | _ => true
    if own && !owNowait w then objTrap w
    let st := match (← myThread).pend with
      | .object n => s.waited o.2 (owLevel w) (owId w) n
      | _ => s.object o.2 (owLevel w) (owId w)
    match st with
    | .unknown => wrG d 0xFE
    | .ended st => wrG d (BitVec.ofNat 64 st)
    | .going =>
      if owNowait w then wrG d 0xFF
      else match (← myThread).pend with
        | .object _ => wait .launch
        | _ => waitAs .launch (.object (s.instanceOf o.2 (owLevel w) (owId w)))) s

/-- CNTRD (R376). -/
def execCntrd (d a : Reg) (s : State) : Host.Outcome State Fault Refusal :=
  issue aLaunch noHint .user (seq do
    let o ← objectOf a
    let w := o.1
    let s ← get
    match s.object o.2 (owLevel w) (owId w) with
    | .unknown => wrG d (BitVec.ofNat 64 (2 ^ 63))
    | .ended _ => wrG d 0
    | .going => wrG d (BitVec.ofNat 64 (match owLevel w with
      | 0 => ((s.kernel? o.2 (owId w)).map Kernel.kcount).getD 0
      | 1 => ((s.openGraph o.2 (owId w)).map GraphInst.gcount).getD 0
      | _ => s.jcount o.2))) s

/-! ## CANCEL (R376, R377) -/

/-- A graph is cancelled: its instance closed, its kernels cancelled; one with no kernel left ends at once (R374, R376). DEDUCED, entry 21. -/
def State.cancelGraph (s : State) (ctx id : Nat) (cl : Fin 16) : State :=
  let s := s.updGraph ctx id fun g => { g with closed := true }
  let l := (s.ctx ctx).kernels.filter fun k => k.graph = id && k.st != .finished
  match s.openGraph ctx id, l with
  | some g, [] =>
    (s.updGraph ctx id fun g => { g with done := true }).post cl 3 id ctx (if g.cancelled then 1 else 0) (BitVec.ofNat 64 g.total) none
  | _, l => s.cancelKernels ctx (l.map Kernel.kid) false

/-- A job is cancelled: every kernel of the context that is not FINISHED (R376). -/
def State.cancelJob (s : State) (ctx : Nat) : State :=
  s.cancelKernels ctx (((s.ctx ctx).kernels.filter fun k => k.st != .finished).map Kernel.kid) true

/-- CANCEL (R376): one that covers its own core ends it with the rest. DEDUCED, entry 21. -/
def execCancel (d a : Reg) (s : State) : Host.Outcome State Fault Refusal :=
  issue aLaunch noHint .user (do
    let o ← objectOf a
    let w := o.1
    let s ← get
    match s.object o.2 (owLevel w) (owId w) with
    | .unknown => do
      wrG d 0xFE
      return .seq
    | .ended _ => do
      wrG d 1
      return .seq
    | .going => do
      release
      act fun s => match owLevel w with
        | 0 => s.cancelKernel o.2 (owId w) false
        | 1 => s.cancelGraph o.2 (owId w) s.cur.servedBy
        | _ => s.cancelJob o.2
      if (← myThread).st = .off then return .done
      wrG d 0
      return .seq) s

/-! ## Launch queues and placement (R373) -/

/-- The effective priority of a kernel that became READY t cycles ago (R373). -/
def Kernel.aged (k : Kernel) (now : Nat) : Nat := min 3 (k.prio + (now - k.readyAt) / 80000)

/-- A kernel's effective priority is brought up to the time (R373). -/
def State.age (s : State) (ctx kid : Nat) : State :=
  s.updKernel ctx kid fun k => if k.st = .ready ∨ k.st = .running then { k with eprio := k.aged s.cycle } else k

/-- PRIORITY_AGING: a kernel that has waited long enough rises (R373). -/
def execPriorityAging (ctx kid : Nat) (s : State) : Host.Outcome State Fault Refusal := event (fun s => s.age ctx kid) s

/-- The first group of a kernel that is PENDING. -/
def State.nextGroup (s : State) (ctx : Nat) (k : Kernel) : Option Nat :=
  (List.range k.size).find? fun gid => s.groupPending ctx k gid

/-- Whether the first of two kernels, each with its context, is placed before the second (R373). -/
def placedBefore (a b : Nat × Kernel) : Bool :=
  decide (b.2.eprio < a.2.eprio) || (a.2.eprio = b.2.eprio && (decide (a.2.readyAt < b.2.readyAt) || (a.2.readyAt = b.2.readyAt &&
    (decide (a.1 < b.1) || (a.1 = b.1 && decide (a.2.kid < b.2.kid))))))

/-- The kernels that may have a group placed in a cluster, each with its context and the group. -/
def State.placeable (s : State) (cl : Fin 16) : List ((Nat × Kernel) × Nat) :=
  s.ctxs.flatMap fun c => (c.2.kernels.filter fun k => k.clmask = 0 || k.clmask.testBit cl.val).filterMap fun k =>
    (s.nextGroup c.1 k).map fun gid => ((c.1, k), gid)

/-- The group that comes first (R373). -/
def State.firstGroup (s : State) (cl : Fin 16) : Option ((Nat × Kernel) × Nat) :=
  (s.placeable cl).foldl (fun best e => match best with
    | none => some e
    | some b => if placedBefore e.1 b.1 then some e else some b) none

/-- The free rectangle of lowest PO and the free slots of lowest S0 (R373). -/
def State.fit (s : State) (cl : Fin 16) (ctx : Nat) (k : Kernel) : Option (Nat × Nat) :=
  match (List.range 24).find? (fun po => rectOk po k.h k.w && (rectOctets cl po k.h k.w).all s.octetFree),
    (List.range 24).find? (fun s0 => decide (s0 + k.h * k.w ≤ 24) && s.slotsAre ctx cl s0 (k.h * k.w) fun m => m = .empty) with
  | some po, some s0 => some (po, s0)
  | _, _ => none

/-- Whether the group that came first and did not fit still holds up its cluster (R373). -/
def State.blockedAt (s : State) (cl : Fin 16) : Bool :=
  match (s.cluster cl).blocked with
  | some g => (s.kernel? g.ctx g.kid).any fun k => s.groupPending g.ctx k g.gid
  | none => false

/-- GROUP_PLACEMENT (R373): a cluster's control core starts a cast-on of the first group, if it fits; if it does not, the cluster
places nothing until octets or slots are freed. It does nothing while it is stopped, while an operation runs under PLACE, or at the
power limit (R20, R360, R414). DEDUCED, entry 20: a group that is placed elsewhere or cancelled holds up no cluster. -/
def State.placeNext (s : State) (cl : Fin 16) : State :=
  let q := s.cluster cl
  if q.stopped ∨ q.placeStatus = 1 ∨ s.life.powerLimit ∨ s.blockedAt cl then s
  else
    let s := s.ctxs.foldl (fun s c => c.2.kernels.foldl (fun s k => s.age c.1 k.kid) s) s
    match s.firstGroup cl with
    | none => s
    | some e => match s.fit cl e.1.1 e.1.2 with
      | none => s.updCluster cl fun q => { q with blocked := some ⟨e.1.1, e.1.2.kid, e.2⟩ }
      | some p => s.castOn cl ⟨BitVec.ofNat 64 (e.2 + e.1.1 * 2 ^ 24), BitVec.ofNat 64 e.1.2.block, BitVec.ofNat 64 (p.1 + p.2 * 2 ^ 8), 0⟩

/-- GROUP_PLACEMENT. DEDUCED, entry 20. -/
def execGroupPlacement (cl : Fin 16) (s : State) : Host.Outcome State Fault Refusal := event (fun s => s.placeNext cl) s

end Sys2Proof.Machine
end

