-- ==== Sys2Proof/Machine/Context.lean ====
section
/-! DEFINITION. Vacating groups, the skein, PREEMPT, SAVE, RESTORE, HMIGRATE and CHKPAIR, and the steps of the context-save
engines; the window maps and isolation settings (chapter The context). -/

namespace Sys2Proof.Machine

/-! ## Vacating (R405) -/

/-- A group becomes vacating: its slots are SWITCHED, and each of its cores stops as R405 gives. -/
def State.vacate (s : State) (g : Group) (v : Vacate) : State :=
  (s.updGroup g.key fun g => { g with vac := some v }).setSlots g.key.ctx g.cl g.s0 (List.replicate (g.h * g.w) .switched)

/-- Groups of a context in a cluster that may be vacated (R410). -/
def State.eligible (s : State) (ctx : Nat) (cl : Fin 16) : List Group :=
  s.groups.filter fun g => g.key.ctx = ctx && g.cl = cl && g.st = .running && g.vac.isNone

/-- The mask of a list of physical octets. -/
def octetMask (l : List OctName) : Nat := (l.map fun o => 2 ^ o.oct.val).sum

/-- The mask of the octets of a list of groups, and the number of the groups (R410; DEDUCED, entry 34). -/
def maskWord (l : List Group) : Word := BitVec.ofNat 64 (octetMask (l.flatMap Group.octets) + l.length * 2 ^ 24)

/-- The group vacated next: the latest cast-on or restore, ties to the higher GID (R410). -/
def latestGroup (l : List Group) : Option Group :=
  l.foldl (fun best g => match best with
    | none => some g
    | some b => if b.cast < g.cast ∨ (b.cast = g.cast ∧ b.key.gid < g.key.gid) then some g else some b) none

/-- Groups chosen until they hold n octets (R410). -/
def State.choose (s : State) (ctx : Nat) (cl : Fin 16) (imm : Bool) : Nat → Nat → List Group → State × List Group
  | 0, _, l => (s, l)
  | fuel + 1, n, l =>
    if n ≤ (l.flatMap Group.octets).length then (s, l)
    else match latestGroup (s.eligible ctx cl) with
      | none => (s, l)
      | some g =>
        (s.vacate g ⟨s.cycle, if imm then 2 else 0, false, none, imm, false⟩).choose ctx cl imm fuel n (l ++ [g])

/-- A malformed operand word of a context instruction (R410). -/
def contextTrap {α : Type} : M α := trap Cause.queueProtocol 16

/-- PREEMPT (R410). -/
def execPreempt (d a : Reg) (s : State) : Host.Outcome State Fault Refusal :=
  issue aControl noHint .user (seq do
    let w := (← rdG a).toNat
    let n := bits w 12 5
    if bits w 0 12 = 0 ∨ n = 0 ∨ 24 < n ∨ bits w 18 46 ≠ 0 then contextTrap
    let cl ← myCl
    let r ← ask fun s => s.choose (bits w 0 12) cl (w.testBit 17) 24 n []
    act fun _ => r.1
    wrG d (maskWord r.2)) s

/-- The group of a context that holds a slot in a cluster, among those given. -/
def holding (l : List Group) (slot : Nat) : Option Group := l.find? fun g => decide (g.s0 ≤ slot ∧ slot < g.s0 + g.h * g.w)

/-- SAVE (R410). -/
def execSave (d a : Reg) (s : State) : Host.Outcome State Fault Refusal :=
  issue aControl noHint .user (seq do
    let w := (← rdG a).toNat
    if bits w 0 12 = 0 ∨ 23 < bits w 12 5 ∨ bits w 19 45 ≠ 0 then contextTrap
    let cl ← myCl
    let s ← get
    match holding (s.eligible (bits w 0 12) cl) (bits w 12 5) with
    | none => wrG d 0
    | some g =>
      let imm := w.testBit 17
      let keep := w.testBit 18
      act fun s => s.vacate g ⟨s.cycle, if keep then 5 else if imm then 2 else 0, keep, none, imm, false⟩
      wrG d (BitVec.ofNat 64 (octetMask g.octets))) s

/-- VACATE_DEADLINE: 160,000 cycles after the request the cores that still run are stopped (R405). -/
def State.vacateDeadline (s : State) (key : GroupKey) : State :=
  s.updGroup key fun g => { g with vac := g.vac.map fun v =>
    if v.at_ + 160000 ≤ s.cycle ∧ v.saving = false then { v with deadline := true, status := if v.status = 0 then 1 else v.status }
    else v }

/-- VACATE_DEADLINE. -/
def execVacateDeadline (g : GroupKey) (s : State) : Host.Outcome State Fault Refusal := event (fun s => s.vacateDeadline g) s

/-- The compute cores of a group that stands somewhere. -/
def Group.cores (g : Group) : List CoreName := g.octets.flatMap octetCores

/-- What a save drops of a waiting instruction, which issues again: a sync request, a held access, the object of an LWAIT (R97, R266,
R285). -/
def Pend.forSave : Pend → Pend
  | .syncAsked _ _ => .none
  | .syncBad _ => .none
  | .held _ => .none
  | .object _ => .none
  | p => p

/-- The command of an X-thread's waiting instruction is taken back: the instruction has not retired, so it has no effect and issues
again after the restore (R97, R211). DEDUCED, entry 25. -/
def State.takeBack (s : State) (c : CoreName) : State :=
  let mx := (s.th c .x).mx
  let s := s.updTh c .x fun h => { h with mx := .none }
  match c.octet?, mx with
  | some o, .asked id => (s.dropReqs fun r => r = .drain o id).updOctet o fun q => (q.dropCmd id).serve
  | _, _ => s

/-- The requests a core has at the homes of objects and lists are withdrawn (R285, R395), and so is its waiting command. -/
def State.withdraw (s : State) (c : CoreName) : State :=
  let take := s.takeq.any fun q => q.2.any fun r => r.1 = c
  ((s.takeBack c).leaveQueues c).updCore c fun k =>
    { k with
        a := { k.a with pend := if take then .none else k.a.pend.forSave }, x := { k.x with pend := k.x.pend.forSave } }

/-- CONTEXT_SAVE_BEGIN: every core of a vacating group stands stopped, and the save begins (R405). -/
def State.saveBegin (s : State) (key : GroupKey) : State :=
  match s.group? key with
  | none => s
  | some g =>
    match g.vac with
    | none => s
    | some v =>
      if v.saving ∨ g.st ≠ .running ∨ !(g.cores.all s.stopped) then s
      else g.cores.foldl State.withdraw (s.updGroup key fun g => { g with vac := some { v with saving := true } })

/-- CONTEXT_SAVE_BEGIN. -/
def execContextSaveBegin (g : GroupKey) (s : State) : Host.Outcome State Fault Refusal := event (fun s => s.saveBegin g) s

/-! ## Writing a skein (R406 to R409) -/

/-- Requests in turn, while each is done. -/
def runAll : List (State → State × MicroEnd) → State → State × MicroEnd
  | [], s => (s, .ok [])
  | f :: fs, s => MicroEnd.next (f s) (runAll fs)

/-- HENT of a handle (R408): FREE, GEN and DISC as the accepted view has them (R212, R243). One that is FREE only to the commands
executed has no contents. -/
def Handle.entry (h : Handle) : Nat :=
  if h.free then 0
  else (match h.st with
    | .free | .configured => 1
    | _ => if h.disc then 3 else 2) + (if h.disc then 4 else 0) + h.gen.toNat * 256

/-- Whether a save writes a handle's image: DIRTY, and not discardable (R243). -/
def Handle.imaged (h : Handle) : Bool := h.st = .dirty && !h.disc && !h.free

/-- A word of the header of octet number i of a group, its CHECK zero (R408). -/
def State.headerWordOf (s : State) (g : Group) (how i : Nat) (q : Octet) (n : Nat) : Nat :=
  match n with
  | 0 => g.key.ctx + g.key.gid * 2 ^ 12 + i / g.w * 2 ^ 36 + i % g.w * 2 ^ 39 + g.h * 2 ^ 41 + (g.w - 1) * 2 ^ 44 + g.s0 * 2 ^ 46 +
      g.cl.val * 2 ^ 51 + how * 2 ^ 55
  | 1 => g.key.kid
  | 2 => if i = 0 then g.value.toNat else 0
  | 3 => if i = 0 then g.count else 0
  | 4 => s.timeWord.toNat
  | _ =>
    if 8 ≤ n ∧ n < 12 then bits q.dmask.toNat (64 * (n - 8)) 64
    else if 32 ≤ n ∧ n < 96 then ((List.range 4).map fun j => (q.handle (4 * (n - 32) + j)).entry * 2 ^ (16 * j)).sum
    else 0

/-- The bytes of a list of words. -/
def wordBytes (l : List Nat) : List Byte := l.flatMap (bytesOf 8)

/-- What is read of a range as the bytes that are not zero, with their offsets. -/
inductive CellEnd where
  | ok (l : List (Nat × Byte))
  | wait
  | fails (cause : BitVec 8)
  deriving DecidableEq, Repr

/-- The bytes that are not zero in parts of a context's addresses, each under its offset from a base. -/
def State.microCells (s : State) (st ctx base : Nat) (r : WaitReq) : List (Nat × Nat) → State × CellEnd
  | [] => (s, .ok [])
  | p :: ps =>
    let t := s.microTranslate st ctx p.1 p.2 true false r
    let part : State × CellEnd := match t.2 with
      | .home a =>
        let q := t.1.checkRead a p.2
        match q.2 with
        | some f => (q.1, .fails f.1)
        | none => (q.1, .ok ((q.1.mem.filter fun m => decide (a ≤ m.1 ∧ m.1 < a + p.2)).map fun m => (m.1 - a + (p.1 - base), m.2)))
      | .remote n =>
        let k := t.1.askDevice n ctx p.1 p.2
        match k.2 with
        | .ok v => (k.1, .ok ((((List.range p.2).zip (bytesOf p.2 v)).filter fun e => e.2 != 0).map fun e => (e.1 + (p.1 - base), e.2)))
        | .fault => (k.1, .fails Cause.pageFault)
        | _ => (k.1, .fails Cause.accessRights)
      | .wait => (t.1, .wait)
      | .fails c => (t.1, .fails c)
    match part.2 with
    | .ok l =>
      let y := part.1.microCells st ctx base r ps
      (y.1, match y.2 with
        | .ok m => .ok (l ++ m)
        | e => e)
    | e => (part.1, e)

/-- The parts of a range within a skein. -/
def skeinParts (base off len : Nat) : List (Nat × Nat) := pageParts (len / 1024 + 2) (base + off) len

/-- The header and the eight thread-state blocks of a skein. -/
def checkedParts (base : Nat) : List (Nat × Nat) :=
  skeinParts base 0 4096 ++ (List.range 8).flatMap fun x => skeinParts base (0x20000 + 0x20000 * x) 65536

/-- The check value over the bytes of a header and its blocks: the manual gives no formula (R408). DEDUCED, entry 24. -/
def checkOf (l : List (Nat × Byte)) : Word := Config.skeinCheck (l.filter fun c => !decide (0x28 ≤ c.1 ∧ c.1 < 0x30))

/-- The directory of an octet as its bytes (R407). -/
def Octet.dirBytes (q : Octet) : List Byte :=
  (List.range 64).flatMap fun i =>
    let e := q.entry i
    wordBytes [e.w0.toNat, e.w1.toNat, e.w2.toNat, e.w3.toNat]

/-- The image of a handle as its bytes (R407). -/
def Handle.image (h : Handle) : List Byte := (List.range 256).flatMap fun i => bytesOf 4 (h.at_ i).toNat

/-- A handle's image is written, 1,024 bytes of one page; a bad granule of its accumulator memory goes on as a poisoned one (R29, R241,
R407). -/
def State.imageOut (s : State) (st ctx : Nat) (r : WaitReq) (va : Nat) (image : List Byte) (src : Nat) : State × MicroEnd :=
  let t := s.microHomes st ctx r [(va, 1024)]
  match t.2 with
  | .error e => (t.1, e)
  | .ok l =>
    let x := t.1.microPut l image
    match l, x.2 with
    | [(.here a, _, _)], .ok _ => (x.1.carryMarks src a 1024, x.2)
    | _, _ => x

/-- The skein of octet number i of a group is written: header, directory, local memories, thread-state blocks, the
scratchpad but for its discardable granules, the images of DIRTY handles, and CHECK last (R407, R408). What a thread-state
block holds is open. -/
def State.writeSkein (s : State) (g : Group) (how i : Nat) : State × MicroEnd :=
  let o := (g.octets.getD i ⟨g.cl, 0⟩)
  let q := s.octet o
  let st := clusterStation g.cl
  let ctx := g.key.ctx
  let base := s.skeinVA ctx g.cl (g.s0 + i)
  let r := WaitReq.save g.key
  let header := fun s : State => s.microWrite st ctx base (wordBytes ((List.range 512).map (s.headerWordOf g how i q))) r
  let dir := fun s : State => s.microWrite st ctx (base + 0x1000) q.dirBytes r
  let local_ := fun (x : Nat) (s : State) => s.copyOut st ctx r (skeinParts base (0x10000 + 0x20000 * x) 65536) (localBase (.compute o (Fin.ofNat 8 x)))
  let block := fun (x : Nat) (s : State) =>
    let k := s.fresh
    k.2.microWrite st ctx (base + 0x20000 + 0x20000 * x) (bytesOf 8 (Config.freeWord k.1).toNat) r
  let scratch := fun (n : Nat) (s : State) =>
    if q.dmask.getLsbD n then (s, MicroEnd.ok []) else s.copyOut st ctx r (skeinParts base (0x110000 + 4096 * n) 4096) (scratchBase o + 4096 * n)
  let image := fun (h : Nat) (s : State) =>
    let x := q.handle h
    if x.imaged then s.imageOut st ctx r (base + 0x210000 + 1024 * h) x.image (accBase o h) else (s, MicroEnd.ok [])
  let check := fun s : State =>
    let y := s.microCells st ctx base r (checkedParts base)
    match y.2 with
    | .ok l => y.1.microWrite st ctx (base + 0x28) (bytesOf 8 (checkOf l).toNat) r
    | .wait => (y.1, .wait)
    | .fails c => (y.1, .fails c)
  runAll ([header, dir] ++ (List.range 8).map local_ ++ (List.range 8).map block ++ (List.range 256).map scratch ++
    (List.range 256).map image ++ [check]) s

/-! ## The end of a save (R406) -/

/-- No read of a slot is in flight, and a write slot has no stored element whose address is there (R163). -/
def Slot.quiet (q : Slot) : Bool :=
  if q.cur.own.write then
    q.late.isSome || q.store.isEmpty || (match q.queue with | ⟨_, _, .requested _⟩ :: _ => false | _ => true)
  else q.queue.all fun e => match e.elem with | .requested _ => false | _ => true

/-- Every command of a group's cores and every request of their streams is complete, and the writes that are ready are
performed (R163, R243, R406). DEDUCED, entry 25. -/
def State.saveReady (s : State) (g : Group) : Bool :=
  (g.octets.all fun o => (s.octet o).cmds.isEmpty && (s.octet o).fills.isEmpty) &&
    g.cores.all fun c => [0, 1, 2, 3].all fun n => ((s.core c).slot n).quiet

/-- A thread as a save keeps it: a HINT that waits for its consumer is issued again (R47). -/
def ThreadState.forSave (h : ThreadState) : ThreadState := { h with pc := h.pcOf, hint := none, pend := h.pend.forSave, since := none }

/-- A follower's HINT that waits for its consumer is again the first of its forwarded words (R47, R128). -/
def Core.hintBack (k : Core) : Core :=
  match k.a.hint with
  | some h =>
    if k.gang.follower ∧ k.gang.compare = false then
      { k with gang := { k.gang with buf := (h.word, k.a.pc - 4, k.a.pc) :: k.gang.buf } }
    else k
  | none => k

/-- A core as a save keeps it. DEDUCED, entry 25. -/
def Core.forSave (k : Core) : Core :=
  { k.hintBack with a := k.a.forSave, x := k.x.forSave, edgeStop := false, flagLog := [] }

/-- A waiter whose sync record or list lies in an octet that leaves issues its instruction again, and is then held by the
router (R266). -/
def State.releaseWaiters (s : State) (o : OctName) : State :=
  let inside := fun p : Nat => decide (scratchBase o ≤ p ∧ p < scratchBase o + 2 ^ 20) ||
    decide (localBase (.compute o 0) ≤ p ∧ p < localBase (.compute o 0) + 2 ^ 19)
  let a := s.syncq.filter fun q => inside q.1
  let b := s.takeq.filter fun q => inside q.1
  let s := { s with syncq := s.syncq.filter fun q => !inside q.1, takeq := s.takeq.filter fun q => !inside q.1 }
  let s := (a.flatMap fun q => q.2).foldl (State.tellSync · .none) s
  (b.flatMap fun q => q.2).foldl (fun s r => s.updTh r.1 .a fun h => { h with pend := .none }) s

/-- VALUE of a PREEMPTED record (R406). -/
def preemptValue (g : Group) : Word := BitVec.ofNat 64 (octetMask g.octets + g.key.kid % 2 ^ 36 * 2 ^ 24)

/-- The octets leave a group that is saved: their state goes with the skeins (R406, R409). -/
def State.takeAway (s : State) (g : Group) : State :=
  (g.octets.zip (List.range g.octets.length)).foldl (fun s e =>
    let o := e.1
    let k : Skein := ⟨g.key.ctx, g.cl, g.s0 + e.2, g.key, g.h, g.w, (octetCores o).map fun c => (s.core c).forSave⟩
    let s := (({ s with skeins := s.skeins ++ [k] }.releaseWaiters o).endTransfer o).freeOctet o
    let s := s.updOctet o fun q => { q with lines := [], dmask := 0, pairLive := 0 }
    (octetCores o).foldl (fun s c => s.updCore c Core.vacant) s) s

/-- A restore begins (R412): the octets are taken, their adapter caches cleared, and PLACE is BUSY. -/
def State.startRestore (s : State) (g : Group) (po : Nat) : State :=
  let l := rectOctets g.cl po g.h g.w
  let s := l.foldl (fun s o => s.takeOctet g.key.ctx o) s
  s.setPlace g.cl 1 0 (some (.restore g.key po))

/-- A checkpoint is complete: the group goes on where it stands (R410). -/
def State.resumeKept (s : State) (g : Group) : State :=
  let s := g.octets.foldl (fun s o => s.updOctet o fun q =>
    { q with handles := q.handles.map fun h => if h.2.imaged then (h.1, { h.2 with st := .live }) else h }) s
  let s := g.cores.foldl (fun s c => s.updCore c fun k => { k with edgeStop := false }) s
  let s := s.updGroup g.key fun g => { g with vac := none }
  let s := s.setSlots g.key.ctx g.cl g.s0 (g.octets.map fun o => .mapped o.oct)
  ((s.post g.cl 6 g.key.gid g.key.ctx 5 (preemptValue g) none).releaseHeld.releaseAnswers (g.cl.val / 4)).connectAll

/-- The skeins are written: the group is SAVED, or goes on, or goes over into its restore (R406, R410, R411), once more checked where an
octet of its new place has failed meanwhile, or the cluster places nothing now (R414, R465). DEDUCED, entry 24. -/
def State.saved (s : State) (g : Group) (v : Vacate) : State :=
  if v.keep then s.resumeKept g
  else
    let s := (s.takeAway g).updGroup g.key fun g => { g with st := .saved, vac := none }
    let s := s.post g.cl 6 g.key.gid g.key.ctx v.status (preemptValue g) none
    match v.target with
    | some po =>
      if (s.cluster g.cl).stopped || (rectOctets g.cl po g.h g.w).any fun o => (s.octet o).retired then
        s.setPlace g.cl 1 0 (some (.check g.key.ctx g.key.gid po g.s0))
      else s.startRestore g po
    | none => s

/-- A relaxed store toward a slot of the storing thread's own group: the router holds it from the request to vacate until the group
stands again. -/
def RStore.toOwn (g : Group) (r : RStore) : Bool :=
  let ea := r.ea.toNat
  decide (2 ^ 31 ≤ ea ∧ ea < 2 ^ 32 ∧ g.s0 ≤ winOct ea ∧ winOct ea < g.s0 + g.h * g.w)

/-- Of the relaxed stores of a group's cores that can not be performed yet, none is held toward another group's octet: the rest wait
for the end of this save, or for a record that the save takes with it (R272, R406). DESIGN CHOICE, entry 25. -/
def State.acked (s : State) (g : Group) : Bool :=
  g.cores.all fun c => (s.th c .a).relaxed.all fun r => r.toOwn g || !(r.home s c == .held)

/-- CONTEXT_SAVE_COMPLETE: with everything accepted complete and every relaxed store acknowledged, the skeins are written; a
fault that waits for service leaves the save waiting, and a failure cancels the group (R272, R406). -/
def State.saveComplete (s : State) (key : GroupKey) : State :=
  match s.group? key with
  | none => s
  | some g =>
    match g.vac with
    | none => s
    | some v =>
      if !v.saving ∨ g.st ≠ .running ∨ !s.saveReady g then s
      else
        let s := g.cores.foldl (fun s c => s.ackAll c) s
        if !s.acked g then s else
        let q := runAll ((List.range (g.h * g.w)).map fun i => fun s => s.writeSkein g v.status i) s
        match q.2 with
        | .wait => q.1
        | .ok _ => q.1.saved g v
        | .fails _ => (q.1.post g.cl 6 g.key.gid g.key.ctx 4 (preemptValue g) none).bindOff key true true

/-- CONTEXT_SAVE_COMPLETE. -/
def execContextSaveComplete (g : GroupKey) (s : State) : Host.Outcome State Fault Refusal := event (fun s => s.saveComplete g) s

/-! ## RESTORE and HMIGRATE (R411) -/

/-- How the checks of a restore end. -/
inductive CheckEnd where
  | wait
  | refused (reason : BitVec 4)
  | good (g : Group)
  deriving DecidableEq, Repr

/-- The CHECK words of the skeins in slots S0 on are right (R411). -/
def State.checksOk (s : State) (cl : Fin 16) (ctx : Nat) : List Nat → State × CellEnd
  | [] => (s, .ok [])
  | slot :: rest =>
    let base := s.skeinVA ctx cl slot
    let y := s.microCells (clusterStation cl) ctx base (.cast cl) (checkedParts base)
    match y.2 with
    | .ok l =>
      let stored := leBytes ((List.range 8).map fun i => ((l.find? fun c => c.1 = 0x28 + i).map fun c => c.2).getD 0)
      if BitVec.ofNat 64 stored = checkOf l then y.1.checksOk cl ctx rest else (y.1, .fails 0)
    | e => (y.1, e)

/-- The checks of RESTORE, in order, after the record's own (R411). DEDUCED, entry 24. -/
def State.restoreCheck (s : State) (cl : Fin 16) (ctx gid po s0 : Nat) : State × CheckEnd :=
  let h := s.microRead (clusterStation cl) ctx (s.skeinVA ctx cl s0) 8 (.cast cl)
  match h.2 with
  | .wait => (h.1, .wait)
  | .fails _ => (h.1, .refused 1)
  | .ok b =>
    let w0 := leBytes b
    let hh := bits w0 41 3
    let ww := bits w0 44 2 + 1
    if hh = 0 ∨ !rectOk po hh ww then (h.1, .refused 1)
    else
      let c := h.1.checksOk cl ctx ((List.range (hh * ww)).map fun i => s0 + i)
      match c.2 with
      | .wait => (c.1, .wait)
      | .fails _ => (c.1, .refused 1)
      | .ok _ =>
        let s := c.1
        if !((rectOctets cl po hh ww).all s.octetFree) then (s, .refused 2)
        else match s.groups.find? fun g => g.key.ctx = ctx && g.cl = cl && g.s0 = s0 && g.st = .saved && g.h = hh && g.w = ww with
          | none => (s, .refused 3)
          | some g =>
            if !(s.slotsAre ctx cl s0 (hh * ww) fun m => m = .switched) then (s, .refused 3)
            else if bits w0 12 24 ≠ gid ∨ g.key.gid ≠ gid then (s, .refused 4)
            else (s, .good g)

/-- A restore's checks are made: it starts, is refused, or waits with PLACE BUSY (R411). -/
def State.tryRestore (s : State) (cl : Fin 16) (ctx gid po s0 : Nat) : State :=
  let q := s.restoreCheck cl ctx gid po s0
  match q.2 with
  | .wait => q.1.setPlace cl 1 0 (some (.check ctx gid po s0))
  | .refused r => q.1.setPlace cl 3 r none
  | .good g => q.1.startRestore g po

/-- The value PLACE reads (R360). -/
def Cluster.placeWord (q : Cluster) : Word :=
  BitVec.ofNat 64 (q.placeRec.toNat * 2 ^ 5 + q.placeStatus.toNat * 2 ^ 16 + q.placeReason.toNat * 2 ^ 24)

/-- What both instructions do around their operation (R411): nothing starts while PLACE is BUSY; g[d] receives PLACE. RESTORE acts as `fence device`
before it reads. -/
def placeOperation (before : M Unit) (d a : Reg) (start : Fin 16 → PlaceRec → State → State) (s : State) : Host.Outcome State Fault Refusal :=
  issue aControl noHint .user (seq do
    let ea := (← rdG a).toNat
    before
    let w ← readOwn ea 32 32
    let cl ← myCl
    if (← ask fun s => s.cluster cl).placeStatus = 1 then wrG d (← ask fun s => s.cluster cl).placeWord
    else
      act fun s => start cl (PlaceRec.ofWords w) s
      let q ← ask fun s => s.cluster cl
      wrG d (q.placeWord ||| if q.placeStatus = 1 then BitVec.ofNat 64 (2 ^ 63) else 0)) s

/-- A record of RESTORE or HMIGRATE, whose LPB is ignored (R411). -/
def PlaceRec.badHere (r : PlaceRec) : Bool := ({ r with w1 := 0 } : PlaceRec).bad || bits r.w1.toNat 60 4 != 0

/-- RESTORE (R411). -/
def execRestore (d a : Reg) (s : State) : Host.Outcome State Fault Refusal :=
  placeOperation fenceAll d a (fun cl r s =>
    if r.badHere then s.setPlace cl 3 1 none else s.tryRestore cl r.ctx r.gid r.po r.s0) s

/-- HMIGRATE (R411): the checks, then a vacating save with status 3 whose target is reserved. -/
def State.migrate (s : State) (cl : Fin 16) (r : PlaceRec) : State :=
  if r.badHere then s.setPlace cl 3 1 none
  else
    let mine := s.groups.filter fun g => g.key.ctx = r.ctx && g.cl = cl && g.key.gid = r.gid &&
      (g.st = .running || g.st = .casting || g.st = .saved)
    match (match mine.find? fun g => g.s0 = r.s0 with | some g => some g | none => mine.head?) with
    | none => s.setPlace cl 3 3 none
    | some g =>
      if !rectOk r.po g.h g.w then s.setPlace cl 3 1 none
      else if !((rectOctets cl r.po g.h g.w).all s.octetFree) then s.setPlace cl 3 2 none
      else if g.s0 ≠ r.s0 ∨ !(s.slotsAre r.ctx cl r.s0 (g.h * g.w) fun m => match m with | .mapped _ => true | _ => false) then
        s.setPlace cl 3 3 none
      else if g.st ≠ .running ∨ g.vac.isSome then s.setPlace cl 3 4 none
      else (s.vacate g ⟨s.cycle, 3, false, some r.po, false, false⟩).setPlace cl 1 0 (some (.migrate g.key))

/-- HMIGRATE. -/
def execHmigrate (d a : Reg) (s : State) : Host.Outcome State Fault Refusal :=
  placeOperation coverStores d a (fun cl r s => s.migrate cl r) s

/-! ## The end of a restore (R412) -/

/-- A handle read back (R243, R412): FREE, CONFIGURED, or LIVE with its image. -/
def handleOf (ent : Nat) (el : Tbl (BitVec 32)) : Handle :=
  let gen : BitVec 8 := BitVec.ofNat 8 (ent / 256)
  let disc := ent.testBit 2
  match ent % 4 with
  | 0 => Handle.init
  | 2 => ⟨false, gen, disc, .live, gen, disc, 0, 0, 0, el⟩
  | _ => ⟨false, gen, disc, .configured, gen, disc, 0, 0, 0, []⟩

/-- The elements of an image. -/
def imageEls (b : List Byte) : Tbl (BitVec 32) :=
  (List.range 256).foldl (fun t i => Tbl.set 0 t i (BitVec.ofNat 32 (leBytes ((b.drop (4 * i)).take 4)))) []

/-- TSTAT.DISCARDED in both threads of a core that lost something (R412). -/
def Core.discard (k : Core) (lost : Bool) : Core :=
  { k with
      a := { k.a with discarded := k.a.discarded || lost }, x := { k.x with discarded := k.x.discarded || lost } }

/-- Octet number i of a restore is written back, what its memories held replaced with its granules' marks: local memories, the scratchpad with its discarded granules zero, the
directory, the handles and the discard mask (R412). -/
def State.readSkein (s : State) (g : Group) (po i : Nat) : State × MicroEnd :=
  let o := (rectOctets g.cl po g.h g.w).getD i ⟨g.cl, 0⟩
  let st := clusterStation g.cl
  let ctx := g.key.ctx
  let base := s.skeinVA ctx g.cl (g.s0 + i)
  let r := WaitReq.cast g.cl
  let head := s.microRead st ctx base 4096 r
  match head.2 with
  | .wait => (head.1, .wait)
  | .fails c => (head.1, .fails c)
  | .ok b =>
    let dmask : BitVec 256 := BitVec.ofNat 256 (leBytes ((b.drop 0x40).take 32))
    let ent := fun h : Nat => leBytes ((b.drop (0x100 + 2 * h)).take 2)
    let local_ := fun (x : Nat) (s : State) =>
      let l := localBase (.compute o (Fin.ofNat 8 x))
      ((s.clearMarks l 65536).zeroBytes l 65536).copyIn st ctx r (skeinParts base (0x10000 + 0x20000 * x) 65536) l
    let scratch := fun (n : Nat) (s : State) =>
      let l := scratchBase o + 4096 * n
      let s := (s.clearMarks l 4096).zeroBytes l 4096
      if dmask.getLsbD n then (s, MicroEnd.ok []) else s.copyIn st ctx r (skeinParts base (0x110000 + 4096 * n) 4096) l
    let dir := fun s : State =>
      let y := s.microRead st ctx (base + 0x1000) 2048 r
      match y.2 with
      | .ok d =>
        let ws := wordsOf 256 d
        (y.1.updOctet o fun q => (List.range 64).foldl (fun q n =>
          q.setEntry n ⟨ws.getD (4 * n) 0, ws.getD (4 * n + 1) 0, ws.getD (4 * n + 2) 0, ws.getD (4 * n + 3) 0⟩) q, .ok [])
      | e => (y.1, e)
    let handle := fun (h : Nat) (s : State) =>
      let s := s.clearMarks (accBase o h) 1024
      if ent h % 4 = 2 then
        let y := s.microRead st ctx (base + 0x210000 + 1024 * h) 1024 r
        match y.2 with
        | .ok d => (y.1.updOctet o fun q => q.updHandle h fun _ => handleOf (ent h) (imageEls d), .ok [])
        | e => (y.1, e)
      else (s.updOctet o fun q => q.updHandle h fun _ => handleOf (ent h) [], MicroEnd.ok [])
    let lost := dmask != 0 || (List.range 256).any fun h => ent h % 4 = 3
    let marks := fun s : State =>
      ({ s with
           skeins := s.skeins.map fun (k : Skein) =>
             if k.g = g.key ∧ k.slot = g.s0 + i then { k with cores := k.cores.map fun (c : Core) => c.discard lost } else k }.updOctet o
        fun q => { q with dmask := dmask }, MicroEnd.ok [])
    runAll ((List.range 8).map local_ ++ (List.range 256).map scratch ++ [dir] ++ (List.range 256).map handle ++ [marks]) head.1

/-- The cores of an octet are again what they were when octet number i of a group was saved (R409, R412). -/
def State.wakeOctet (s : State) (g : Group) (o : OctName) (i : Nat) : State :=
  let k := ((s.skeins.find? fun k => k.g = g.key && k.slot = g.s0 + i).map Skein.cores).getD []
  let pairs := (s.octet o).pairLive
  (octetCores o).foldl (fun s c => s.updCore c fun old =>
    { ((k.getD (CoreIdx c).val Core.init).coupled pairs (CoreIdx c)) with islandStart := old.islandStart }) s

/-- Every octet is written back: the slots are MAPPED, the threads resume, and the router lets through what it held (R412). DEDUCED, entry 24. -/
def State.restored (s : State) (g : Group) (po : Nat) : State :=
  let g' := { g with po := po }
  let s := (g'.octets.zip (List.range g'.octets.length)).foldl (fun s e => s.wakeOctet g e.1 e.2) s
  let s := s.updGroup g.key fun g => { g with st := .running, po := po, vac := none, cast := s.castSeq }
  let s := { s with castSeq := s.castSeq + 1, skeins := s.skeins.filter fun k => k.g != g.key }
  let s := s.setSlots g.key.ctx g.cl g.s0 (g'.octets.map fun o => .mapped o.oct)
  let s := g'.cores.foldl (fun s c => if (s.core c).rptBody = [] then s else s.recapture c (s.th c .x).pc) s
  (((s.setPlace g.cl 2 0 none).releaseHeld).releaseAnswers (g.cl.val / 4)).connectAll

/-- RESTORE_COMPLETE: checks that waited are made again; a restore writes its octets back and the group runs (R411, R412).
A read that fails refuses the operation with reason 1, and the octets taken are freed; a cluster whose control core has stopped starts
none (R414). -/
def State.restoreComplete (s : State) (cl : Fin 16) : State :=
  match (s.cluster cl).placeOp with
  | some (.check ctx gid po s0) => if (s.cluster cl).stopped then s else s.tryRestore cl ctx gid po s0
  | some (.restore key po) =>
    match s.group? key with
    | none => s
    | some g =>
      let l := rectOctets cl po g.h g.w
      if !(l.all s.octetRuns) then s
      else
        let q := runAll ((List.range (g.h * g.w)).map fun i => fun s => s.readSkein g po i) s
        match q.2 with
        | .wait => q.1
        | .ok _ => q.1.restored g po
        | .fails _ => (l.foldl (fun s o => (s.endTransfer o).freeOctet o) q.1).setPlace cl 3 1 none
  | _ => s

/-- RESTORE_COMPLETE. -/
def execRestoreComplete (cl : Fin 16) (s : State) : Host.Outcome State Fault Refusal := event (fun s => s.restoreComplete cl) s

/-! ## CHKPAIR (R415) -/

/-- Whether a thread of a group is in STOP. -/
def State.hasStopped (s : State) (g : Group) : Bool :=
  let l := if g.st = .saved then (s.skeins.filter fun k => k.g = g.key).flatMap Skein.cores else g.cores.map s.core
  l.any fun k => k.a.st = .stop || k.x.st = .stop

/-- The threads of a group end but for those in STOP, which end when the group leaves (R415). -/
def State.endAllBut (s : State) (g : Group) : State :=
  g.cores.foldl (fun s c =>
    let k := s.core c
    (s.leaveQueues c).updCore c fun k' => { k' with
      a := if k.a.st = .stop then k.a else k.a.end_, x := if k.x.st = .stop then k.x else k.x.end_ }) s

/-- REQUEUE (R364, R415): the group returns to PENDING with nothing posted and its kernel's count unchanged. -/
def State.requeue (s : State) (g : Group) : State :=
  let s := ((s.leave g).endPlace g).leaveRange (g.cl.val / 4) g.key true
  { s with groups := s.groups.filter fun x => x.key != g.key, router := s.router.filter fun m => s.goesTo m != Target.fails }

/-- CHKPAIR (R415): an octet's checked pairs, or a group returned to PENDING, once the matrix commands its cores had accepted
are complete. DEDUCED, entry 24. -/
def execChkpair (d a : Reg) (s : State) : Host.Outcome State Fault Refusal :=
  issue aControl noHint .user (seq do
    let w := (← rdG a).toNat
    let op := bits w 0 2
    let k := bits w 7 2
    let n := bits w 2 5
    if 23 < n ∨ bits w 9 11 ≠ 0 ∨ bits w 32 32 ≠ 0 ∨ ((op = 0 ∨ op = 3) ∧ k ≠ 0) ∨ (if op = 3 then bits w 20 12 = 0 else bits w 20 12 ≠ 0) then
      contextTrap
    let cl ← myCl
    let o : OctName := ⟨cl, Fin.ofNat 24 n⟩
    let q ← ask fun s => s.octet o
    if op = 0 then wrG d (BitVec.ofNat 64 (q.pairConf.toNat + q.pairLive.toNat * 16))
    else if op = 3 then
      let s ← get
      match holding (s.groups.filter fun g => g.key.ctx = bits w 20 12 && g.cl = cl && (g.st = .running || g.st = .saved)) n with
      | none => wrG d 1
      | some g =>
        if !s.hasStopped g then wrG d 1
        else
          if g.st = .running then act fun s => s.endAllBut g
          if g.st = .running ∧ !(g.octets.all fun o => (s.octet o).cmds.isEmpty) then waitKeep .matrix
          act fun s => s.requeue g
          wrG d 0
    else
      act fun s => s.updOctet o fun q => { q with
        pairConf := if op = 1 then q.pairConf ||| BitVec.ofNat 4 (2 ^ k) else q.pairConf &&& ~~~BitVec.ofNat 4 (2 ^ k) }
      wrG d 0) s

/-! ## Window maps and isolation (R403, R404) -/

/-- The content of a slot as CTXMAP shows it. -/
def SlotMap.code : SlotMap → Nat
  | .empty => 31
  | .mapped o => o.val
  | .switched => 30

/-- Whether a write leaves CTXMAP as it is (R403): an octet without an owner is not context 0's. -/
def State.ctxmapKeeps (s : State) (cl : Fin 16) (w : Nat) : Bool :=
  let ctx := bits w 2 12
  let oct := bits w 19 5
  let op := bits w 0 2
  op = 3 || !s.resident ctx || decide (23 < bits w 14 5) ||
    (op = 1 && ((decide (24 ≤ oct) && oct != 31) || (oct != 31 && ((s.octet ⟨cl, Fin.ofNat 24 oct⟩).owner != ctx || ctx = 0)) ||
      s.slotMap ctx cl.val (bits w 14 5) = .switched))

/-- A write of CTXMAP: the selection, and by OP a slot or the save base (R403). DEDUCED, entry 24. -/
def State.writeCtxmap (s : State) (cl : Fin 16) (v : Word) : State :=
  let w := v.toNat
  if s.ctxmapKeeps cl w then s
  else
    let ctx := bits w 2 12
    let s := s.updCluster cl fun q => { q with ctxmapCtx := BitVec.ofNat 12 ctx, ctxmapSlot := BitVec.ofNat 5 (bits w 14 5) }
    if bits w 0 2 = 1 then
      ((s.setSlots ctx cl (bits w 14 5) [if bits w 19 5 = 31 then .empty else .mapped (Fin.ofNat 24 (bits w 19 5))]).updCluster cl
        fun q => { q with blocked := if bits w 19 5 = 31 then none else q.blocked }).connectAll
    else if bits w 0 2 = 2 then s.updCtx ctx fun c => { c with sab := BitVec.ofNat 38 (bits w 26 38) }
    else s

/-- CTXMAP_SELECT, CTXMAP_WRITE_SLOT and CTXMAP_WRITE_SAB: the writes of CTXMAP with OP 0, 1 and 2; a word with another OP is
no such write. -/
def execCtxmapSelect (cl : Fin 16) (w : Word) (s : State) : Host.Outcome State Fault Refusal :=
  event (fun s => if bits w.toNat 0 2 = 0 then s.writeCtxmap cl w else s) s

/-- CTXMAP_WRITE_SLOT. -/
def execCtxmapWriteSlot (cl : Fin 16) (w : Word) (s : State) : Host.Outcome State Fault Refusal :=
  event (fun s => if bits w.toNat 0 2 = 1 then s.writeCtxmap cl w else s) s

/-- CTXMAP_WRITE_SAB. -/
def execCtxmapWriteSab (cl : Fin 16) (w : Word) (s : State) : Host.Outcome State Fault Refusal :=
  event (fun s => if bits w.toNat 0 2 = 2 then s.writeCtxmap cl w else s) s

/-- Whether a write with WR leaves ISOCFG as it is (R404): what the shares of isolated contexts, or guaranteed bandwidth,
would come to. -/
def State.isocfgKeeps (s : State) (w : Nat) : Bool :=
  let ctx := bits w 0 12
  let iso := w.testBit 13
  let others := s.ctxs.filter fun c => c.1 != ctx
  let sum := fun (p : Context → Bool) (f : Context → Nat) => ((others.filter fun c => p c.2).map fun c => f c.2).sum
  let sc := bits w 14 6
  let tc := bits w 20 6
  let bw := bits w 26 7
  !s.resident ctx || (iso && (sc = 0 || tc = 0)) ||
    (iso && (decide (32 < sum Context.iso (fun c => c.sc.toNat) + sc) || decide (32 < sum Context.iso (fun c => c.tc.toNat) + tc))) ||
    (w.testBit 33 && decide (64 < sum Context.fix (fun c => c.bw.toNat) + bw)) || decide (32 < sc) || decide (32 < tc) || decide (64 < bw)

/-- Partitions that have shrunk give up their surplus, one that is no more gives up all: every station's entries and every stack's
sectors, each context by itself (R28, R404). -/
def State.fitShares (s : State) : State :=
  let ids := 0 :: s.ctxs.map fun c => c.1
  let s := { s with sectors := s.sectors.filter fun e => e.1 % 2 ^ 13 = 0 || (s.ctx (e.1 % 2 ^ 13 - 1)).iso }
  let s := { s with stations := s.stations.map fun x => (x.1, { x.2 with tlb := ids.foldl (fun l ctx => s.trimTlb ctx l) x.2.tlb }) }
  ids.foldl (fun s ctx =>
    (List.range 12).foldl (fun s st => s.evict st (s.partition ctx) (s.sectorShare ctx) s.sectors.length) s) s

/-- A write of ISOCFG (R404). DEDUCED, entry 24. -/
def State.writeIsocfg (s : State) (cl : Fin 16) (v : Word) : State :=
  let w := v.toNat
  let select := fun s : State => s.updCluster cl fun q => { q with isoCtx := BitVec.ofNat 12 (bits w 0 12) }
  if !w.testBit 12 then select s
  else if s.isocfgKeeps w then s
  else
    ((select s).updCtx (bits w 0 12) fun c => { c with
      iso := w.testBit 13, sc := BitVec.ofNat 6 (bits w 14 6), tc := BitVec.ofNat 6 (bits w 20 6), bw := BitVec.ofNat 7 (bits w 26 7),
      fix := w.testBit 33 }).fitShares

/-- ISOCFG_SELECT: a write with WR 0. -/
def execIsocfgSelect (cl : Fin 16) (w : Word) (s : State) : Host.Outcome State Fault Refusal :=
  event (fun s => if w.getLsbD 12 = false then s.writeIsocfg cl w else s) s

/-- ISOCFG_SET: a write with WR 1. -/
def execIsocfgSet (cl : Fin 16) (w : Word) (s : State) : Host.Outcome State Fault Refusal :=
  event (fun s => if w.getLsbD 12 = true then s.writeIsocfg cl w else s) s

end Sys2Proof.Machine
end

