-- ==== Sys2Proof/Machine/Csr.lean ====
section
/-! DEFINITION. The CSR forms of major 0x02: the table of R100, what each CSR reads and what a write of it does (chapters
The thread and its core, The stream, The accumulator handle and the matrix unit, The adapter, The barrier, The group,
The kernel, The queue and The context). -/

namespace Sys2Proof.Machine

/-! ## The table (R100) -/

/-- The threads and kinds of core that name a CSR; none for a number that is not assigned. -/
def csrWho (n : Nat) : Option Who :=
  if [0x000, 0x001, 0x002, 0x003, 0x004, 0x008, 0x009, 0x00A, 0x00B, 0x00C, 0x00D, 0x010, 0x011, 0x012].contains n then some axAll
  else if n = 0x014 ∨ n = 0x01C then some aAll
  else if [0x015, 0x016, 0x01D, 0x01E, 0x020, 0x021].contains n then some xAll
  else if n = 0x022 then some ⟨true, true, [.compute, .memory]⟩
  else if n = 0x018 ∨ n = 0x019 then some aCompute
  else if [0x028, 0x029, 0x02A, 0x02B].contains n then some ⟨false, true, [.compute]⟩
  else if [0x030, 0x050, 0x051, 0x052].contains n then some ⟨true, true, [.compute]⟩
  else if [0x800, 0x808, 0x809, 0x810, 0x818, 0x820, 0x828].contains n then some aControl
  else none

/-- Whether a CSR has a writable field (R100). -/
def csrWritable (n : Nat) : Bool :=
  [0x008, 0x009, 0x00A, 0x00B, 0x00C, 0x010, 0x011, 0x012, 0x014, 0x015, 0x016, 0x01C, 0x01D, 0x01E, 0x020, 0x021, 0x022,
    0x02A, 0x02B, 0x808, 0x810, 0x818, 0x820, 0x828].contains n

/-- The levels a read and a write need, where they are more than user; the CSRs of control cores are met at supervisor level
only (R98, R100). -/
def csrReadNeed (n : Nat) : Priv := if [0x009, 0x00A, 0x00B].contains n then .handler else .user
def csrWriteNeed (n : Nat) : Priv :=
  if [0x008, 0x009, 0x00A, 0x00B, 0x011, 0x012, 0x01C, 0x01D, 0x01E, 0x021, 0x022].contains n then .handler else .user

/-- What R101 asks of the CSR number. -/
def csrLegal (n : Nat) (write : Bool) (s : State) : Bool :=
  (match csrWho n with | some w => w.legal s | none => false) && (!write || csrWritable n)

/-! ## Reading -/

/-- The levels as their codes (R98). -/
def Priv.code : Priv → Nat
  | .user => 0
  | .handler => 1
  | .supervisor => 2

/-- The kinds as their codes (R102). -/
def Kind.code : Kind → Nat
  | .compute => 0
  | .transfer => 1
  | .control => 2
  | .memory => 3
  | .management => 4

/-- TSTAT of the running thread, whose WREASON reads 0 (R104). -/
def ThreadState.tstat (h : ThreadState) (a : ThreadState) : Nat :=
  Priv.code h.priv + Priv.code h.ppriv * 4 + h.discarded.toNat * 16 + a.wchan.toNat * 2 ^ 8 + a.wkick.toNat * 2 ^ 9

/-- RPTSTAT (R166). -/
def RptStat.word (r : RptStat) : Nat :=
  r.active.toNat + r.body.toNat * 2 + r.len.toNat * 2 ^ 5 + r.period.toNat * 2 ^ 9 + r.mask.toNat * 2 ^ 11 +
    r.iter.toNat * 2 ^ 16 + r.count.toNat * 2 ^ 40

/-- STRSTAT (R158). -/
def StrStat.word (r : StrStat) : Nat :=
  r.slot.val + r.valid.toNat * 4 + r.late.toNat * 8 + r.idxf.toNat * 16 + r.cause.toNat * 2 ^ 8 + r.index.toNat * 2 ^ 16

/-- GANGCFG (R106). -/
def Gang.word (g : Gang) : Nat :=
  g.nfol.val + g.follower.toNat * 8 + g.active.toNat * 16 + g.compare.toNat * 32 + (if g.active then g.leader.val else 0) * 2 ^ 8

/-- The states of a barrier register as their codes (R350). -/
def BarState.code : BarState → Nat
  | .unconf => 0
  | .idle => 1
  | .arrived => 2
  | .done => 3
  | .broken => 4

/-- A barrier register's share of BARSTAT as a thread reads it (R350). -/
def Bar.word (b : Bar) (t : Thread) : Nat :=
  b.st.code + (b.st ≠ .unconf && b.owner = t).toNat * 8 + b.gen.toNat * 16

/-- BARSTAT (R350). -/
def Core.barstat (k : Core) (t : Thread) : Nat :=
  ((List.range 4).map fun i => (Tbl.get Bar.init k.bars i).word t * 2 ^ (16 * i)).sum

/-- MQSTAT (R242). -/
def State.mqstat (s : State) (c : CoreName) : Nat :=
  match c with
  | .compute o x =>
    let own := (s.octet o).cmds.filter fun m => m.core = x
    (own.filter fun m => m.stage = .queued).length + min 15 (own.filter fun m => m.stage != .queued).length * 2 ^ 8 +
      (s.core c).mxErr.isSome.toNat * 2 ^ 12
  | _ => 0

/-- FLAGSUM: the sticky flags of a cluster as they stood 16 cycles ago (R107). DEDUCED, entry 14. -/
def State.flagsum (s : State) (cl : Fin 16) : Nat :=
  let flags := fun i => ((List.range 8).foldl (fun m j =>
    m ||| (s.core (.compute ⟨cl, Fin.ofNat 24 i⟩ (Fin.ofNat 8 j))).flagsSeen s.cycle) (0 : BitVec 5))
  let all := (List.range 24).map flags
  (all.foldl (fun m f => m ||| f) 0).toNat + ((List.range 24).map fun i => if all.getD i 0 = 0 then 0 else 2 ^ (16 + i)).sum

/-- EVQBASE and EVQSTAT (R397). -/
def Cluster.evqbase (q : Cluster) : Nat := q.evSzl.toNat + q.evBase.toNat * 2 ^ 6 + q.evEn.toNat * 2 ^ 16
def Cluster.evqstat (q : Cluster) : Nat := q.evCount + q.evHead * 2 ^ 16 + min 0xFFFF q.held.length * 2 ^ 32

/-- ARBW (R214). -/
def State.arbw (s : State) (cl : Fin 16) : Nat :=
  let o := (s.cluster cl).arbwOct
  o.toNat + (s.octet ⟨cl, Fin.ofNat 24 o.toNat⟩).weights.toNat * 2 ^ 8

/-- CTXMAP (R403). -/
def State.ctxmap (s : State) (cl : Fin 16) : Nat :=
  let q := s.cluster cl
  let ctx := q.ctxmapCtx.toNat
  ctx * 2 ^ 2 + q.ctxmapSlot.toNat * 2 ^ 14 + (s.slotMap ctx cl.val q.ctxmapSlot.toNat).code * 2 ^ 19 +
    (s.ctx ctx).sab.toNat * 2 ^ 26

/-- ISOCFG (R404). -/
def State.isocfg (s : State) (cl : Fin 16) : Nat :=
  let ctx := (s.cluster cl).isoCtx.toNat
  let c := s.ctx ctx
  ctx + c.iso.toNat * 2 ^ 13 + c.sc.toNat * 2 ^ 14 + c.tc.toNat * 2 ^ 20 + c.bw.toNat * 2 ^ 26 + c.fix.toNat * 2 ^ 33

/-- What a control core's CSR reads. -/
def State.clusterCsr (s : State) (cl : Fin 16) (n : Nat) : Nat :=
  if n = 0x800 then s.flagsum cl
  else if n = 0x808 then (s.cluster cl).evqbase
  else if n = 0x809 then (s.cluster cl).evqstat
  else if n = 0x810 then (s.cluster cl).placeWord.toNat
  else if n = 0x818 then s.arbw cl
  else if n = 0x820 then s.ctxmap cl
  else if n = 0x828 then s.isocfg cl
  else 0

/-- CORECFG (R102). -/
def corecfgOf (c : CoreName) : Nat := Kind.code c.kind + c.hasX.toNat * 8 + (if c.hasX then 10 else 0) * 16

/-- What a CSR of a core and a thread reads (R100): no register aliased to an enabled slot is dead (R91). DESIGN CHOICE, entry 15: an
X-thread, whose core's kicks and channels are its A-thread's, reads WCHAN and WKICK as 0. -/
def State.csr (s : State) (c : CoreName) (t : Thread) (n : Nat) : Nat :=
  let k := s.core c
  let h := k.th t
  match n with
  | 0x000 => s.cycle - k.islandStart
  | 0x001 => s.timeWord.toNat
  | 0x002 => c.coordWord
  | 0x003 => corecfgOf c
  | 0x004 => k.ctxid.toNat
  | 0x008 => h.tvec.toNat * 2 ^ 6
  | 0x009 => h.tpc.toNat * 4
  | 0x00A => h.tcause.toNat
  | 0x00B => h.tval.toNat
  | 0x00C => h.tstat (match t with | .a => k.a | .x => ThreadState.init)
  | 0x00D => k.xb.toNat * 2 ^ 8
  | 0x010 => h.ssp.toNat * 8
  | 0x011 => h.sslo.toNat * 8
  | 0x012 => h.sshi.toNat * 8
  | 0x014 => k.a.conv.toNat
  | 0x015 => k.x.conv.toNat
  | 0x016 => k.x.convv.toNat
  | 0x018 => k.gang.word
  | 0x019 => k.gang.pos.val
  | 0x01C => k.a.dead.toNat
  | 0x01D => (k.x.dead &&& ~~~k.aliasMask).toNat
  | 0x01E => (k.x.deadv &&& ~~~k.aliasMask).toNat
  | 0x020 => k.fcsr.toNat
  | 0x021 => k.rpt.word
  | 0x022 => h.strstat.word
  | 0x028 => k.gauge.toNat
  | 0x029 => s.mqstat c
  | 0x02A => k.adtbase.toNat
  | 0x02B => k.mgen.toNat
  | 0x030 => k.barstat t
  | 0x050 => k.groupid.toNat
  | 0x051 => k.kernelid.toNat
  | 0x052 => k.griddim.toNat
  | _ => match c with
    | .control cl => s.clusterCsr cl n
    | _ => 0

/-! ## Writing -/

/-- The level that a code in PPRIV stands for; a write that R104 refuses leaves the field. -/
def ThreadState.writeTstat (h : ThreadState) (super : Bool) (w : Nat) : ThreadState :=
  let p := bits w 2 2
  { h with
      discarded := h.discarded && !w.testBit 4
      ppriv :=
        if h.priv = .user ∨ p = 3 ∨ (p = 2 ∧ super = false) then h.ppriv
        else if p = 2 then .supervisor else if p = 1 then .handler else .user }

/-- Dead marks as a write sets them (R105): a register made dead holds zero, one made live keeps the zero it had. -/
def Core.writeDeadG (k : Core) (w : BitVec 32) : Core :=
  let m := w &&& ~~~1#32
  let k := { k with a := { k.a with dead := 0 } }
  k.killG m
def Core.writeDeadF (k : Core) (w : BitVec 32) : Core :=
  let m := w &&& ~~~k.aliasMask
  let k := { k with x := { k.x with dead := 0 } }
  k.killF m
def Core.writeDeadV (k : Core) (w : BitVec 32) : Core :=
  let m := w &&& ~~~k.aliasMask
  let k := { k with x := { k.x with deadv := 0 } }
  k.killV m

/-- FCSR (R65): RM keeps its value where 5, 6 or 7 is written. -/
def Core.writeFcsr (k : Core) (w : Nat) : Core :=
  let rm := if 5 ≤ bits w 5 3 then k.rm else bits w 5 3
  { k with fcsr := BitVec.ofNat 9 (bits w 0 5 + rm * 2 ^ 5 + bits w 8 1 * 2 ^ 8) }

/-- RPTSTAT (R166) and STRSTAT (R158) from a written word. -/
def RptStat.ofWord (w : Nat) : RptStat :=
  ⟨w.testBit 0, BitVec.ofNat 4 (bits w 1 4), BitVec.ofNat 4 (bits w 5 4), BitVec.ofNat 2 (bits w 9 2), BitVec.ofNat 4 (bits w 11 4),
    BitVec.ofNat 24 (bits w 16 24), BitVec.ofNat 24 (bits w 40 24)⟩
def StrStat.ofWord (w : Nat) : StrStat :=
  ⟨Fin.ofNat 4 w, w.testBit 2, w.testBit 3, w.testBit 4, BitVec.ofNat 8 (bits w 8 8), BitVec.ofNat 48 (bits w 16 48)⟩

/-- A write of EVQBASE (R397): refused where SZL is outside 4 to 10, the ring passes 0x1_0000 or lies below XB, or it would move
while it holds records. Records held are stored once there is room (R399). DEDUCED, entry 15. -/
def State.writeEvqbase (s : State) (cl : Fin 16) (w : Nat) : State :=
  let q := s.cluster cl
  let szl := bits w 0 4
  let base := bits w 6 10
  if szl < 4 ∨ 10 < szl ∨ 0x10000 < base * 64 + 32 * 2 ^ szl ∨ base * 64 < s.xbOf (.control cl) ∨
      (q.evCount ≠ 0 ∧ (szl ≠ q.evSzl.toNat ∨ base ≠ q.evBase.toNat)) then s
  else
    (s.updCluster cl fun q =>
      { q with evSzl := BitVec.ofNat 4 szl, evBase := BitVec.ofNat 10 base, evEn := w.testBit 16, evHead := q.evHead % 2 ^ szl }).storeHeld cl

/-- The weights of an octet as a write sets them: a nibble of 0 leaves its weight (R214). -/
def mergeWeights (old : BitVec 32) (w : Nat) : BitVec 32 :=
  BitVec.ofNat 32 ((List.range 8).map fun k =>
    (if bits w (8 + 4 * k) 4 = 0 then bits old.toNat (4 * k) 4 else bits w (8 + 4 * k) 4) * 2 ^ (4 * k)).sum

/-- A write of ARBW (R214). -/
def State.writeArbw (s : State) (cl : Fin 16) (w : Nat) : State :=
  if 24 ≤ bits w 0 5 then s
  else
    (s.updCluster cl fun q => { q with arbwOct := BitVec.ofNat 5 (bits w 0 5) }).updOctet ⟨cl, Fin.ofNat 24 (bits w 0 5)⟩ fun o =>
      { o with weights := mergeWeights o.weights w }

/-- A write of a control core's CSR. -/
def State.writeClusterCsr (s : State) (cl : Fin 16) (n : Nat) (w : Word) : State :=
  if n = 0x808 then s.writeEvqbase cl w.toNat
  else if n = 0x810 then s.writePlace cl w
  else if n = 0x818 then s.writeArbw cl w.toNat
  else if n = 0x820 then s.writeCtxmap cl w
  else if n = 0x828 then s.writeIsocfg cl w
  else s

/-- A write of a CSR of a core and a thread: fields that are RO ignore it (R101, R138). -/
def State.writeCsr (s : State) (c : CoreName) (t : Thread) (n : Nat) (w : Word) : State :=
  let v := w.toNat
  let super := c.kind = .control || c.kind = .management
  match n with
  | 0x008 => s.updTh c t fun h => { h with tvec := BitVec.ofNat 10 (bits v 6 10) }
  | 0x009 => s.updTh c t fun h => { h with tpc := BitVec.ofNat 15 (bits v 2 15) }
  | 0x00A => s.updTh c t fun h => { h with tcause := BitVec.ofNat 8 v }
  | 0x00B => s.updTh c t fun h => { h with tval := w }
  | 0x00C => s.updTh c t fun h => h.writeTstat super v
  | 0x010 => s.updTh c t fun h => { h with ssp := BitVec.ofNat 14 (bits v 3 14) }
  | 0x011 => s.updTh c t fun h => { h with sslo := BitVec.ofNat 14 (bits v 3 14) }
  | 0x012 => s.updTh c t fun h => { h with sshi := BitVec.ofNat 14 (bits v 3 14) }
  | 0x014 => s.updTh c .a fun h => { h with conv := w }
  | 0x015 => s.updTh c .x fun h => { h with conv := w }
  | 0x016 => s.updTh c .x fun h => { h with convv := w }
  | 0x01C => s.updCore c fun k => k.writeDeadG (BitVec.ofNat 32 v)
  | 0x01D => s.updCore c fun k => k.writeDeadF (BitVec.ofNat 32 v)
  | 0x01E => s.updCore c fun k => k.writeDeadV (BitVec.ofNat 32 v)
  | 0x020 => s.updCore c fun k => k.writeFcsr v
  | 0x021 => s.updCore c fun k => { k with rpt := RptStat.ofWord v }
  | 0x022 => s.updTh c t fun h => { h with strstat := StrStat.ofWord v }
  | 0x02A => s.updCore c fun k => { k with adtbase := BitVec.ofNat 32 v }
  | 0x02B => s.updCore c fun k => { k with mgen := BitVec.ofNat 8 v }
  | _ => match c with
    | .control cl => s.writeClusterCsr cl n w
    | _ => s

/-! ## The instructions (R138) -/

/-- A CSR form: reg[d] receives the old value, then the CSR is written, where the form writes one. DEDUCED, entry 15. -/
def csrForm (write : Bool) (d : Reg) (a : List Reg) (c : BitVec 12) (new : Word → Word → Word) (s : State) :
    Host.Outcome State Fault Refusal :=
  issueIf (csrLegal c.toNat write) noHint (if write then csrWriteNeed c.toNat else csrReadNeed c.toNat) (seq do
    checkR (a.map fIn ++ [fOut d])
    let w ← match a with
      | r :: _ => rdR r
      | [] => pure 0
    let old ← ask fun s => BitVec.ofNat 64 (s.csr s.cur s.thr c.toNat)
    wrR d old
    if write then act fun s => s.writeCsr s.cur s.thr c.toNat (new old w)) s

/-- CSRR (R138). -/
def execCsrr (d : Reg) (c : BitVec 12) (s : State) : Host.Outcome State Fault Refusal := csrForm false d [] c (fun o _ => o) s

/-- CSRW (R138). -/
def execCsrw (d a : Reg) (c : BitVec 12) (s : State) : Host.Outcome State Fault Refusal := csrForm true d [a] c (fun _ w => w) s

/-- CSRS (R138). -/
def execCsrs (d a : Reg) (c : BitVec 12) (s : State) : Host.Outcome State Fault Refusal := csrForm true d [a] c (fun o w => o ||| w) s

/-- CSRC (R138). -/
def execCsrc (d a : Reg) (c : BitVec 12) (s : State) : Host.Outcome State Fault Refusal := csrForm true d [a] c (fun o w => o &&& ~~~w) s

/-! ## The same writes as steps -/

/-- ARBW_WRITE (R214). -/
def execArbwWrite (cl : Fin 16) (w : Word) (s : State) : Host.Outcome State Fault Refusal :=
  event (fun s => s.writeArbw cl w.toNat) s

/-- EVQBASE_WRITE (R397). -/
def execEvqbaseWrite (cl : Fin 16) (w : Word) (s : State) : Host.Outcome State Fault Refusal :=
  event (fun s => s.writeEvqbase cl w.toNat) s

/-- REGISTER_WRITE (R138): a write that the thread may make by R101; a change of the sticky flags is dated (R107). -/
def execRegisterWrite (c : CoreName) (t : Thread) (n : BitVec 12) (w : Word) (s : State) : Host.Outcome State Fault Refusal :=
  event (fun s =>
    let ok := csrLegal n.toNat true { s with cur := c, thr := t } && !((s.th c t).priv = .user && csrWriteNeed n.toNat = .handler)
    if ok then
      (s.writeCsr c t n.toNat w).updCore c fun k => k.noteFlags s.cycle ((s.core c).fcsr.setWidth 5)
    else s) s

end Sys2Proof.Machine
end

