-- ==== Sys2Proof/Machine/Page.lean ====
section
/-! DEFINITION. PINV and PPROBE; the ends of walks, room in a fault queue, and requests from other devices (chapter The page;
R441). -/

namespace Sys2Proof.Machine

/-- The twelve stations. -/
def allStations : List Nat := List.range 12

/-! ## PINV (R430, R431) -/

/-- A malformed operand word, or an operand outside its op's limits (R430). -/
def pageTrap {α : Type} : M α := trap Cause.queueProtocol 17

/-- A cached leaf maps a byte of a range. -/
def TlbLeaf.maps (t : TlbLeaf) (lo n : Nat) : Bool :=
  decide (t.page * 2 ^ levelLo t.level < lo + n ∧ lo < (t.page + 1) * 2 ^ levelLo t.level)

/-- Every station drops the leaves of a context that satisfy p, and its table entries (R431). -/
def State.dropLeaves (s : State) (ctx : Nat) (p : TlbLeaf → Bool) : State :=
  allStations.foldl (fun s st => s.updStation st fun q => { q with
    tlb := q.tlb.filter fun t => !(t.ctx = ctx && (!pteLeaf t.pte || p t)) }) s

/-- The cores in an entry's mask hear of its end with a bit of their kick words (R427, R428). -/
def State.kickMask (s : State) (st : Nat) (mask : BitVec 17) (bit : Nat) : State :=
  let v : Word := BitVec.ofNat 64 (2 ^ bit)
  let s := (List.range 16).foldl (fun s i =>
    if mask.getLsbD i then s.ring (.memory (Fin.ofNat 12 st) (Fin.ofNat 16 i)) v none 0 else s) s
  if mask.getLsbD 16 then s.ring .management v none 0 else s

/-- An entry leaves its station: its requests walk again, or fail, and its cores hear of it (R427). -/
def State.endFault (s : State) (st : Nat) (e : FaultEntry) (fail : Bool) : State :=
  let s := s.updStation st fun q => { q with
    faults := q.faults.filter fun f => f != e, failed := if fail then q.failed ++ e.waiting.map (·, Cause.pageFault) else q.failed }
  s.kickMask st e.mask (if fail then 62 else 63)

/-- The entries of a key leave every station that holds one; whether one did. -/
def State.endKey (s : State) (ctx key : Nat) (fail : Bool) : State × Bool :=
  allStations.foldl (fun p st =>
    match (p.1.station st).faults.find? fun f => f.ctx = ctx && f.key = key with
    | some e => (p.1.endFault st e fail, true)
    | none => p) (s, false)

/-- The limits of an operand word and its operand (R431). -/
def pinvBad (w v : Nat) : Bool :=
  let op := bits w 0 2
  let all := w.testBit 14
  let npg := bits w 16 32
  w.testBit 15 || bits w 48 16 != 0 ||
    (if op = 0 && !all then npg = 0 else npg != 0) || (op != 0 && all) ||
    (if op = 3 then decide (2 ^ 52 ≤ v) || v % 4096 != 0
     else if op = 0 && all then v != 0
     else bits v 60 4 != 0 || bits v 0 16 != 0)

/-- Whether a request of a context that waits in the queue of a sync object has come there by a leaf that a removal of [lo, lo + n)
removes, n none standing for every leaf: its access is not performed yet (R285, R431). -/
def State.syncUses (s : State) (ctx lo : Nat) (n : Option Nat) : Bool :=
  let uses := fun st va : Nat => match n, s.cachedLeaf st ctx va with
    | none, _ => true
    | some n, some t => t.maps lo n
    | some n, none => decide (lo ≤ va ∧ va < lo + n)
  s.syncq.any fun q => q.2.any fun r => match r with
    | .own c t _ => s.ctxOf c = ctx && match (s.th c t).pend with
      | .syncAsked ea _ => isExt ea.toNat && uses c.station (ea.toNat % 2 ^ 60)
      | _ => false
    | .other x va _ _ => x = ctx && uses 0 va

/-- PINV (R431): walks that wait begin after it, for each is made at its end; a removal waits for the accesses that have used what it
removes. DEDUCED, entry 26. -/
def execPinv (d a b : Reg) (s : State) : Host.Outcome State Fault Refusal :=
  issue aSuper noHint .user (seq do
    let w := (← rdG a).toNat
    let v := (← rdG b).toNat
    fenceAll
    if pinvBad w v then pageTrap
    let ctx := bits w 2 12
    if !(← ask fun s => s.resident ctx) then wrG d 2
    else match bits w 0 2 with
      | 0 =>
        if ← ask fun s => s.syncUses ctx v (if w.testBit 14 then none else some (2 ^ 16 * bits w 16 32)) then wait .fence
        act fun s => s.dropLeaves ctx fun t => w.testBit 14 || t.maps v (2 ^ 16 * bits w 16 32)
        wrG d 0
      | 3 =>
        if ← ask fun s => s.syncUses ctx 0 none then wait .fence
        act fun s => (s.updCtx ctx fun c => { c with root := v }).dropLeaves ctx fun _ => true
        wrG d 0
      | op =>
        let r ← ask fun s => s.endKey ctx (v / 2 ^ 16) (op = 2)
        act fun _ => r.1
        wrG d (if r.2 then 0 else 1)) s

/-! ## PPROBE (R432) -/

/-- The result of PROBE from a leaf of a level (R432). -/
def probeWord (va level : Nat) (e : Word) : Word :=
  let pa := ptePA e + va % 2 ^ levelLo level
  BitVec.ofNat 64 (1 + level * 2 + (if pteR e then 2 ^ 6 else 0) + (if pteW e then 2 ^ 7 else 0) + (if pteTwoD e then 2 ^ 8 else 0) +
    pa / 4096 % 2 ^ 40 * 2 ^ 12 + ptePitch e * 2 ^ 52)

/-- PROBE at a station (R432), or the cause where its walk met a granule that is not correct. -/
def State.probe (s : State) (st ctx va : Nat) : State × Except (BitVec 8) Word :=
  if !s.resident ctx then (s, .ok (BitVec.ofNat 64 (3 * 16)))
  else match s.cachedLeaf st ctx va with
    | some t => (s, .ok (probeWord va t.level t.pte))
    | none =>
      let w := s.walk st ctx va
      (s.walked st ctx va w, match w.eccCause with
        | some cause => .error cause
        | none => .ok (if w.code = 0 then probeWord va w.level w.pte else BitVec.ofNat 64 (w.level * 2 + w.code * 16)))

/-- The description of a fault entry (R432). -/
def FaultEntry.word (e : FaultEntry) : Word :=
  BitVec.ofNat 64 (e.key % 2 ^ 44 + e.ctx * 2 ^ 44 + e.code * 2 ^ 56 + (if e.wr then 2 ^ 58 else 0) + (if e.trapped then 2 ^ 59 else 0) + 2 ^ 63)

/-- Moving the oldest QUEUED entry to IN_SERVICE. -/
def serveOldest : List FaultEntry → List FaultEntry
  | [] => []
  | e :: es => if e.inService then e :: serveOldest es else { e with inService := true } :: es

/-- PPROBE (R432). DEDUCED, entry 26. -/
def execPprobe (d a b : Reg) (s : State) : Host.Outcome State Fault Refusal :=
  issue aSuper noHint .user (seq do
    let w := (← rdG a).toNat
    let v := (← rdG b).toNat
    let op := bits w 0 2
    let st := bits w 14 4
    if 1 < op ∨ 11 < st ∨ bits w 18 46 ≠ 0 ∨ (op = 0 ∧ 2 ^ 60 ≤ v) ∨ (op = 1 ∧ (bits w 2 12 ≠ 0 ∨ v ≠ 0)) then pageTrap
    if op = 0 then
      let r ← ask fun s => s.probe st (bits w 2 12) v
      match r.2 with
      | .ok w =>
        act fun _ => r.1
        wrG d w
      | .error cause => fun _ => trapKeep cause (BitVec.ofNat 64 v) r.1
    else
      match (← ask fun s => s.station st).faults.find? fun e => !e.inService with
      | none => wrG d 0
      | some e =>
        act fun s => s.updStation st fun q => { q with faults := serveOldest q.faults }
        wrG d e.word) s

/-! ## The stations' own steps (R423 to R427) -/

/-- STATION_WALK_END: the walk that was asked for first ends, for every request of its page (R424): a leaf is cached, a code
is a page fault for which each of them waits (R426), and where an entry's granule is not correct each of them fails. Requests that a
leaf cached since then serves need no walk. -/
def State.walkEnd (s : State) (st : Nat) : State :=
  match (s.station st).walks with
  | [] => s
  | w :: _ =>
    if !s.resident w.ctx ∨ (s.cachedLeaf st w.ctx w.va).isSome then
      s.updStation st fun q => { q with walks := q.walks.filter fun x => !(x.ctx = w.ctx && x.va / 2 ^ 16 = w.va / 2 ^ 16) }
    else s.walked st w.ctx w.va (s.walk st w.ctx w.va)

/-- STATION_WALK_END. -/
def execStationWalkEnd (s : Fin 12) (t : State) : Host.Outcome State Fault Refusal := event (fun t => t.walkEnd s.val) t

/-- The entry that has waited longest for room is posted, or joins one of its key that has come since; `es` go on waiting. -/
def State.roomFor (s : State) (st : Nat) (e : FaultEntry) (es : List FaultEntry) : State :=
  ((s.updStation st fun q => { q with full := [] }).postFault st e).updStation st fun q => { q with full := es }

/-- FAULT_QUEUE_ROOM (R427). -/
def State.faultRoom (s : State) (st : Nat) : State :=
  match (s.station st).full with
  | [] => s
  | e :: es =>
    if (s.station st).faults.length < 64 then s.roomFor st e es else s

/-- FAULT_QUEUE_ROOM. -/
def execFaultQueueRoom (s : Fin 12) (t : State) : Host.Outcome State Fault Refusal := event (fun t => t.faultRoom s.val) t

/-! ## Requests from other devices (R429, R441) -/

/-- The atomics by their code (R277). -/
def amoOf (op : Nat) : Option AmoOp :=
  [AmoOp.add, .and, .or, .xor, .min, .max, .minu, .maxu, .swap, .cas][op]?

/-- A read-modify-write of n aligned bytes at their home here, if the page maps them and the granules are good (R278). -/
def State.remoteModify (s : State) (ctx va n : Nat) (f : State → Nat → State) : State :=
  let t := s.microTranslate 0 ctx va n true true (.remote ctx va)
  match t.2 with
  | .home a =>
    if va % n ≠ 0 then t.1
    else
      let q := t.1.checkRead a n
      if q.2.isSome then q.1 else f q.1 a
  | _ => t.1

/-- REMOTE_REQUEST: a request of another device is translated and checked under its context as a local one, and performed
(R441); a page fault waits for service. A sync request waits in its object's queue with the others until its turn is come and its
condition holds (R285). DEDUCED, entry 26. -/
def State.remoteRequest (s : State) (ctx va : Nat) (r : RemoteReq) : State :=
  match r with
  | .read n => (s.microRead 0 ctx va n (.remote ctx va)).1
  | .write data => (s.microWrite 0 ctx va data (.remote ctx va)).1
  | .amo op w y x =>
    let n := if w then 8 else 4
    s.remoteModify ctx va n fun s a =>
      match (amoOf op).bind fun o => o.new n (s.readLE a n) (y.toNat % 2 ^ (8 * n)) (x.toNat % 2 ^ (8 * n)) with
      | some v => s.store a n v
      | none => s
  | .add fmt v =>
    if fmt < 5 ∨ 10 < fmt then s
    else
      let n := fmtWidth fmt / 8
      s.remoteModify ctx va n fun s a =>
        s.store a n (leBytes (redLanes fmt n 1 (bytesOf n (s.readLE a n)) (bytesOf n v.toNat)).1)
  | .acq wr holder =>
    s.remoteModify ctx va 32 fun s a =>
      { s with syncq := Tbl.upd [] s.syncq a fun q => q ++ [SyncReq.other ctx va wr holder] }.grantAll a
  | .rel wr =>
    s.remoteModify ctx va 32 fun s a =>
      let w := s.word a
      if lockBad w || (if wr then !lockW w else lockReaders w = 0) then s
      else (s.putWord a (if wr then lockMake w false (lockReaders w) 1 else lockMake w false (lockReaders w - 1) 0)).grantAll a

/-- REMOTE_REQUEST. -/
def execRemoteRequest (ctx : BitVec 12) (va : BitVec 60) (r : RemoteReq) (s : State) : Host.Outcome State Fault Refusal :=
  event (fun s => s.remoteRequest ctx.toNat va.toNat r) s

end Sys2Proof.Machine
end

