-- ==== Sys2Proof/Machine/Link.lean ====
section
/-! DEFINITION. Ports, device time, the frame path and the host queues: major 0x1D and the steps of the outside world (chapter
The link). -/

namespace Sys2Proof

/-! ## Ports (R433 to R436) -/

/-- Ports of a kind (R433), and lanes of each (R434). -/
def PortKind.count : PortKind → Nat
  | .scaleUp => 18
  | .cxl => 8
  | .umval => 2
  | .frame => 4
def PortKind.lanes : PortKind → Nat
  | .scaleUp => 8
  | _ => 16
def PortName.lanes (p : PortName) : Nat := if p.kind = .frame then 8 else p.kind.lanes

/-- Whether a port exists. -/
def PortName.real (p : PortName) : Bool := decide (p.idx.val < p.kind.count)

/-- The port code word (R433). -/
def PortName.code (p : PortName) : Nat :=
  p.idx.val + (match p.kind with | .scaleUp => 0 | .cxl => 1 | .umval => 2 | .frame => 3) * 2 ^ 8

/-- The die a port is attached to (R13). -/
def PortName.die (p : PortName) : Nat :=
  match p.kind with
  | .scaleUp => if p.idx.val < 5 then 0 else if p.idx.val < 9 then 1 else if p.idx.val < 14 then 2 else 3
  | .cxl => p.idx.val / 2
  | _ => p.idx.val

end Sys2Proof

namespace Sys2Proof.Machine

/-- The port a code word names. -/
def portOf (w : Word) : Option PortName :=
  let k : PortKind := match bits w.toNat 8 2 with
    | 0 => .scaleUp
    | 1 => .cxl
    | 2 => .umval
    | _ => .frame
  if bits w.toNat 10 54 = 0 ∧ bits w.toNat 0 8 < k.count then some ⟨k, Fin.ofNat 18 (bits w.toNat 0 8)⟩ else none

/-- The code of a port's state (R435). -/
def PState.code : PState → Nat
  | .down => 0
  | .training => 1
  | .up => 2
  | .degraded => 3
  | .failed => 4

/-- A record of the management core, under its next number (R399); a stopped management core posts none (R115). -/
def State.postMgmt (s : State) (cl : Fin 16) (kind obj status : Nat) (value : Word) : State :=
  if s.life.mstop then s
  else { s with mgmtSeq := s.mgmtSeq + 1 }.post cl kind obj 0 status value (some s.mgmtSeq)

/-- The port that a request to a home is in flight on (R442). -/
def State.portOfHome (s : State) : Home → Option PortName
  | .here a => if a < 2 ^ 52 then (portKindOf a).bind fun k => s.portFor k a else none
  | .remote n _ va => if n = s.life.domain then none else s.portFor .scaleUp va

/-- A store that is lost is performed or not, an open choice, and its thread hears of it (R272, R442). -/
def State.loseStore (s : State) (c : CoreName) (r : RStore) : State :=
  let k := (s.updTh c .a fun h => { h with relaxFail := h.relaxFail.orElse fun _ => some (Cause.accessRights, lostEa r.ea.toNat) }).fresh
  if Config.freeBool k.1 then k.2.performRelaxed c r else k.2

/-- The relaxed stores of a core that are in flight on a port are lost; one that still has to wait is not in flight. -/
def State.loseStores (s : State) (p : PortName) (c : CoreName) : State :=
  let l := (s.th c .a).relaxed
  let gone := fun (s : State) before (r : RStore) =>
    !r.stuck s c before && (match r.home s c with | .at_ h => s.portOfHome h = some p | _ => false)
  if l.isEmpty then s
  else
    let q := l.foldl (fun (q : State × List RStore) r => if gone q.1 q.2 r then (q.1.loseStore c r, q.2) else (q.1, q.2 ++ [r])) (s, [])
    q.1.updTh c .a fun h => { h with relaxed := q.2 }

/-- What is in flight on a port that fails is lost (R434, R442). -/
def State.losePort (s : State) (p : PortName) : State := s.cores.foldl (fun s e => s.loseStores p (CoreName.ofIndex e.1)) s

/-- Every port of a kind. -/
def allPorts (k : PortKind) : List PortName := (List.range k.count).map fun i => ⟨k, Fin.ofNat 18 i⟩

/-- A port comes to a state with a number of lanes up, what is in flight on it lost where it carries no traffic any more (R434); a
change of state posts LINK_EVENT (R435). -/
def State.movePort (s : State) (p : PortName) (st : PState) (lanes : Nat) : State :=
  let old := (s.port p).st
  let s := if (s.port p).live && st != .up && st != .degraded then s.losePort p else s
  let s := s.updPort p fun q => { q with st := st, lanes := lanes }
  if old = st then s
  else s.postMgmt (Fin.ofNat 16 (4 * p.die)) 8 p.code st.code (BitVec.ofNat 64 (old.code + lanes * 2 ^ 8))

/-- Power-on goes on (R457): once the training of step 6 has ended with a port to the host, the ports of step 7 train; once theirs has
ended, the device is up. -/
def State.bootNext (s : State) : State :=
  let training := fun l : List PortName => l.any fun p => (s.port p).st = .training
  let rest := allPorts .scaleUp ++ allPorts .cxl ++ allPorts .frame
  if s.life.bootStep = 6 && !training (allPorts .umval) && s.portUp .umval then
    rest.foldl (fun s p => s.movePort p .training 0) { s with life := { s.life with bootStep := 7 } }
  else if s.life.bootStep = 7 && !training rest then { s with life := { s.life with bootStep := 8 } }
  else s

/-- The same, and what power-on makes of it. -/
def State.setPort (s : State) (p : PortName) (st : PState) (lanes : Nat) : State := (s.movePort p st lanes).bootNext

/-- A counter of 16 bits that saturates. -/
def satInc (n : BitVec 16) (k : Nat) : BitVec 16 := BitVec.ofNat 16 (min 0xFFFF (n.toNat + k))

/-- A port retrains. -/
def State.retrain (s : State) (p : PortName) : State := s.updPort p fun q => { q with retrains := satInc q.retrains 1 }

/-- PORT_TRAINING_END: training ends with a number of lanes (R434). -/
def State.trainingEnd (s : State) (p : PortName) (lanes : Nat) : State :=
  if (s.port p).st ≠ .training ∨ !p.real then s
  else if p.lanes ≤ lanes then s.setPort p .up p.lanes
  else if p.lanes ≤ 2 * lanes ∧ p.kind ≠ .frame then s.setPort p .degraded lanes
  else s.setPort p .failed 0

/-- PORT_TRAINING_END. -/
def execPortTrainingEnd (p : PortName) (lanes : Nat) (s : State) : Host.Outcome State Fault Refusal :=
  event (fun s => s.trainingEnd p lanes) s

/-- PORT_TRAINING_TIMEOUT: training that lasts 1 ms fails (R434). -/
def execPortTrainingTimeout (p : PortName) (s : State) : Host.Outcome State Fault Refusal :=
  event (fun s => if (s.port p).st = .training then s.setPort p .failed 0 else s) s

/-- PORT_LANE_LOSS: lanes are lost; with at least half remaining the port retrains and is DEGRADED, but never a frame port
(R434). DEDUCED, entry 29. -/
def State.laneLoss (s : State) (p : PortName) (lanes : Nat) : State :=
  let q := s.port p
  if !q.live ∨ q.lanes ≤ lanes then s
  else if p.lanes ≤ 2 * lanes ∧ p.kind ≠ .frame then (s.retrain p).setPort p .degraded lanes
  else s.setPort p .failed 0

/-- PORT_LANE_LOSS. -/
def execPortLaneLoss (p : PortName) (lanes : Nat) (s : State) : Host.Outcome State Fault Refusal :=
  event (fun s => s.laneLoss p lanes) s

/-- PORT_FAILURE: fewer than half the lanes remain, or the peer is lost (R434). -/
def execPortFailure (p : PortName) (s : State) : Host.Outcome State Fault Refusal :=
  event (fun s => if (s.port p).live then s.setPort p .failed 0 else s) s

/-- LSTAT (R436): its transition, then the port's status. How many link errors were corrected since the last look is open. DEDUCED, entry 29. -/
def lstat (who : Who) (go : PortName → State → State) (d a : Reg) (s : State) : Host.Outcome State Fault Refusal :=
  issue who noHint .user (seq do
    let w ← rdG a
    match portOf w with
    | none => trap Cause.queueProtocol 18
    | some p =>
      act fun s => go p s
      act fun s =>
        let k := s.fresh
        k.2.updPort p fun q => { q with errors := satInc q.errors ((Config.freeWord k.1).toNat % 2 ^ 16) }
      let s ← get
      let q := s.port p
      wrG d (BitVec.ofNat 64 (q.st.code + q.lanes * 2 ^ 3 + q.errors.toNat * 2 ^ 16 + q.retrains.toNat * 2 ^ 32 +
        s.life.domain % 256 * 2 ^ 56))) s

/-- The threads that may read a port and those that may change one (R436). -/
def aPort : Who := ⟨true, false, [.control, .memory, .management]⟩
def aMgmt : Who := ⟨true, false, [.management]⟩

/-- LSTAT READ. -/
def execLstatRead (d a : Reg) (s : State) : Host.Outcome State Fault Refusal := lstat aPort (fun _ s => s) d a s

/-- LSTAT ENABLE (R434): a port whose island is STOPPED stays DOWN (R21, R464). DEDUCED, entry 30. -/
def execLstatEnable (d a : Reg) (s : State) : Host.Outcome State Fault Refusal :=
  lstat aMgmt (fun p s => if (s.port p).st = .down ∧ s.islandRuns (portIsland p) = true then s.setPort p .training 0 else s) d a s

/-- LSTAT DISABLE (R434). -/
def execLstatDisable (d a : Reg) (s : State) : Host.Outcome State Fault Refusal :=
  lstat aMgmt (fun p s => s.setPort p .down 0) d a s

/-- LSTAT RETRAIN (R434). -/
def execLstatRetrain (d a : Reg) (s : State) : Host.Outcome State Fault Refusal :=
  lstat aMgmt (fun p s => if (s.port p).st = .failed then (s.retrain p).setPort p .training 0 else s) d a s

/-! ## Device time (R446, R447) -/

/-- The two words of a stamp (R447). -/
def Stamp.words (t : Stamp) : Word × Word := (BitVec.ofNat 64 (t.ns % 2 ^ 32 + t.frac % 2 ^ 16 * 2 ^ 32), t.sec.setWidth 64)

/-- TIMERD (R447). -/
def execTimerd (d a : Reg) (s : State) : Host.Outcome State Fault Refusal :=
  issue aAll noHint .user (seq do
    let ea ← rdG a
    let t ← ask State.time
    if ea ≠ 0 then
      let p ← ownLocal ea.toNat 8 8
      if ea.toNat % 16 ≠ 0 then trap Cause.misaligned ea
      orderRelaxed (.here p) 16
      act fun s => s.storeWords p [t.words.1, t.words.2]
    wrG d (← ask State.timeWord)) s

/-- PTP_MESSAGE: a 1588 message with the time it carries and whether the servo, which starts in power-on step 7 (R457), is locked by it. Time is stepped only while
no context but 0 is resident, and never back; else it is slewed, while the servo is locked (R446). DEDUCED, entry 29. -/
def State.ptp (s : State) (t : Stamp) : State :=
  let new := t.sec.toNat * 1000000000 + t.ns
  if s.life.mstop || s.life.bootStep < 7 then s
  else if s.ctxs.any (fun c => c.1 != 0 && c.2.resident) ∨ 1000000000 ≤ t.ns ∨ new < s.nowNs ∨ (new = s.nowNs ∧ t.frac < s.time.frac) then
    { s with time := { s.time with locked := t.locked } }
  else { s with time := t }

/-- PTP_MESSAGE. -/
def execPtpMessage (sec : BitVec 48) (ns : BitVec 32) (frac : BitVec 16) (locked : Bool) (s : State) :
    Host.Outcome State Fault Refusal :=
  event (fun s => s.ptp ⟨sec, ns.toNat, frac.toNat, locked⟩) s

/-! ## The frame path (R448 to R455) -/

/-- The tables of a bank in stack 0 (R449). -/
def bankBase (b : Bool) : Nat := if b then 0x200000 else 0

/-- A frame queue's entry (R451). -/
structure FrameEntry where
  w0 : Word
  w1 : Word
  w2 : Word
  w3 : Word
  deriving DecidableEq, Repr

def FrameEntry.qk (e : FrameEntry) : Bool := e.w0.getLsbD 1
def FrameEntry.ctx (e : FrameEntry) : Nat := bits e.w0.toNat 2 12
def FrameEntry.ssz (e : FrameEntry) : Nat := bits e.w0.toNat 14 4
def FrameEntry.nsl (e : FrameEntry) : Nat := bits e.w0.toNat 18 4
def FrameEntry.off (e : FrameEntry) : Nat := bits e.w1.toNat 0 20
def FrameEntry.slot (e : FrameEntry) : Nat := bits e.w1.toNat 20 5
def FrameEntry.cl (e : FrameEntry) : Fin 16 := Fin.ofNat 16 (bits e.w1.toNat 25 4)
def FrameEntry.va (e : FrameEntry) : Nat := bits e.w1.toNat 0 60
def FrameEntry.kbit (e : FrameEntry) : Nat := bits e.w3.toNat 0 6
def FrameEntry.evcl (e : FrameEntry) : Fin 16 := Fin.ofNat 16 (bits e.w3.toNat 6 4)

/-- An entry that is enabled and keeps the table of R451. -/
def FrameEntry.enabled (e : FrameEntry) : Bool :=
  e.w0.getLsbD 0 && bits e.w0.toNat 22 42 = 0 && bits e.w3.toNat 10 54 = 0 && decide (11 ≤ e.ssz ∧ e.ssz ≤ 14 ∧ 4 ≤ e.nsl) &&
  !targetBad e.w2 &&
  (if e.qk then bits e.w1.toNat 60 4 = 0 && e.va % 2 ^ e.ssz = 0
   else bits e.w1.toNat 29 35 = 0 && decide (e.slot < 24) && e.off % 2 ^ e.ssz = 0 && decide (e.off + 2 ^ (e.ssz + e.nsl) ≤ 2 ^ 20))

/-- Queue q's entry in a bank. -/
def frameEntryAt (b : Bool) (q : Nat) : Nat := bankBase b + 0x10000 + 32 * q
def State.frameEntry (s : State) (b : Bool) (q : Nat) : FrameEntry :=
  let a := frameEntryAt b q
  ⟨s.word a, s.word (a + 8), s.word (a + 16), s.word (a + 24)⟩

def State.frameQ (s : State) (q : Nat) : FrameQ := Tbl.get FrameQ.init s.frameQs q
def State.updFrameQ (s : State) (q : Nat) (f : FrameQ → FrameQ) : State :=
  { s with frameQs := Tbl.upd FrameQ.init s.frameQs q f }

/-- The bank that the bank-select word names (R449). -/
def State.namedBank (s : State) : Bool := (s.byte 0x3FF000).getLsbD 0

/-- A queue at a flip (R449): one that is enabled and whose entry differs between the banks restarts empty. DESIGN CHOICE, entry 29: so
does one with an entry whose granule is not correct, which is poisoned (R29, R274). -/
def State.restartQueue (s : State) (q : Nat) : State :=
  let a := s.checkRead (frameEntryAt false q) 32
  let b := a.1.checkRead (frameEntryAt true q) 32
  let e := s.frameEntry false q
  let o := s.frameEntry true q
  if a.2.isSome ∨ b.2.isSome ∨ (e ≠ o ∧ (e.enabled || o.enabled) = true) then b.1.updFrameQ q fun _ => FrameQ.init else s

/-- The frame path follows the bank-select word, whoever has stored to it (R449); a word whose granule is not correct names no bank
(R29). -/
def State.followBank (s : State) : State :=
  let new := s.namedBank
  if new = s.frameBank || s.mark 0x3FF000 != .ok then s
  else { (List.range 256).foldl State.restartQueue s with frameBank := new }

/-- FRAME_BANK_FLIP: a store-release of a word to the bank-select word, which a bad granule there turns away (R275, R449). -/
def State.bankFlip (s : State) (w : Word) : State :=
  let q := s.checkWrite 0x3FF000 8
  if q.2.isSome then q.1 else (q.1.store 0x3FF000 8 w.toNat).followBank

/-- FRAME_BANK_FLIP. -/
def execFrameBankFlip (w : Word) (s : State) : Host.Outcome State Fault Refusal := event (fun s => s.bankFlip w) s

/-- Whether a frame of a port matches a rule of the active bank (R450). DESIGN CHOICE, entry 29: a bit or a byte of the rule that R450
says is 0 plays no part, for R450 names no failure when it is not. -/
def State.ruleMatches (s : State) (p : Fin 4) (frame : List Byte) (r : Nat) : Bool :=
  let a := bankBase s.frameBank + 256 * r
  let c := s.word (a + 128)
  c.getLsbD 29 && c.getLsbD p.val && (List.range 64).all fun i => (frame.getD i 0) &&& s.byte (a + 64 + i) = s.byte (a + i)

/-- The rules of the active bank with a granule that is not correct. -/
def State.badRules (s : State) : Bool :=
  s.marks.any fun m => decide (bankBase s.frameBank ≤ m.1 ∧ m.1 < bankBase s.frameBank + 0x10000)

/-- The control word of the rule that gives a frame its queue (R450). -/
def State.ruleOf (s : State) (p : Fin 4) (frame : List Byte) : Option Word :=
  ((List.range 256).find? (s.ruleMatches p frame)).map fun r => s.word (bankBase s.frameBank + 256 * r + 128)

/-- Where the parts of a range of a context's addresses live, each with its bytes; none where one is not translated (R452, R453). -/
def State.framePlaces (s : State) (st ctx : Nat) : List (Nat × Nat) → State × Option (List (Nat × Nat))
  | [] => (s, some [])
  | p :: ps =>
    let t := s.translate st ctx p.1 false true
    match t.2 with
    | .home a =>
      let r := (t.1.touch st ctx p.1 a p.2 false true).framePlaces st ctx ps
      (r.1, r.2.map fun l => (a, p.2) :: l)
    | _ => (t.1, none)

/-- Where the n bytes of a frame's record and payload would land, in parts, or why it is dropped: 0 full, 1 switched out or untranslated, 2
disabled (R453). -/
def State.frameSlot (s : State) (p : Fin 4) (e : FrameEntry) (q : FrameQ) (n : Nat) : State × Except Nat (List (Nat × Nat)) :=
  if !e.enabled then (s, .error 2)
  else if 2 ^ e.nsl ≤ (q.tail - q.free).toNat then (s, .error 0)
  else
    let at_ := 2 ^ e.ssz * (q.tail.toNat % 2 ^ e.nsl)
    if e.qk then
      let t := s.framePlaces (3 * p.val) e.ctx (pageParts (n / 1024 + 2) (e.va + at_) n)
      (t.1, match t.2 with | some l => .ok l | none => .error 1)
    else match s.slotMap e.ctx e.cl.val e.slot with
      | .mapped o =>
        if (s.octet ⟨e.cl, o⟩).owner = e.ctx ∧ s.loading ⟨e.cl, o⟩ = false then
          (s, .ok [(scratchBase ⟨e.cl, o⟩ + e.off + at_, n)]) else (s, .error 1)
      | _ => (s, .error 1)

/-- The number of the next record a frame port emits (R448). -/
def State.portNumber (s : State) (p : Fin 4) : State × Nat :=
  ({ s with portSeq := Tbl.upd 0 s.portSeq p.val fun n => n + 1 }, Tbl.get 0 s.portSeq p.val)

/-- A frame that is dropped: the first since the last landing posts FRAME_DROP (R453). -/
def State.frameDrop (s : State) (p : Fin 4) (n : Nat) (e : FrameEntry) (status flow len : Nat) : State :=
  let first := !(s.frameQ n).posted
  let s := s.updFrameQ n fun q => { q with fdrop := q.fdrop + 1, posted := true }
  if first then
    let k := s.portNumber p
    k.1.post e.evcl 10 n e.ctx status (BitVec.ofNat 64 (flow + len % 2 ^ 16 * 2 ^ 16)) (some k.2)
  else s

/-- Writing bytes over places in order. -/
def State.writePlaces (s : State) : List (Nat × Nat) → List Byte → State
  | [], _ => s
  | p :: ps, bytes => ((s.clearMarks p.1 p.2).writeBytes p.1 (bytes.take p.2)).writePlaces ps (bytes.drop p.2)

/-- The bytes of a frame that a slot has room for (R452). -/
def FrameEntry.cap (e : FrameEntry) (frame : List Byte) : Nat := min frame.length (2 ^ e.ssz - 64)

/-- A frame lands at the places found for it: header and payload, then TAIL, then the kick (R452). It is marked UNLOCKED until power-on
step 7 has ended (R457). -/
def State.frameLand (s : State) (p : Fin 4) (n : Nat) (e : FrameEntry) (l : List (Nat × Nat)) (flow : Nat) (stamp : Stamp)
    (frame : List Byte) : State :=
  let k := s.portNumber p
  let q := s.frameQ n
  let len := frame.length
  let cap := e.cap frame
  let s := k.1
  let w3 := len % 2 ^ 16 + flow * 2 ^ 16 + cap * 2 ^ 32 + (if cap < len then 2 ^ 48 else 0) + (if q.fdrop ≠ 0 then 2 ^ 49 else 0) +
    (if s.frameBank then 2 ^ 50 else 0) + (if stamp.locked && decide (8 ≤ s.life.bootStep) then 0 else 2 ^ 51)
  let head := [stamp.words.1, stamp.words.2 + BitVec.ofNat 64 (p.val * 2 ^ 48), BitVec.ofNat 64 k.2, BitVec.ofNat 64 w3,
    BitVec.ofNat 64 q.fdrop, s.timeWord, 0, 0]
  let s := s.writePlaces l (head.flatMap (fun w : Word => bytesOf 8 w.toNat) ++ frame.take cap)
  let s := s.updFrameQ n fun q => { q with tail := q.tail + 1, fdrop := 0, posted := false }
  s.sendMsg ⟨e.ctx, if e.ctx = 0 then .control else .compute, e.w2, 0, 0, .kick (BitVec.ofNat 64 (2 ^ e.kbit)) none⟩

/-- FRAME_INGRESS: a frame arrives at a port that is UP, is stamped and classified by the active bank, and lands or is dropped
(R448, R450, R452, R453). One that needs a table word that cannot be read is dropped and counted, the word poisoned (R29, R274).
DEDUCED, entry 29. -/
def State.frameIn (s : State) (p : Fin 4) (frame : List Byte) (fcsOk : Bool) : State :=
  let drop := fun s : State => { s with ruleDrops := s.ruleDrops + 1 }
  if (s.port ⟨.frame, Fin.ofNat 18 p.val⟩).st ≠ .up then s
  else if !fcsOk then { s with badFrames := s.badFrames + 1 }
  else if s.badRules then drop (s.checkRead (bankBase s.frameBank) 0x10000).1
  else match s.ruleOf p frame with
    | none => s
    | some c =>
      if c.getLsbD 28 then drop s
      else
        let n := bits c.toNat 20 8
        let flow := bits c.toNat 4 16
        let stamp := s.time
        let t := s.checkRead (frameEntryAt s.frameBank n) 32
        let e := s.frameEntry s.frameBank n
        let r := s.frameSlot p e (s.frameQ n) (64 + e.cap frame)
        if t.2.isSome then drop t.1
        else match r.2 with
        | .ok l => r.1.frameLand p n e l flow stamp frame
        | .error st => r.1.frameDrop p n e st flow frame.length

/-- FRAME_INGRESS. -/
def execFrameIngress (p : Fin 4) (frame : List Byte) (fcsOk : Bool) (s : State) : Host.Outcome State Fault Refusal :=
  event (fun s => s.frameIn p frame fcsOk) s

/-- FRPOP (R454). -/
def execFrpop (d a : Reg) (s : State) : Host.Outcome State Fault Refusal :=
  issue ⟨true, false, [.compute, .memory]⟩ noHint .user (seq do
    let w ← rdG a
    if bits w.toNat 9 55 ≠ 0 then trap Cause.queueProtocol 18
    let n := bits w.toNat 0 8
    granuleTrap w.toNat (frameEntryAt (← ask State.frameBank) n) (← ask fun s => s.checkRead (frameEntryAt s.frameBank n) 32)
    let s ← get
    let e := s.frameEntry s.frameBank n
    let mine := match s.cur with
      | .compute o _ => !e.qk && e.cl = o.cl
      | _ => e.qk
    if !e.enabled ∨ !mine then trap Cause.queueProtocol 18
    if e.ctx ≠ (s.core s.cur).ctxid.toNat then trap Cause.accessRights w
    if w.getLsbD 8 then act fun s => s.updFrameQ n fun q => { q with free := q.head }
    let q ← ask fun s => s.frameQ n
    if q.head = q.tail then wrG d 0
    else
      let at_ := 2 ^ e.ssz * (q.head.toNat % 2 ^ e.nsl)
      act fun s => s.updFrameQ n fun q => { q with head := q.head + 1 }
      wrG d (BitVec.ofNat 64 (match s.cur with
        | .compute o _ =>
          if s.slotMap e.ctx e.cl.val e.slot = .mapped o.oct then 0x100000 + e.off + at_ else 0x80800000 + e.slot * 2 ^ 24 + e.off + at_
        | _ => 2 ^ 63 + e.va + at_))) s

/-! ## The host queues (R439, R440) -/

/-- The core that serves a context's host queue (R439). -/
def State.hostCore (s : State) (ctx : Nat) : CoreName := if ctx = 0 then .management else .control (s.ctx ctx).hostCl

/-- HOST_TAIL_KICK: a host store to TAIL is the kick of the serving core (R439). -/
def State.tailKick (s : State) (ctx : Nat) (tail : BitVec 32) : State :=
  match (s.ctx ctx).hostBlock with
  | none => s
  | some b => (s.storePA b 4 tail.toNat).ring (s.hostCore ctx) 1 none 0

/-- HOST_TAIL_KICK. -/
def execHostTailKick (ctx : BitVec 12) (tail : BitVec 32) (s : State) : Host.Outcome State Fault Refusal :=
  event (fun s => s.tailKick ctx.toNat tail) s

/-- The places of a context's host queue that the serving core reads for the next command, each with its bytes: the block, then
the entry (R439, R440). -/
def State.hostPlaces (s : State) (ctx : Nat) : List (Nat × Nat) :=
  match (s.ctx ctx).hostBlock with
  | none => []
  | some b =>
    let e := s.hqCmd b + 32 * ((s.hqHead b).toNat % s.hqSize b)
    [((homePA b).getD b, 64), ((homePA e).getD e, 32)]

/-- The command a serving core takes next: none while its queue is empty, its completion ring full, or the core stopped
(R440). -/
def State.hostEntry (s : State) (ctx : Nat) : Option (List Word) :=
  match (s.ctx ctx).hostBlock with
  | none => none
  | some b =>
    let idle := if ctx = 0 then s.life.mstop else (s.cluster (s.ctx ctx).hostCl).stopped
    let full := decide (s.hqSize b ≤ (s.hqCtail b - s.hqChead b).toNat) || (s.ctx ctx).hostDone != []
    if idle || full || s.hqHead b = s.hqTail b then none
    else
      let e := s.hqCmd b + 32 * ((s.hqHead b).toNat % s.hqSize b)
      some (s.words ((homePA e).getD e) 4)

/-- A command with a reserved OP, a bit that must be 0, or an OP its queue does not allow (R440). -/
def hostBad (ctx : Nat) (ws : List Word) : Bool :=
  let w := fun n : Nat => (ws.getD n 0).toNat
  let op := bits (w 0) 0 8
  bits (w 0) 8 56 != 0 || op = 0 || decide (4 < op) || (decide (3 ≤ op) && ctx != 0) || (op != 3 && w 3 != 0) ||
    (op = 2 && ((ws.getD 1 0).getLsbD 39 || bits (w 1) 52 12 != 0 || owLevel (ws.getD 1 0) = 3 ||
      (owLevel (ws.getD 1 0) = 2 && owId (ws.getD 1 0) != 0))) ||
    (decide (3 ≤ op) && bits (w 1) 12 52 != 0) || (op = 3 && (decide (2 ^ 52 ≤ w 3) || w 3 % 4096 != 0))

/-- The command is taken and its completion written (R440). -/
def State.hostTaken (s : State) (ctx : Nat) (tag w : Word) : State :=
  match (s.ctx ctx).hostBlock with
  | none => s
  | some b => (s.storePA (b + 8) 4 (s.hqHead b + 1).toNat).hostComplete ctx tag w

/-- The next command of a queue: INVALID if it is malformed, else what `f` does for its OP, which may leave it waiting. Words that
cannot be read are poisoned and yield no command (R29, R274). DESIGN CHOICE, entry 29. -/
def State.hostCommand (s : State) (ctx op : Nat) (f : List Word → Word → Option State) : State :=
  match s.hostEntry ctx, (s.hostPlaces ctx).find? fun p => (s.checkRead p.1 p.2).2.isSome with
  | none, _ => s
  | some _, some p => (s.checkRead p.1 p.2).1
  | some ws, none =>
    if hostBad ctx ws then s.hostTaken ctx (ws.getD 2 0) (BitVec.ofNat 64 (4 * 2 ^ 40))
    else if bits (ws.getD 0 0).toNat 0 8 ≠ op then s
    else (f ws (ws.getD 2 0)).getD s

/-- HOST_CMD_LAUNCH (R440): LAUNCH as a control core executes it; a context with too many kernels leaves the command waiting. -/
def State.hostLaunch (s : State) (ctx : Nat) : State :=
  s.hostCommand ctx 1 fun ws tag =>
    let va := (ws.getD 1 0).toNat
    let cl := if ctx = 0 then 0 else (s.ctx ctx).hostCl
    let refuse := fun (s : State) (code : Nat) => some ((s.post cl 2 0 ctx code (ws.getD 1 0) none).hostTaken ctx tag (launchWord 0 code))
    if 2 ^ 60 ≤ va ∨ va % 64 ≠ 0 ∨ ctx = 0 then refuse s 4
    else
      let q := s.launchCheck cl ctx va
      match q.2 with
      | .refused code => refuse q.1 code
      | .full => some q.1
      | .good b =>
        let r := q.1.register ctx b cl none
        let t := r.1.hostTaken ctx tag (launchWord r.2.1 r.2.2)
        some (if r.2.2 = 0 then t.updKernel ctx r.2.1 fun k => { k with hostTag := some tag } else t)

/-- HOST_CMD_LAUNCH. -/
def execHostCmdLaunch (ctx : BitVec 12) (s : State) : Host.Outcome State Fault Refusal := event (fun s => s.hostLaunch ctx.toNat) s

/-- HOST_CMD_CANCEL (R440): CANCEL under the queue's context. -/
def State.hostCancel (s : State) (ctx : Nat) : State :=
  s.hostCommand ctx 2 fun ws tag =>
    let w := ws.getD 1 0
    match s.object ctx (owLevel w) (owId w) with
    | .unknown => some (s.hostTaken ctx tag 0xFE)
    | .ended _ => some (s.hostTaken ctx tag 1)
    | .going =>
      some ((match owLevel w with
        | 0 => s.cancelKernel ctx (owId w) false
        | 1 => s.cancelGraph ctx (owId w) (s.ctx ctx).hostCl
        | _ => s.cancelJob ctx).hostTaken ctx tag 0)

/-- HOST_CMD_CANCEL. -/
def execHostCmdCancel (ctx : BitVec 12) (s : State) : Host.Outcome State Fault Refusal := event (fun s => s.hostCancel ctx.toNat) s

/-- The words of a context's host queue block (R439). -/
def hostBlockWords (ctx : Nat) (ring cpl : BitVec 52) (szl : BitVec 4) (cl : Fin 16) : List Word :=
  [0, 0, BitVec.ofNat 64 (ring.toNat + szl.toNat * 2 ^ 52), BitVec.ofNat 64 cpl.toNat, 0, BitVec.ofNat 64 (ctx + cl.val * 2 ^ 12), 0, 0]

/-- Where a queue block and its rings may stand: the block in device memory (R439). -/
def hostPlaceOk (block ring cpl : BitVec 52) (szl : BitVec 4) : Bool :=
  block.toNat % 64 = 0 && ring.toNat % 4096 = 0 && cpl.toNat % 4096 = 0 && decide (4 ≤ szl.toNat ∧ szl.toNat ≤ 12) &&
    ((homePA block.toNat).any fun a => decide (a < 12 * 2 ^ 36)) && (homePA ring.toNat).isSome && (homePA cpl.toNat).isSome

/-- A context is admitted: it inherits no state (R402). -/
def State.admitCtx (s : State) (ctx root block : Nat) (cl : Fin 16) (ws : List Word) : State :=
  let s := { s with ctxs := Tbl.set Context.init s.ctxs ctx { Context.init with
    resident := true, root := root, hostBlock := some block, hostCl := cl } }
  match homePA block with
  | some a => s.storeWords a ws
  | none => s

/-- HOST_CMD_ADMIT (R402, R440): the management core chooses the places and the serving cluster; refused for context 0, one
that is resident, or with 64 resident. DEDUCED, entry 29. -/
def State.hostAdmit (s : State) (block ring cpl : BitVec 52) (szl : BitVec 4) (cl : Fin 16) : State :=
  s.hostCommand 0 3 fun ws tag =>
    let ctx := bits (ws.getD 1 0).toNat 0 12
    if ctx = 0 ∨ s.resident ctx ∨ 64 ≤ (s.ctxs.filter fun c => c.1 != 0 && c.2.resident).length then some (s.hostTaken 0 tag 1)
    else if !hostPlaceOk block ring cpl szl then none
    else some ((s.admitCtx ctx (ws.getD 3 0).toNat block.toNat cl (hostBlockWords ctx ring cpl szl cl)).hostTaken 0 tag
      (BitVec.ofNat 64 block.toNat))

/-- HOST_CMD_ADMIT. -/
def execHostCmdAdmit (block ring cplRing : BitVec 52) (szl : BitVec 4) (cl : Fin 16) (s : State) : Host.Outcome State Fault Refusal :=
  event (fun s => s.hostAdmit block ring cplRing szl cl) s

/-- Whether a context still owns an octet, holds a slot or has an unfinished kernel (R402). -/
def State.contextBusy (s : State) (ctx : Nat) : Bool :=
  s.octets.any (fun o => o.2.owner = ctx) || (s.ctx ctx).slots != [] || decide (s.jcount ctx ≠ 0)

/-- A context that is released leaves nothing in an octet it owned last, nor in an engine core that ran for it, which ends (R402). -/
def State.forgetCtx (s : State) (ctx : Nat) : State :=
  let s := s.octets.foldl (fun s e => if e.2.lastOwner = ctx ∧ e.2.owner = 0 then
    s.updOctet (OctName.ofIndex e.1) fun q => { q with lastOwner := 0, dir := [] } else s) s
  s.cores.foldl (fun s e =>
    let c := CoreName.ofIndex e.1
    let s := if e.2.xfers = [] then s else s.updCore c fun k => { k with xfers := k.xfers.filter fun x => x.ctx != ctx }
    if (c.kind = .transfer ∨ c.kind = .memory) ∧ e.2.ctxid.toNat = ctx then (s.endCore c).handEngine c 0 else s) s

/-- A context is released (R402): its sectors written back and invalidated, its translations and fault entries dropped, the
latter as failed (R427), its window maps and everything else of it forgotten. -/
def State.releaseCtx (s : State) (ctx : Nat) : State :=
  let s := (s.forgetCtx ctx).dropReqs (fun r => match r with
    | .xfer c id => (s.core c).xfers.any fun x => x.id = id && x.ctx = ctx
    | _ => false)
  let s := { s with sectors := s.sectors.filter fun q => q.2.ctx != ctx && q.1 % 2 ^ 13 != ctx + 1 }
  let s := s.dropLeaves ctx fun _ => true
  let s := allStations.foldl (fun s st =>
    (((s.station st).faults.filter fun f => f.ctx = ctx).foldl (fun s f => s.endFault st f true) s).updStation st fun q =>
      { q with
          failed := q.failed ++ ((q.full.filter fun f => f.ctx = ctx).flatMap FaultEntry.waiting).map (·, Cause.pageFault),
          full := q.full.filter fun f => f.ctx != ctx, walks := q.walks.filter fun w => w.ctx != ctx }) s
  let homes := (s.syncq.filter fun q => q.2.any fun r => match r with | .other x _ _ _ => x = ctx | _ => false).map fun q => q.1
  let s := { s with syncq := s.syncq.filterMap fun q =>
    let l := q.2.filter fun r => match r with | .other x _ _ _ => x != ctx | _ => true
    if l = [] then none else some (q.1, l) }
  let s := homes.foldl State.grantAll s
  { s with
      ctxs := Tbl.set Context.init s.ctxs ctx Context.init, groups := s.groups.filter fun g => g.key.ctx != ctx,
      skeins := s.skeins.filter fun k => k.ctx != ctx }

/-- HOST_CMD_RELEASE (R402, R440). DEDUCED, entry 29. -/
def State.hostRelease (s : State) : State :=
  s.hostCommand 0 4 fun ws tag =>
    let ctx := bits (ws.getD 1 0).toNat 0 12
    if ctx = 0 ∨ !(s.ctx ctx).resident ∨ s.contextBusy ctx then some (s.hostTaken 0 tag 1)
    else some ((s.releaseCtx ctx).hostTaken 0 tag 0)

/-- HOST_CMD_RELEASE. -/
def execHostCmdRelease (s : State) : Host.Outcome State Fault Refusal := event State.hostRelease s

end Sys2Proof.Machine
end

