-- ==== Sys2Proof/Machine/Device.lean ====
section
/-! DEFINITION. Power-on, attestation, hitless update, islands, retirement, and what befalls the device from outside (chapter
The device from power-on to replacement; R20, R414, R438). -/

namespace Sys2Proof.Machine

/-! ## Firmware slots (R458, R459) -/

/-- Whether an image is accepted: both signatures, and no version below the fused minimum (R458). -/
def Life.accepts (l : Life) (im : Image) : Bool := im.rsaOk && im.slhOk && decide (l.minVersion ≤ im.version)

/-- The image in a slot, if it is accepted. -/
def Life.slot (l : Life) (b : Bool) : Option Image := (if b then l.flashB else l.flashA).filter l.accepts

/-- Whether the management plane works: an image runs, and the management core has not stopped (R115, R457). DESIGN CHOICE, entry 30. -/
def State.managed (s : State) : Bool := s.life.powered && s.life.status = 1 && !s.life.mstop

/-- A supervisor core starts: its code, its boundary, its A-thread at 0 (R96, R457). Its other registers are zero (R90); its kick word and
what TSTAT latched of it stay, for no kick is lost (R347, R461). -/
def State.bootCore (s : State) (c : CoreName) (code : CodeImage) : State :=
  (s.writeBytes (localBase c) (code.bytes.take (256 * code.xb))).updCore c fun k =>
    { (k.start .supervisor false 0) with xb := BitVec.ofNat 9 code.xb }

/-- The image a cluster's control core runs: the new one while it is ahead of an update (R461). -/
def State.controlImage (s : State) (cl : Fin 16) : Option Image :=
  if (s.cluster cl).newFw then s.life.next else s.image?

/-- A control core restarts its firmware as at boot (R414, R461). -/
def State.bootControl (s : State) (cl : Fin 16) : State :=
  match s.controlImage cl with
  | some im => s.bootCore (.control cl) im.ctrl
  | none => s

/-- The sixteen clusters. -/
def allClusters : List (Fin 16) := (List.range 16).map fun n => Fin.ofNat 16 n

/-! ## Parts (R16, R465) -/

/-- An octet's part number: 25 octets of each cluster, the spare last. DESIGN CHOICE, entry 30. -/
def octetPart (o : OctName) : Nat := 25 * o.cl.val + o.oct.val

/-- The cluster that a part's records go to: the first of its die (R435, R465). -/
def partCluster (n : Nat) : Fin 16 := Fin.ofNat 16 (if n < 400 then n / 25 / 4 * 4 else (n - 400) / 16 / 3 * 4)

/-- The coordinates at which an octet's part works: those the spare has taken are its own (R16); none where a part is not in use. -/
def State.octetOf (s : State) (n : Nat) : Option OctName :=
  let cl : Fin 16 := Fin.ofNat 16 (n / 25)
  let spared := Tbl.get none s.life.spared cl.val
  if n % 25 = 24 then spared.map (⟨cl, ·⟩)
  else if spared = some (Fin.ofNat 24 (n % 25)) then none
  else some ⟨cl, Fin.ofNat 24 (n % 25)⟩

/-- A part is retired: REPLACE_REQUESTED, and a LINK_EVENT whose status and value are open (R465). DESIGN CHOICE, entry 30. -/
def State.retirePart (s : State) (n : Nat) : State :=
  let k := s.fresh
  let s := { k.2 with life := { k.2.life with replace := true, retiredParts := Tbl.set false k.2.life.retiredParts n true } }
  let s := match (if n < 400 then s.octetOf n else none) with
    | some o => s.updOctet o fun q => { q with retired := true }
    | none => s
  s.postMgmt (partCluster n) 8 (0x400 + n) ((Config.freeWord k.1).toNat % 256) (Config.freeWord k.1)

/-- The parts retired among those of a range. -/
def State.retiredIn (s : State) (lo hi : Nat) : Nat := (s.life.retiredParts.filter fun e => decide (lo ≤ e.1 ∧ e.1 < hi)).length

/-- The octets of a cluster that fail the test: the spare takes the first one's place, if it is good (R16). -/
def State.testCluster (s : State) (bad : List Nat) (cl : Fin 16) : State :=
  let fails := (List.range 24).filter fun i => bad.contains (25 * cl.val + i)
  let spareBad := bad.contains (25 * cl.val + 24)
  let s := if spareBad then s.retirePart (25 * cl.val + 24) else s
  match fails with
  | [] => s
  | first :: rest =>
    if spareBad then fails.foldl (fun s i => s.retirePart (25 * cl.val + i)) s
    else
      rest.foldl (fun s i => s.retirePart (25 * cl.val + i))
        { s with life := { s.life with
          spare := s.life.spare ||| BitVec.ofNat 16 (2 ^ cl.val), spared := Tbl.set none s.life.spared cl.val (some (Fin.ofNat 24 first)) } }

/-! ## Islands (R21, R464) -/

/-- Whether an island's part is retired (R464). -/
def State.islandRetired (s : State) (n : Nat) : Bool :=
  match islandOf n with
  | .octet o _ => (s.octet o).retired
  | .memory st c => Tbl.get false s.life.retiredParts (400 + 16 * st.val + c.val)
  | _ => false

/-- The cores of the shared islands, which start with the device (R21, R457). -/
def sharedCores : List CoreName := .management :: allClusters.map .control

/-- An island starts, and CYCLE of its cores with it (R102, R464). -/
def State.islandOn (s : State) (n : Nat) : State :=
  if s.islandRetired n || s.islandRuns n then s
  else (islandCores n).foldl (fun s c => s.updCore c fun k => { k with islandStart := s.cycle }) (s.setIsland n true)

/-- ISLAND_START: the management core starts an island (R464). -/
def execIslandStart (n : Fin 1024) (s : State) : Host.Outcome State Fault Refusal :=
  event (fun s => if s.managed then s.islandOn n.val else s) s

/-- ISLAND_IDLE_STOP: an octet's island, when the octet has had no owner for 1 ms, or at once when it is retired (R464). -/
def State.idleStop (s : State) (n : Nat) : State :=
  match islandOf n with
  | .octet o _ =>
    let q := s.octet o
    if s.managed && s.islandRuns n && q.owner = 0 && (s.standing o).isNone && (q.retired || decide (q.freeSince + 800000 ≤ s.cycle)) then
      s.islandOff n
    else s
  | _ => s

/-- ISLAND_IDLE_STOP. -/
def execIslandIdleStop (n : Fin 1024) (s : State) : Host.Outcome State Fault Refusal := event (fun s => s.idleStop n.val) s

/-- Whether an island that is no octet's serves no context (R464): a stack, a mesh and a crossbar always serve context 0. DEDUCED,
entry 30. -/
def State.islandIdle (s : State) (n : Nat) : Bool :=
  match islandOf n with
  | .octet _ _ => false
  | .memory st c => (s.th (.memory st c) .a).st = .off && (s.th (.memory st c) .x).st = .off
  | .port p => (s.port p).st = .down
  | .shared => false

/-- ISLAND_STOP_REQUEST: the management core stops an island that is no octet's and serves no context (R464). -/
def execIslandStopRequest (n : Fin 1024) (s : State) : Host.Outcome State Fault Refusal :=
  event (fun s => if s.managed && s.islandRuns n.val && s.islandIdle n.val then s.islandOff n.val else s) s

/-! ## Power-on (R457) -/

/-- The 4 MiB of device memory, outside the frame path's own, that the firmware keeps for itself: it chooses which. DESIGN CHOICE,
entry 29. -/
def bootArea : Nat := 2 ^ 22 * (1 + (Config.bootChoice 0).toNat % (12 * 2 ^ 14 - 1))

/-- Context 0's host queue block and rings are written in the firmware's area (R439, R457). DESIGN CHOICE, entry 29. -/
def State.bootBlock (s : State) : State :=
  let szl : BitVec 4 := BitVec.ofNat 4 (4 + (Config.bootChoice 2).toNat % 9)
  let s := s.updCtx 0 fun c => { c with hostBlock := some (bootArea + 0x8000) }
  s.storeWords (bootArea + 0x8000)
    (hostBlockWords 0 (BitVec.ofNat 52 (bootArea + 0x100000)) (BitVec.ofNat 52 (bootArea + 0x200000)) szl 0)

/-- The frame-path tables are mapped under context 0, for reading and writing, at an address that the firmware chooses, by page tables
in its area (R419 to R421, R449, R457). DESIGN CHOICE, entry 29. -/
def State.bootMap (s : State) : State :=
  let va := 2 ^ 22 * ((Config.bootChoice 1).toNat % 2 ^ 38)
  let table := fun l : Nat => bootArea + 4096 * l
  let entry := fun (s : State) (l : Nat) (va e : Nat) => s.store (entryAt (table l) va l) 8 e
  let s := [0, 1, 2, 3].foldl (fun s l => entry s l va (1 + table (l + 1))) s
  let s := entry (entry s 4 va 15) 4 (va + 2 ^ 21) (15 + 2 ^ 21)
  s.updCtx 0 fun c => { c with root := table 0 }

/-- The device comes up under an accepted image: parts tested, islands started, the frame-path tables mapped, supervisors running, the
Umval ports training and context 0's block written (R457 steps 3 to 6). The domain number it is given is open (R441). -/
def State.bootWith (s : State) (im : Image) (badOctets badCores : List Nat) : State :=
  let k := s.fresh
  let s := { k.2 with life := { k.2.life with
    measurement := im.measurement, status := 1, domain := (Config.freeWord k.1).toNat % 192, image := some im } }
  let s := s.bootCore .management im.mgmt
  let s := allClusters.foldl (fun s cl => s.testCluster badOctets cl) s
  let s := (badCores.filter fun n => decide (400 ≤ n ∧ n < 592)).foldl State.retirePart s
  let s := ((List.range 1024).foldl State.islandOn s).bootMap
  let s := allClusters.foldl State.bootControl s
  let s := ((allPorts .umval).foldl (fun s p => s.movePort p .training 0) s).bootBlock
  { s with life := { s.life with bootStep := 6 } }

/-- POWER_ON: CYCLE of the shared islands' cores starts (R102); the boot ROM tries the active slot and then the other; with neither accepted it halts (R457, R458). DESIGN CHOICE, entry 30. -/
def State.powerUp (s : State) (badOctets badCores : List Nat) : State :=
  if s.life.powered then s
  else
    let s := sharedCores.foldl (fun s c => s.updCore c fun k => { k with islandStart := s.cycle }) { s with life := { s.life with powered := true } }
    let act := s.life.selectB
    match s.life.slot act with
    | some im => { s with life := { s.life with slotB := act } }.bootWith im badOctets badCores
    | none =>
      match s.life.slot (!act) with
      | some im => { s with life := { s.life with slotB := !act } }.bootWith im badOctets badCores
      | none => { s with life := { s.life with status := 2 } }

/-- POWER_ON. -/
def execPowerOn (badOctets badCores : List Nat) (s : State) : Host.Outcome State Fault Refusal :=
  event (fun s => s.powerUp badOctets badCores) s

/-- POWER_LOSS: the device goes off; the flash, the selector and the fuses stay, and what the companion's and the expanders'
memories hold (R462). The numbers of the values that are left open go on. DESIGN CHOICE, entry 30. -/
def State.powerDown (s : State) : State :=
  { State.reset with
      turns := s.turns, cycle := s.cycle, free := s.free, mem := s.mem.filter fun m => decide (2 * 2 ^ 48 ≤ m.1 ∧ m.1 < 4 * 2 ^ 48),
      life := { Life.init with
        flashA := s.life.flashA, flashB := s.life.flashB, selectB := s.life.selectB, minVersion := s.life.minVersion } }

/-- POWER_LOSS. -/
def execPowerLoss (s : State) : Host.Outcome State Fault Refusal := event State.powerDown s

/-! ## Device status and attestation (R460, R463) -/

/-- The device status word (R463). -/
def State.statusWord (s : State) : Nat :=
  let b := fun (x : Bool) (n : Nat) => if x then 2 ^ n else 0
  let l := s.life
  b l.replace 0 + b l.slotB 1 + b l.updating 2 + b l.upfail 3 + l.status % 4 * 2 ^ 4 + b l.mstop 6 + s.retiredIn 0 400 % 256 * 2 ^ 8 +
    s.retiredIn 400 592 % 256 * 2 ^ 16 + l.spare.toNat * 2 ^ 24

/-- A byte of the management core's I3C registers as a requester reads it (R460): NONCE is write-only, and what no register holds reads 0. -/
def State.i3cByte (s : State) (x : Nat) : Byte :=
  if x < 8 then BitVec.ofNat 8 (s.statusWord / 2 ^ (8 * x))
  else if x = 0x30 then BitVec.ofNat 8 s.life.attreq
  else if 0x100 ≤ x then s.life.report.getD (x - 0x100) 0
  else 0

/-- NONCE after a write of bytes at an offset. -/
def nonceAfter (nonce : BitVec 256) (off : Nat) (data : List Byte) : BitVec 256 :=
  BitVec.ofNat 256 (leBytes ((List.range 32).map fun i =>
    if off ≤ 0x10 + i then (data[0x10 + i - off]?).getD (BitVec.ofNat 8 (nonce.toNat / 2 ^ (8 * i))) else BitVec.ofNat 8 (nonce.toNat / 2 ^ (8 * i))))

/-- A write of a requester over I3C (R460): NONCE takes what falls on it; a 1 in ATTREQ asks for a report under the nonce as written,
unless one is being made or the management core has stopped; the other registers are read-only. DEDUCED, entry 30. -/
def State.i3cWrite (s : State) (off : Nat) (data : List Byte) : State :=
  if !s.life.powered then s
  else
    let l := { s.life with nonce := nonceAfter s.life.nonce off data }
    let asks := decide (off ≤ 0x30) && data[0x30 - off]? == some 1
    { s with life := if asks && s.managed && l.attreq ≠ 1 then { l with attreq := 1, asked := l.nonce } else l }

/-- ATTESTATION_REQUEST (R460): a write to the I3C registers. -/
def execAttestationRequest (w : I3cWrite) (s : State) : Host.Outcome State Fault Refusal :=
  event (fun s => s.i3cWrite w.off w.data) s

/-- The signed part of a report (R460). -/
def State.reportBody (s : State) : List Byte :=
  let l := s.life
  let version := fun b : Bool => ((l.slot b).map Image.version).getD 0
  let map := (l.retiredParts.map fun e => 2 ^ e.1).sum
  bytesOf 8 1 ++ bytesOf 8 (Config.deviceIdentity 0).toNat ++ bytesOf 8 (Config.deviceIdentity 1).toNat ++ bytesOf 32 l.asked.toNat ++
    bytesOf 8 s.statusWord ++ bytesOf 48 l.measurement.toNat ++ bytesOf 8 (version false) ++ bytesOf 8 (version true) ++
    bytesOf 8 l.minVersion ++ bytesOf 8 s.nowNs ++ bytesOf 80 map

/-- A list of bytes of a given length. -/
def padTo (n : Nat) (l : List Byte) : List Byte := (l ++ List.replicate (n - l.length) 0).take n

/-- ATTESTATION_REPORT: the report with its two signatures, which are open, is placed and ATTREQ reads 2 (R460). -/
def State.report (s : State) : State :=
  if s.managed ∧ s.life.attreq = 1 then
    let b := s.reportBody
    { s with life := { s.life with report := b ++ padTo 16608 (Config.reportSignature b), attreq := 2 } }
  else s

/-- ATTESTATION_REPORT. -/
def execAttestationReport (s : State) : Host.Outcome State Fault Refusal := event State.report s

/-! ## Hitless update (R461, R462) -/

/-- UPDATE_IMAGE_WRITE: the image goes into the slot that is not active and is verified; a failed check marks the slot invalid
and changes nothing else (R461). The image that runs goes on running, whatever slot it came from. -/
def State.writeImage (s : State) (im : Image) : State :=
  if !s.managed ∨ s.life.updating then s
  else
    let ok := s.life.accepts im
    let v := if ok then some im else none
    let l := if s.life.selectB then { s.life with flashA := v } else { s.life with flashB := v }
    { s with life := if ok then { l with updating := true, upfail := false, next := some im } else l }

/-- UPDATE_IMAGE_WRITE. -/
def execUpdateImageWrite (img : Image) (s : State) : Host.Outcome State Fault Refusal := event (fun s => s.writeImage img) s

/-- An octet that has an owner keeps the microcode it has until it has none (R461). -/
def State.keepMicro (s : State) : State :=
  s.octets.foldl (fun s e => if e.2.owner = 0 ∨ e.2.oldMicro.isSome then s
    else s.updOctet (OctName.ofIndex e.1) fun q => { q with oldMicro := s.image?.map Image.xfer }) s

/-- The update is committed: the management core switches last, the selector is written, and the fused minimum rises (R461,
R462). DESIGN CHOICE, entry 30. -/
def State.commitUpdate (s : State) : State :=
  let b := !s.life.selectB
  match s.life.next with
  | none => s
  | some im =>
    let s := allClusters.foldl (fun s cl => s.updCluster cl fun q => { q with newFw := false }) s
    let s := s.keepMicro.bootCore .management im.mgmt
    { s with life := { s.life with
      selectB := b, slotB := b, updating := false, measurement := im.measurement, minVersion := max s.life.minVersion im.version,
      image := some im, next := none } }

/-- A cluster returns to the old image; with the last one the update is rolled back (R462). -/
def State.rollBack (s : State) (cl : Fin 16) : State :=
  let s := (s.updCluster cl fun q => { q with newFw := false }).bootControl cl
  if allClusters.any fun c => (s.cluster c).newFw then { s with life := { s.life with rolling := true } }
  else { s with life := { s.life with updating := false, upfail := true, rolling := false, next := none } }

/-- UPDATE_CLUSTER_SWITCH: at a launch boundary the next cluster takes the new control-core firmware; the last one commits the
update. After a failed self-check that cluster and those switched before it return to the old firmware, each at a launch boundary of its
own and the highest first (R461, R462). -/
def State.switchCluster (s : State) (cl : Fin 16) (ok : Bool) : State :=
  let q := s.cluster cl
  let next := allClusters.all fun c => if c.val < cl.val then (s.cluster c).newFw else !(s.cluster c).newFw
  let last := q.newFw && allClusters.all fun c => decide (c.val ≤ cl.val) || !(s.cluster c).newFw
  if !s.managed || !s.life.updating || q.placeStatus = 1 || (s.th (.control cl) .a).superTrap || q.stopped then s
  else if s.life.rolling then if last then s.rollBack cl else s
  else if !next then s
  else if !ok then s.rollBack cl
  else
    let s := (s.updCluster cl fun q => { q with newFw := true }).bootControl cl
    if cl.val = 15 then s.commitUpdate else s

/-- UPDATE_CLUSTER_SWITCH. -/
def execUpdateClusterSwitch (cl : Fin 16) (selfCheck : Bool) (s : State) : Host.Outcome State Fault Refusal :=
  event (fun s => s.switchCluster cl selfCheck) s

/-! ## Faults of parts, a control core's reset, power (R20, R414, R465) -/

/-- A restore onto an octet that fails is refused, and its group stays saved (R411, R465). DEDUCED, entry 30. -/
def State.refuseRestore (s : State) (o : OctName) : State :=
  match (s.cluster o.cl).placeOp with
  | some (.restore key po) =>
    match s.group? key with
    | none => s
    | some g =>
      let l := rectOctets o.cl po g.h g.w
      if l.contains o then
        ((l.foldl (fun s o => (s.endTransfer o).freeOctet o) s).dropReqs fun r => r = .cast o.cl).setPlace o.cl 3 2 none
      else s
  | _ => s

/-- The group on an octet that fails is saved immediately; one that is still loading is cancelled (R465). An octet that nothing holds
stops at once (R464). -/
def State.evacuate (s : State) (o : OctName) : State :=
  match s.standing o with
  | none => if (s.octet o).owner = 0 then s.octetOff o else s.refuseRestore o
  | some g =>
    if g.st = .casting then s.bindOff g.key true true
    else match g.vac with
      | none => s.vacate g ⟨s.cycle, 2, false, none, true, false⟩
      | some v => s.updGroup g.key fun g => { g with
        vac := some { v with deadline := true, keep := false, status := if v.target.isSome then 3 else 2 } }

/-- PART_FAULT: an octet or a memory core reports an unrecoverable fault and is retired (R465). DESIGN CHOICE, entry 30. -/
def State.partFault (s : State) (n : Nat) : State :=
  if !s.managed ∨ Tbl.get false s.life.retiredParts n then s
  else if n < 400 then
    let s := s.retirePart n
    match s.octetOf n with
    | some o => s.evacuate o
    | none => s
  else
    let c := CoreName.memory (Fin.ofNat 12 ((n - 400) / 16)) (Fin.ofNat 16 (n - 400))
    ((s.endCore c).retirePart n).islandOff (768 + (n - 400))

/-- PART_FAULT. -/
def execPartFault (n : Fin 592) (s : State) : Host.Outcome State Fault Refusal := event (fun s => s.partFault n.val) s

/-- CONTROL_CORE_RESET: the management core resets a stopped control core, whose firmware restarts as at boot; the posts that
were held take their numbers (R414). -/
def State.resetControl (s : State) (cl : Fin 16) : State :=
  if !s.managed ∨ !(s.cluster cl).stopped then s
  else (((s.updCluster cl fun q => { q with stopped := false }).bootControl cl).storeHeld cl).settleBinds

/-- CONTROL_CORE_RESET. -/
def execControlCoreReset (cl : Fin 16) (s : State) : Host.Outcome State Fault Refusal := event (fun s => s.resetControl cl) s

/-- PACKAGE_POWER_LIMIT: at the limit the management core withholds cast-on of new groups (R20). -/
def execPackagePowerLimit (reached : Bool) (s : State) : Host.Outcome State Fault Refusal :=
  event (fun s => if s.managed then { s with life := { s.life with powerLimit := reached } } else s) s

/-- The parts of a range of physical addresses that do not cross 1 KiB, written. -/
def State.writePA (s : State) : List (Nat × Nat) → List Byte → State
  | [], _ => s
  | p :: ps, bytes =>
    (match homePA p.1 with
      | some a => (s.clearMarks a p.2).writeBytes a (bytes.take p.2)
      | none => s).writePA ps (bytes.drop p.2)

/-- The context whose host queue block holds a physical address, by whichever name of the byte (R418), and the offset in the block. -/
def State.blockAt (s : State) (x : Nat) : Option (Nat × Nat) :=
  (homePA x).bind fun a => s.ctxs.findSome? fun c => (c.2.hostBlock.bind homePA).bind fun b =>
    if b ≤ a ∧ a < b + 64 then some (c.1, a - b) else none

/-- The bytes of a block that a host store changes: word 0 and CHEAD; every other field is RO (R4, R439). -/
def hostWrites (off : Nat) : Bool := decide (off < 8 ∨ (36 ≤ off ∧ off < 40))

/-- A host store's bytes as they take effect, those of RO fields as they are (R4). -/
def State.hostBytes (s : State) (pa : Nat) (l : List Byte) : List Byte :=
  (l.zip (List.range l.length)).map fun e =>
    match s.blockAt (pa + e.2) with
    | some b => if hostWrites b.2 then e.1 else s.byte ((homePA (pa + e.2)).getD (pa + e.2))
    | none => e.1

/-- The contexts whose TAIL a host store writes (R439), once each. -/
def State.tailsIn (s : State) (pa n : Nat) : List Nat :=
  (s.ctxs.map fun c => c.1).filter fun ctx => (List.range n).any fun i =>
    match s.blockAt (pa + i) with
    | some b => b.1 = ctx && decide (b.2 < 4)
    | none => false

/-- HOST_MEMORY_ACCESS: a read or a write of the host over Umval (R438); a store to a TAIL kicks the serving core (R439), and room it
makes in a completion ring is used (R440). -/
def State.hostAccess (s : State) (pa : Nat) (data : Option (List Byte)) : State :=
  match data with
  | none => s
  | some b =>
    if !s.portUp .umval then s
    else
      let kicked := s.tailsIn pa b.length
      let s := s.writePA (pageParts (b.length / 1024 + 2) pa b.length) (s.hostBytes pa b)
      let s := kicked.foldl (fun s ctx => s.ring (s.hostCore ctx) 1 none 0) s
      (s.ctxs.foldl (fun s c => s.flushHost c.1 c.2.hostDone.length) s).followBank

/-- HOST_MEMORY_ACCESS. -/
def execHostMemoryAccess (pa : BitVec 52) (data : Option (List Byte)) (s : State) : Host.Outcome State Fault Refusal :=
  event (fun s => s.hostAccess pa.toNat data) s

end Sys2Proof.Machine
end

