-- ==== Sys2Proof/Machine/Expand.lean ====
section
/-! DEFINITION. Major 0x3B, in the X-thread of a memory core: XEXP24 and XBDOT (chapter The memory core). -/

namespace Sys2Proof.Machine

/-- The X-thread of a memory core. -/
def xMemory : Who := ⟨false, true, [.memory]⟩

/-- The four lanes of a metadata field, and whether it is invalid (R63, R315). -/
def expandField (w x q : Nat) : List Nat × Bool :=
  let f := bits x (512 + 4 * q) 4
  let i0 := f % 4
  let i1 := f / 4
  let kept := fun i => lane w x i
  if i0 < i1 then
    ((List.range 4).map fun t => if t = i0 then kept (2 * q) else if t = i1 then kept (2 * q + 1) else 0, false)
  else (List.replicate 4 0, true)

/-- XEXP24 (R315): the kept values in the low half, the metadata above it. -/
def execXexp24 (d a w : Reg) (s : State) : Host.Outcome State Fault Refusal :=
  issue xMemory noHint .user (seq do
    checkAliases [vIn a, vOut d]
    let x := (← rdV a).toNat
    let b := 4 * 2 ^ w.val
    let n := 1024 / b
    let out := (List.range (n / 4)).map (expandField b x)
    wrV d (BitVec.ofNat 1024 (packLanes b (out.flatMap (·.1)))) (BitVec.allOnes 128)
    raise (if out.any (·.2) then fNV else fNone)) s

/-! ## XBDOT (R316, R317) -/

def dotW (w : List Word) : Nat := bits (w.getD 0 0).toNat 0 60
def dotPitch (w : List Word) : Nat := bits (w.getD 1 0).toNat 0 16
def dotWFmt (w : List Word) : Nat := bits (w.getD 1 0).toNat 16 4
def dotXFmt (w : List Word) : Nat := bits (w.getD 1 0).toNat 20 4
def dotM (w : List Word) : Nat := bits (w.getD 1 0).toNat 24 4 + 1
def dotK (w : List Word) : Nat := bits (w.getD 1 0).toNat 28 13
def dotGS (w : List Word) : Nat := bits (w.getD 1 0).toNat 41 2
def dotX (w : List Word) : Nat := bits (w.getD 2 0).toNat 0 16
def dotSC (w : List Word) : Nat := bits (w.getD 3 0).toNat 0 60

/-- The length of a group: 32, 64 or 128, or all of K (R62, R316). -/
def dotGroup (w : List Word) : Nat := if dotGS w = 3 then dotK w else 32 * 2 ^ dotGS w

/-- The checks of R300, steps 2 and 3; its rule of alignment holds for the weights and the scales too. DEDUCED, entry 27. -/
def dotChecks (w : List Word) : M Unit := do
  if bits (w.getD 0 0).toNat 60 4 ≠ 0 then badDesc 0
  let t := dotXFmt w
  let fit := if dotWFmt w = 0 then dotK w % 8 = 0 else if dotWFmt w = 1 then dotK w % 2 = 0 else true
  if bits (w.getD 1 0).toNat 43 21 ≠ 0 ∨ 5 < dotWFmt w ∨ (t ≠ 3 ∧ t ≠ 4 ∧ t ≠ 5 ∧ t ≠ 7) ∨ dotK w = 0 ∨ !fit then badDesc 1
  if bits (w.getD 2 0).toNat 16 48 ≠ 0 ∨ dotX w % (fmtWidth t / 8) ≠ 0 then badDesc 2
  if bits (w.getD 3 0).toNat 60 4 ≠ 0 then badDesc 3
  nearExtent (BitVec.ofNat 64 (dotX w)) (dotK w * (fmtWidth t / 8))
  alignedTo (BitVec.ofNat 64 (2 ^ 63 + dotW w)) (max 1 (fmtWidth (dotWFmt w) / 8))
  if dotGS w ≠ 3 then alignedTo (BitVec.ofNat 64 (2 ^ 63 + dotSC w)) 2

/-- Reading extended bytes; a lost request traps with bit 62 (R317, R442). -/
def dotRead (va n : Nat) : M Nat := do
  let ea := 2 ^ 63 + va
  match ← extRead false ea n with
  | some b => return leBytes b
  | none => trapKeep Cause.accessRights (lostEa ea)

/-- A sum of products with whether it is an invalid NaN: 0 × ∞, or infinities of opposite sign (R76, R317). -/
def dotSum (l : List (Exact × Exact)) : Exact × Bool :=
  let p := l.map fun x => x.1.mul x.2
  let bad := l.any fun x => x.1.sp != .nan && x.2.sp != .nan && (x.1.mul x.2).sp = .nan
  (Exact.sum p, bad || (p.any fun x => x.sp = .pinf) && p.any fun x => x.sp = .ninf)

/-- One output row: its groups ascending, each one step of a running element, and the final rounding (R317). -/
def dotRow (w : List Word) (wt x scales : List Exact) : Nat × Flags :=
  let g := dotGroup w
  let acc := (List.range (ceilDiv (dotK w) g)).foldl (fun (p : PsRow × Flags) i =>
    let s := dotSum ((List.range (min g (dotK w - g * i))).map fun k =>
      (wt.getD (g * i + k) Exact.zero, x.getD (g * i + k) Exact.zero))
    let sc := scales.getD i ⟨.none, 1, 0⟩
    let v := s.1.mul sc
    let bad := s.2 || (s.1.sp != .nan && sc.sp != .nan && v.sp = .nan)
    let r := p.1.step fun j => if j = 0 then v else Exact.zero
    (r.row, p.2 ||| (r.flags &&& (fNX ||| fNV)) ||| if bad then fNV else fNone)) (PsRow.zeroed (-32768), fNone)
  let y := roundNum 7 0 false (acc.1.value 0).num
  (y.1, acc.2 ||| y.2)

/-- Bytes of n packed elements of a width. -/
def packedBits (w n : Nat) : Nat := (n * w + 7) / 8

/-- The rows of XBDOT, each with its weights and its scales read in turn (R316, R317). -/
def dotRows (w : List Word) (x : List Exact) : M (List (Nat × Flags)) :=
  let ww := fmtWidth (dotWFmt w)
  (List.range (dotM w)).mapM fun r => do
    let v ← dotRead (dotW w + 32 * dotPitch w * r) (packedBits ww (dotK w))
    let wt := (List.range (dotK w)).map fun k => (numOf (dotWFmt w) (lane ww v k)).exact
    let sc ← if dotGS w = 3 then pure []
      else (List.range (ceilDiv (dotK w) (dotGroup w))).mapM fun g => do
        let v ← dotRead (dotSC w + 2 * (g * dotM w + r)) 2
        return (decodeF 5 v).exact
    return dotRow w wt x sc

/-- XBDOT (R316, R317): nothing is written before it retires. -/
def execXbdot (d a b : Reg) (s : State) : Host.Outcome State Fault Refusal :=
  issue xMemory noHint .user (seq do
    checkAliases [fIn a, vOut d, fOut b]
    let w ← readDesc (← rdF a).toNat
    dotChecks w
    let c ← ask State.cur
    let xw := fmtWidth (dotXFmt w)
    let at_ := localBase c + dotX w
    granuleTrap (dotX w) at_ (← ask fun s => s.checkRead at_ (dotK w * (xw / 8)))
    let xs ← ask fun s => s.readLE at_ (dotK w * (xw / 8))
    let rows ← dotRows w ((List.range (dotK w)).map fun k => (numOf (dotXFmt w) (lane xw xs k)).exact)
    wrV d (BitVec.ofNat 1024 (packLanes 32 (rows.map (·.1)))) (BitVec.allOnes 128)
    wrF b (BitVec.ofNat 64 (rows.foldl (fun f y => f ||| y.2) fNone).toNat)) s

end Sys2Proof.Machine
end

