-- ==== Sys2Proof/Machine/Transfer.lean ====
section
/-! DEFINITION. Pushes and pulls of major 0x3A: XPUSH, XPULL, XWAIT and the steps of a transfer (chapter The memory
core). -/

namespace Sys2Proof.Machine

/-! ## The push descriptor (R310) -/

def psVA (w : List Word) : Nat := bits (w.getD 0 0).toNat 0 60
def psOff (w : List Word) : Nat := bits (w.getD 1 0).toNat 0 20
def psSlot (w : List Word) : Nat := bits (w.getD 1 0).toNat 24 5
def psCl (w : List Word) : Fin 16 := Fin.ofNat 16 (bits (w.getD 1 0).toNat 29 4)
def psDPitch (w : List Word) : Nat := bits (w.getD 1 0).toNat 33 12
def psNR (w : List Word) : Nat := bits (w.getD 2 0).toNat 0 12
def psNC (w : List Word) : Nat := bits (w.getD 2 0).toNat 12 12
def psVPitch (w : List Word) : Nat := bits (w.getD 2 0).toNat 24 16
def psVFmt (w : List Word) : Nat := bits (w.getD 2 0).toNat 40 4
def psSFmt (w : List Word) : Nat := bits (w.getD 2 0).toNat 44 4
def psTag' (w : List Word) : Nat := bits (w.getD 2 0).toNat 48 6
def psSat (w : List Word) : Bool := (w.getD 2 0).getLsbD 54
def psMbox (w : List Word) : Nat := bits (w.getD 3 0).toNat 0 20
def psMben (w : List Word) : Bool := (w.getD 3 0).getLsbD 20

/-- Bytes of a row of n packed elements (R61). -/
def packedBytes (fmt n : Nat) : Nat := (n * fmtWidth fmt + 7) / 8

/-- A row length that a format packs whole (R310). -/
def rowFits (fmt n : Nat) : Bool := if fmt = 0 then n % 8 = 0 else if fmt = 1 then n % 2 = 0 else true

/-- The conditions of a rotated push (R311). -/
def tagFits (w : List Word) : Bool :=
  5 ≤ psVFmt w && psVFmt w ≤ 8 && psSFmt w ≤ 6 && decide (fmtWidth (psSFmt w) < fmtWidth (psVFmt w)) &&
    psNC w % blockOf (tagBs (psTag' w)) = 0

/-- The descriptor checks (R300 step 2, R310, R311), then the device side's alignment (R300 step 3). -/
def pushChecks (push : Bool) (w : List Word) : M Unit := do
  let w1 := (w.getD 1 0).toNat
  let w2 := (w.getD 2 0).toNat
  let w3 := (w.getD 3 0).toNat
  if bits (w.getD 0 0).toNat 60 4 ≠ 0 then badDesc 0
  if psOff w % 64 ≠ 0 ∨ bits w1 20 4 ≠ 0 ∨ 23 < psSlot w ∨ bits w1 45 19 ≠ 0 then badDesc 1
  if psNR w ≠ 0 ∧ 2 ^ 20 < psOff w + 64 * psDPitch w * (psNR w - 1) + packedBytes (psSFmt w) (psNC w) then badDesc 1
  if psNR w = 0 ∨ psNC w = 0 ∨ 10 < psVFmt w ∨ 10 < psSFmt w ∨ bits w2 55 9 ≠ 0 ∨ !rowFits (psVFmt w) (psNC w) ∨
      !rowFits (psSFmt w) (psNC w) then badDesc 2
  if psTag' w ≠ 0 then
    if !push then badDesc 2
    if tagInvalid (psTag' w) then trap Cause.tagMismatch (BitVec.ofNat 64 (psTag' w + 2 * 2 ^ 24))
    if !tagFits w then badDesc 2
  if bits w3 21 43 ≠ 0 ∨ psMbox w % 8 ≠ 0 ∨ (psMben w = true ∧ 2 ^ 20 < psMbox w + 8) then badDesc 3
  alignedTo (BitVec.ofNat 64 (2 ^ 63 + psVA w)) (max 1 (fmtWidth (psVFmt w) / 8))

/-- XPUSH and XPULL (R310 to R312): at most sixteen outstanding; the instruction retires with its ticket. -/
def startTransfer (push : Bool) (d a b : Reg) (s : State) : Host.Outcome State Fault Refusal :=
  issue aMemory ntHint .user (seq do
    let k ← myCore
    if 16 ≤ (k.xfers.filter fun x => !x.past).length then wait .external
    coverStores
    let w ← readDesc (← rdG a).toNat
    let v ← rdG b
    pushChecks push w
    let s ← get
    match s.resolveSlot s.cur (psCl w) (psSlot w) with
    | .error (.fails _) => trap Cause.accessRights (w.getD 1 0)
    | _ => pure ()
    let k ← myCore
    let sign := if psTag' w = 0 then 0 else (k.signReg (tagReg (psTag' w))).sign
    updMy fun k => { k with
      tickets := k.tickets + 1, xferNo := k.xferNo + 1,
      xfers := k.xfers ++
        [⟨k.xferNo, k.ctxid.toNat, false, k.tickets, push, w, sign, v, List.range (psNR w * psNC w), 0, none⟩] }
    wrG d (k.tickets.setWidth 64)) s

/-- XPUSH (R310 to R312). -/
def execXpush (d a b : Reg) (s : State) : Host.Outcome State Fault Refusal := startTransfer true d a b s

/-- XPULL (R310 to R312). -/
def execXpull (d a b : Reg) (s : State) : Host.Outcome State Fault Refusal := startTransfer false d a b s

/-- XWAIT (R313). -/
def execXwait (d a : Reg) (s : State) : Host.Outcome State Fault Refusal :=
  issue aMemory noHint .user (seq do
    let t : BitVec 32 := (← rdG a).setWidth 32
    let k ← myCore
    if k.xfers.any fun x => !x.past && x.ticket = t then wait .external
    match k.ended.find? fun e => e.1 = t with
    | some e => wrG d e.2
    | none => wrG d (if t < k.tickets then 0xFE else 0xFF)) s

/-! ## The elements of a transfer (R311, R312) -/

/-- Changing one transfer of a core. -/
def Core.updXfer (k : Core) (id : Nat) (f : Xfer → Xfer) : Core :=
  { k with xfers := k.xfers.map fun x => if x.id = id then f x else x }

/-- The byte of a row and the bits at which element e of a format starts, and the bytes it touches (R61). -/
def elemBit (fmt e : Nat) : Nat × Nat × Nat :=
  let b := e * fmtWidth fmt
  (b / 8, b % 8, (b % 8 + fmtWidth fmt + 7) / 8)

/-- A field taken from bytes, and put into them. -/
def takeField (fmt : Nat) (p : Nat × Nat × Nat) (w : Nat) : Nat := w / 2 ^ p.2.1 % 2 ^ fmtWidth fmt
def putField (fmt : Nat) (p : Nat × Nat × Nat) (old v : Nat) : Nat :=
  old - old / 2 ^ p.2.1 % 2 ^ fmtWidth fmt * 2 ^ p.2.1 + v % 2 ^ fmtWidth fmt * 2 ^ p.2.1

/-- What a step of a transfer comes to: a value, a wait, or the end with FAULT. -/
inductive XferEnd where
  | ok (v : Nat)
  | wait
  | fails (cause : BitVec 8)
  deriving DecidableEq, Repr

/-- Reading element e of a device row (R312). DESIGN CHOICE, entry 27: an element whose bytes pass 2^60 ends the transfer with
FAULT and ACCESS_RIGHTS, for which the spec gives no outcome. -/
def State.xferDev (s : State) (c : CoreName) (x : Xfer) (r e : Nat) : State × XferEnd :=
  let p := elemBit (psVFmt x.desc) e
  let va := psVA x.desc + 32 * psVPitch x.desc * r + p.1
  if 2 ^ 60 < va + p.2.2 then (s, .fails Cause.accessRights)
  else
    let q := s.microRead c.station x.ctx va p.2.2 (.xfer c x.id)
    match q.2 with
    | .ok b => (q.1, .ok (takeField (psVFmt x.desc) p (leBytes b)))
    | .wait => (q.1, .wait)
    | .fails cause => (q.1, .fails cause)

/-- The flat address of a byte of a transfer's scratchpad; none while its octet is switched out (R312). -/
def State.xferSpad (s : State) (x : Xfer) (off : Nat) : Except XferEnd Nat :=
  match s.slotFor .memory x.ctx (psCl x.desc) (psSlot x.desc) with
  | .ok o => .ok (scratchBase o + off)
  | .error (.fails cause) => .error (.fails cause)
  | .error _ => .error .wait

/-- Reading element e of a scratchpad row. -/
def State.xferLocal (s : State) (x : Xfer) (r e : Nat) : State × XferEnd :=
  let p := elemBit (psSFmt x.desc) e
  match s.xferSpad x (psOff x.desc + 64 * psDPitch x.desc * r + p.1) with
  | .error w => (s, w)
  | .ok a =>
    let g := s.checkRead a p.2.2
    match g.2 with
    | some f => (g.1, .fails f.1)
    | none => (g.1, .ok (takeField (psSFmt x.desc) p (g.1.readLE a p.2.2)))

/-- Writing element e of a scratchpad row. -/
def State.xferPutLocal (s : State) (x : Xfer) (r e v : Nat) : State × XferEnd :=
  let p := elemBit (psSFmt x.desc) e
  match s.xferSpad x (psOff x.desc + 64 * psDPitch x.desc * r + p.1) with
  | .error w => (s, w)
  | .ok a =>
    let g := s.checkWrite a p.2.2
    match g.2 with
    | some f => (g.1, .fails f.1)
    | none => (g.1.store a p.2.2 (putField (psSFmt x.desc) p (g.1.readLE a p.2.2) v), .ok 0)

/-- Writing element e of a device row; part of a byte is merged into what is there. DESIGN CHOICE, entry 27, as for reading one. -/
def State.xferPutDev (s : State) (c : CoreName) (x : Xfer) (r e v : Nat) : State × XferEnd :=
  let p := elemBit (psVFmt x.desc) e
  let va := psVA x.desc + 32 * psVPitch x.desc * r + p.1
  let req := WaitReq.xfer c x.id
  if 2 ^ 60 < va + p.2.2 then (s, .fails Cause.accessRights)
  else
    let w := if fmtWidth (psVFmt x.desc) % 8 = 0 then s.microWrite c.station x.ctx va (bytesOf p.2.2 v) req
      else s.microMerge c.station x.ctx va p.2.2 (fun old => putField (psVFmt x.desc) p old v) req
    match w.2 with
    | .ok _ => (w.1, .ok 0)
    | .wait => (w.1, .wait)
    | .fails cause => (w.1, .fails cause)

/-- Reading the elements from..from+n−1 of a device row. -/
def State.xferBlock (s : State) (c : CoreName) (x : Xfer) (r from_ : Nat) : Nat → State × Except XferEnd (List Nat)
  | 0 => (s, .ok [])
  | n + 1 =>
    let q := s.xferDev c x r from_
    match q.2 with
    | .ok v =>
      let rest := q.1.xferBlock c x r (from_ + 1) n
      match rest.2 with
      | .ok l => (rest.1, .ok (v :: l))
      | e => (rest.1, e)
    | e => (q.1, .error e)

/-- The value of element e of a row as its destination holds it, and its flags (R311): copied bits, a conversion, or the
rotated narrowing of its block. -/
def State.xferValue (s : State) (c : CoreName) (x : Xfer) (r e : Nat) : State × Except XferEnd (Nat × Flags) :=
  let src := if x.push then psVFmt x.desc else psSFmt x.desc
  let dst := if x.push then psSFmt x.desc else psVFmt x.desc
  let tag := psTag' x.desc
  if tag ≠ 0 then
    let b := blockOf (tagBs tag)
    let q := s.xferBlock c x r (e / b * b) b
    match q.2 with
    | .ok l => (q.1, .ok ((rotateBlock x.sign (Nat.log2 b) dst (psSat x.desc) (l.map (numOf src))).getD (e % b) (0, fNone)))
    | .error w => (q.1, .error w)
  else
    let q := if x.push then s.xferDev c x r e else s.xferLocal x r e
    match q.2 with
    | .ok v => (q.1, .ok (if src = dst then (v, fNone) else convert src dst 0 (psSat x.desc) (psSat x.desc) v))
    | w => (q.1, .error w)

/-- One element of a transfer (R312): a failure ends it with FAULT. -/
def State.transferElement (s : State) (c : CoreName) (id i : Nat) : State :=
  match (s.core c).xfers.find? fun x => x.id = id with
  | none => s
  | some x =>
    if !x.todo.contains i || x.fail.isSome then s
    else
      let r := i / psNC x.desc
      let e := i % psNC x.desc
      let fails := fun (s : State) cause => s.updCore c fun k => k.updXfer id fun x => { x with fail := some cause }
      let v := s.xferValue c x r e
      match v.2 with
      | .error (.fails cause) => fails v.1 cause
      | .error _ => v.1
      | .ok p =>
        let w := if x.push then v.1.xferPutLocal x r e p.1 else v.1.xferPutDev c x r e p.1
        match w.2 with
        | .ok _ => w.1.updCore c fun k => k.updXfer id fun x =>
            { x with todo := x.todo.filter fun j => j != i, flags := x.flags ||| p.2 }
        | .wait => w.1
        | .fails cause => fails w.1 cause

/-- The end of a transfer (R312, R313): the mailbox is released, unless its octet is switched out, and the status word is
kept among the 64 most recent of the thread that issued it. DESIGN CHOICE, entry 27: a transfer that outlives its thread goes on to
its end, and no later thread's XWAIT meets it. -/
def State.transferEnd (s : State) (c : CoreName) (id : Nat) : State :=
  match (s.core c).xfers.find? fun x => x.id = id with
  | none => s
  | some x =>
    if x.todo ≠ [] ∧ x.fail = none then s
    else
      let status := BitVec.ofNat 64 ((match x.fail with | some f => 2 + f.toNat * 2 ^ 16 | none => 0) + x.flags.toNat * 2 ^ 8)
      let fin := fun s : State => s.updCore c fun k =>
        let l := if x.past then k.ended else k.ended ++ [(x.ticket, status)]
        { k with xfers := k.xfers.filter fun y => y.id != id, ended := l.drop (l.length - 64) }
      if psMben x.desc then
        match s.xferSpad x (psMbox x.desc) with
        | .ok a => fin (s.store a 8 (x.mbox.toNat % 2 ^ 63 + if x.fail.isSome then 2 ^ 63 else 0))
        | .error (.fails _) => fin s
        | .error _ => s
      else fin s

/-- TRANSFER_ELEMENT (R311, R312). -/
def execTransferElement (c : CoreName) (id i : Nat) (s : State) : Host.Outcome State Fault Refusal :=
  event (fun s => s.transferElement c id i) s

/-- TRANSFER_END (R312, R313). -/
def execTransferEnd (c : CoreName) (id : Nat) (s : State) : Host.Outcome State Fault Refusal :=
  event (fun s => s.transferEnd c id) s

end Sys2Proof.Machine
end

