-- ==== Sys2Proof/Machine/Run.lean ====
section
/-! DEFINITION. The meaning a word's fields name, called without the
instruction in between, since compiled code cannot build a value of a type of this many constructors: how compiled code issues a word, and how a waiting instruction is tried again. Proved equal
in Machine/Issue.lean to exec of the decoded instruction. -/

namespace Sys2Proof.Machine

def run01 (w : Nat) (s : State) : Host.Outcome State Fault Refusal :=
  match fld w 22 4 with
  | 0 => execHintImm (BitVec.ofNat 22 (fld w 0 22)) s
  | 1 => execHintMod (BitVec.ofNat 4 (fld w 0 4)) s
  | 2 => execHintBr (BitVec.ofNat 2 (fld w 0 2)) s
  | _ => execIllegalInstr s

def run02 (w : Nat) (s : State) : Host.Outcome State Fault Refusal :=
  match fld w 12 4 with
  | 0 => execTrap (BitVec.ofNat 12 (fld w 0 12)) s
  | 1 => execHret s
  | 2 => execWait (Fin.ofNat 32 (fld w 21 5)) (Fin.ofNat 32 (fld w 16 5)) (decide (fld w 11 1 = 1)) (BitVec.ofNat 4 (fld w 0 4)) s
  | 3 => execCsrr (Fin.ofNat 32 (fld w 21 5)) (BitVec.ofNat 12 (fld w 0 12)) s
  | 4 => execCsrw (Fin.ofNat 32 (fld w 21 5)) (Fin.ofNat 32 (fld w 16 5)) (BitVec.ofNat 12 (fld w 0 12)) s
  | 5 => execCsrs (Fin.ofNat 32 (fld w 21 5)) (Fin.ofNat 32 (fld w 16 5)) (BitVec.ofNat 12 (fld w 0 12)) s
  | 6 => execCsrc (Fin.ofNat 32 (fld w 21 5)) (Fin.ofNat 32 (fld w 16 5)) (BitVec.ofNat 12 (fld w 0 12)) s
  | 7 => execSetxb (Fin.ofNat 32 (fld w 21 5)) (Fin.ofNat 32 (fld w 16 5)) s
  | 8 => if fld w 3 9 = 0 ∧ fld w 16 5 = 0 then execGangForm (Fin.ofNat 32 (fld w 21 5)) (Fin.ofNat 8 (fld w 0 3)) s
    else if fld w 0 12 = 256 ∧ fld w 16 5 = 0 then execGangJoin (Fin.ofNat 32 (fld w 21 5)) s
    else execGangEnd (Fin.ofNat 32 (fld w 21 5)) s
  | 9 => execNop s
  | _ => execIllegalInstr s

def run03 (w : Nat) (s : State) : Host.Outcome State Fault Refusal :=
  match fld w 13 3 with
  | 0 => execBeq (Fin.ofNat 32 (fld w 21 5)) (Fin.ofNat 32 (fld w 16 5)) (BitVec.ofNat 13 (fld w 0 13)) s
  | 1 => execBne (Fin.ofNat 32 (fld w 21 5)) (Fin.ofNat 32 (fld w 16 5)) (BitVec.ofNat 13 (fld w 0 13)) s
  | 2 => execBlt (Fin.ofNat 32 (fld w 21 5)) (Fin.ofNat 32 (fld w 16 5)) (BitVec.ofNat 13 (fld w 0 13)) s
  | 3 => execBge (Fin.ofNat 32 (fld w 21 5)) (Fin.ofNat 32 (fld w 16 5)) (BitVec.ofNat 13 (fld w 0 13)) s
  | 4 => execBltu (Fin.ofNat 32 (fld w 21 5)) (Fin.ofNat 32 (fld w 16 5)) (BitVec.ofNat 13 (fld w 0 13)) s
  | 5 => execBgeu (Fin.ofNat 32 (fld w 21 5)) (Fin.ofNat 32 (fld w 16 5)) (BitVec.ofNat 13 (fld w 0 13)) s
  | _ => execIllegalInstr s

def run04 (w : Nat) (s : State) : Host.Outcome State Fault Refusal :=
  match fld w 19 2 with
  | 0 => execJal (Fin.ofNat 32 (fld w 21 5)) (BitVec.ofNat 19 (fld w 0 19)) s
  | 1 => execCall (Fin.ofNat 32 (fld w 21 5)) (BitVec.ofNat 19 (fld w 0 19)) s
  | 2 => execJalr (Fin.ofNat 32 (fld w 21 5)) (Fin.ofNat 32 (fld w 14 5)) (BitVec.ofNat 14 (fld w 0 14)) s
  | 3 => execRet (Fin.ofNat 32 (fld w 14 5)) s
  | _ => execIllegalInstr s

def run05 (w : Nat) (s : State) : Host.Outcome State Fault Refusal :=
  match fld w 13 3 with
  | 0 => execBpany (Fin.ofNat 8 (fld w 21 3)) (BitVec.ofNat 13 (fld w 0 13)) s
  | 1 => execBpnone (Fin.ofNat 8 (fld w 21 3)) (BitVec.ofNat 13 (fld w 0 13)) s
  | 2 => execBpall (Fin.ofNat 8 (fld w 21 3)) (BitVec.ofNat 13 (fld w 0 13)) s
  | 3 => execBpnall (Fin.ofNat 8 (fld w 21 3)) (BitVec.ofNat 13 (fld w 0 13)) s
  | 4 => execBfz (Fin.ofNat 32 (fld w 21 5)) (BitVec.ofNat 13 (fld w 0 13)) s
  | 5 => execBfnz (Fin.ofNat 32 (fld w 21 5)) (BitVec.ofNat 13 (fld w 0 13)) s
  | 6 => execBfltz (Fin.ofNat 32 (fld w 21 5)) (BitVec.ofNat 13 (fld w 0 13)) s
  | 7 => execBfgez (Fin.ofNat 32 (fld w 21 5)) (BitVec.ofNat 13 (fld w 0 13)) s
  | _ => execIllegalInstr s

def run06 (w : Nat) (s : State) : Host.Outcome State Fault Refusal :=
  match fld w 0 11 with
  | 0 => execPushmG (Fin.ofNat 32 (fld w 21 5)) (Fin.ofNat 32 (fld w 16 5)) s
  | 1 => execPushmF (Fin.ofNat 32 (fld w 21 5)) (Fin.ofNat 32 (fld w 16 5)) s
  | 2 => execPushmV (Fin.ofNat 32 (fld w 21 5)) (Fin.ofNat 32 (fld w 16 5)) s
  | 4 => execPopmG (Fin.ofNat 32 (fld w 21 5)) (Fin.ofNat 32 (fld w 16 5)) s
  | 5 => execPopmF (Fin.ofNat 32 (fld w 21 5)) (Fin.ofNat 32 (fld w 16 5)) s
  | 6 => execPopmV (Fin.ofNat 32 (fld w 21 5)) (Fin.ofNat 32 (fld w 16 5)) s
  | _ => execIllegalInstr s

def run08 (w : Nat) (s : State) : Host.Outcome State Fault Refusal :=
  match fld w 0 11 with
  | 0 => execAdd (Fin.ofNat 32 (fld w 21 5)) (Fin.ofNat 32 (fld w 16 5)) (Fin.ofNat 32 (fld w 11 5)) s
  | 1 => execSub (Fin.ofNat 32 (fld w 21 5)) (Fin.ofNat 32 (fld w 16 5)) (Fin.ofNat 32 (fld w 11 5)) s
  | 2 => execAnd (Fin.ofNat 32 (fld w 21 5)) (Fin.ofNat 32 (fld w 16 5)) (Fin.ofNat 32 (fld w 11 5)) s
  | 3 => execOr (Fin.ofNat 32 (fld w 21 5)) (Fin.ofNat 32 (fld w 16 5)) (Fin.ofNat 32 (fld w 11 5)) s
  | 4 => execXor (Fin.ofNat 32 (fld w 21 5)) (Fin.ofNat 32 (fld w 16 5)) (Fin.ofNat 32 (fld w 11 5)) s
  | 5 => execSll (Fin.ofNat 32 (fld w 21 5)) (Fin.ofNat 32 (fld w 16 5)) (Fin.ofNat 32 (fld w 11 5)) s
  | 6 => execSrl (Fin.ofNat 32 (fld w 21 5)) (Fin.ofNat 32 (fld w 16 5)) (Fin.ofNat 32 (fld w 11 5)) s
  | 7 => execSra (Fin.ofNat 32 (fld w 21 5)) (Fin.ofNat 32 (fld w 16 5)) (Fin.ofNat 32 (fld w 11 5)) s
  | 8 => execSlt (Fin.ofNat 32 (fld w 21 5)) (Fin.ofNat 32 (fld w 16 5)) (Fin.ofNat 32 (fld w 11 5)) s
  | 9 => execSltu (Fin.ofNat 32 (fld w 21 5)) (Fin.ofNat 32 (fld w 16 5)) (Fin.ofNat 32 (fld w 11 5)) s
  | 10 => execMin (Fin.ofNat 32 (fld w 21 5)) (Fin.ofNat 32 (fld w 16 5)) (Fin.ofNat 32 (fld w 11 5)) s
  | 11 => execMax (Fin.ofNat 32 (fld w 21 5)) (Fin.ofNat 32 (fld w 16 5)) (Fin.ofNat 32 (fld w 11 5)) s
  | 12 => execMinu (Fin.ofNat 32 (fld w 21 5)) (Fin.ofNat 32 (fld w 16 5)) (Fin.ofNat 32 (fld w 11 5)) s
  | 13 => execMaxu (Fin.ofNat 32 (fld w 21 5)) (Fin.ofNat 32 (fld w 16 5)) (Fin.ofNat 32 (fld w 11 5)) s
  | 14 => execRol (Fin.ofNat 32 (fld w 21 5)) (Fin.ofNat 32 (fld w 16 5)) (Fin.ofNat 32 (fld w 11 5)) s
  | 15 => execRor (Fin.ofNat 32 (fld w 21 5)) (Fin.ofNat 32 (fld w 16 5)) (Fin.ofNat 32 (fld w 11 5)) s
  | 16 => execClz (Fin.ofNat 32 (fld w 21 5)) (Fin.ofNat 32 (fld w 16 5)) s
  | 17 => execCtz (Fin.ofNat 32 (fld w 21 5)) (Fin.ofNat 32 (fld w 16 5)) s
  | 18 => execPopc (Fin.ofNat 32 (fld w 21 5)) (Fin.ofNat 32 (fld w 16 5)) s
  | _ => execIllegalInstr s

def run09 (w : Nat) (s : State) : Host.Outcome State Fault Refusal :=
  match fld w 12 4 with
  | 0 => execAddi (Fin.ofNat 32 (fld w 21 5)) (Fin.ofNat 32 (fld w 16 5)) (BitVec.ofNat 12 (fld w 0 12)) s
  | 1 => execAndi (Fin.ofNat 32 (fld w 21 5)) (Fin.ofNat 32 (fld w 16 5)) (BitVec.ofNat 12 (fld w 0 12)) s
  | 2 => execOri (Fin.ofNat 32 (fld w 21 5)) (Fin.ofNat 32 (fld w 16 5)) (BitVec.ofNat 12 (fld w 0 12)) s
  | 3 => execXori (Fin.ofNat 32 (fld w 21 5)) (Fin.ofNat 32 (fld w 16 5)) (BitVec.ofNat 12 (fld w 0 12)) s
  | 4 => execSlti (Fin.ofNat 32 (fld w 21 5)) (Fin.ofNat 32 (fld w 16 5)) (BitVec.ofNat 12 (fld w 0 12)) s
  | 5 => execSltiu (Fin.ofNat 32 (fld w 21 5)) (Fin.ofNat 32 (fld w 16 5)) (BitVec.ofNat 12 (fld w 0 12)) s
  | 6 => execSlli (Fin.ofNat 32 (fld w 21 5)) (Fin.ofNat 32 (fld w 16 5)) (Fin.ofNat 64 (fld w 0 6)) s
  | 7 => execSrli (Fin.ofNat 32 (fld w 21 5)) (Fin.ofNat 32 (fld w 16 5)) (Fin.ofNat 64 (fld w 0 6)) s
  | 8 => execSrai (Fin.ofNat 32 (fld w 21 5)) (Fin.ofNat 32 (fld w 16 5)) (Fin.ofNat 64 (fld w 0 6)) s
  | 9 => execRori (Fin.ofNat 32 (fld w 21 5)) (Fin.ofNat 32 (fld w 16 5)) (Fin.ofNat 64 (fld w 0 6)) s
  | _ => execIllegalInstr s

def run0A (w : Nat) (s : State) : Host.Outcome State Fault Refusal :=
  match fld w 16 5 with
  | 0 => execLui (Fin.ofNat 32 (fld w 21 5)) (BitVec.ofNat 16 (fld w 0 16)) s
  | 1 => execLuih (Fin.ofNat 32 (fld w 21 5)) (BitVec.ofNat 16 (fld w 0 16)) s
  | 2 => execLuit (Fin.ofNat 32 (fld w 21 5)) (BitVec.ofNat 16 (fld w 0 16)) s
  | 3 => execAddpc (Fin.ofNat 32 (fld w 21 5)) (BitVec.ofNat 16 (fld w 0 16)) s
  | _ => execIllegalInstr s

def run0B (w : Nat) (s : State) : Host.Outcome State Fault Refusal :=
  match fld w 0 11 with
  | 0 => execMul (Fin.ofNat 32 (fld w 21 5)) (Fin.ofNat 32 (fld w 16 5)) (Fin.ofNat 32 (fld w 11 5)) s
  | 1 => execMulh (Fin.ofNat 32 (fld w 21 5)) (Fin.ofNat 32 (fld w 16 5)) (Fin.ofNat 32 (fld w 11 5)) s
  | 2 => execMulhu (Fin.ofNat 32 (fld w 21 5)) (Fin.ofNat 32 (fld w 16 5)) (Fin.ofNat 32 (fld w 11 5)) s
  | 3 => execDiv (Fin.ofNat 32 (fld w 21 5)) (Fin.ofNat 32 (fld w 16 5)) (Fin.ofNat 32 (fld w 11 5)) s
  | 4 => execDivu (Fin.ofNat 32 (fld w 21 5)) (Fin.ofNat 32 (fld w 16 5)) (Fin.ofNat 32 (fld w 11 5)) s
  | 5 => execRem (Fin.ofNat 32 (fld w 21 5)) (Fin.ofNat 32 (fld w 16 5)) (Fin.ofNat 32 (fld w 11 5)) s
  | 6 => execRemu (Fin.ofNat 32 (fld w 21 5)) (Fin.ofNat 32 (fld w 16 5)) (Fin.ofNat 32 (fld w 11 5)) s
  | _ => execIllegalInstr s

def run10 (w : Nat) (s : State) : Host.Outcome State Fault Refusal :=
  match fld w 12 4 with
  | 0 => execLdb (Fin.ofNat 32 (fld w 21 5)) (Fin.ofNat 32 (fld w 16 5)) (BitVec.ofNat 12 (fld w 0 12)) s
  | 1 => execLdbu (Fin.ofNat 32 (fld w 21 5)) (Fin.ofNat 32 (fld w 16 5)) (BitVec.ofNat 12 (fld w 0 12)) s
  | 2 => execLdh (Fin.ofNat 32 (fld w 21 5)) (Fin.ofNat 32 (fld w 16 5)) (BitVec.ofNat 12 (fld w 0 12)) s
  | 3 => execLdhu (Fin.ofNat 32 (fld w 21 5)) (Fin.ofNat 32 (fld w 16 5)) (BitVec.ofNat 12 (fld w 0 12)) s
  | 4 => execLdw (Fin.ofNat 32 (fld w 21 5)) (Fin.ofNat 32 (fld w 16 5)) (BitVec.ofNat 12 (fld w 0 12)) s
  | 5 => execLdwu (Fin.ofNat 32 (fld w 21 5)) (Fin.ofNat 32 (fld w 16 5)) (BitVec.ofNat 12 (fld w 0 12)) s
  | 6 => execLdd (Fin.ofNat 32 (fld w 21 5)) (Fin.ofNat 32 (fld w 16 5)) (BitVec.ofNat 12 (fld w 0 12)) s
  | 7 => execXpref (Fin.ofNat 32 (fld w 16 5)) (BitVec.ofNat 12 (fld w 0 12)) s
  | _ => execIllegalInstr s

def run11 (w : Nat) (s : State) : Host.Outcome State Fault Refusal :=
  match fld w 12 4 with
  | 0 => execStb (Fin.ofNat 32 (fld w 21 5)) (Fin.ofNat 32 (fld w 16 5)) (BitVec.ofNat 12 (fld w 0 12)) s
  | 1 => execSth (Fin.ofNat 32 (fld w 21 5)) (Fin.ofNat 32 (fld w 16 5)) (BitVec.ofNat 12 (fld w 0 12)) s
  | 2 => execStw (Fin.ofNat 32 (fld w 21 5)) (Fin.ofNat 32 (fld w 16 5)) (BitVec.ofNat 12 (fld w 0 12)) s
  | 3 => execStd (Fin.ofNat 32 (fld w 21 5)) (Fin.ofNat 32 (fld w 16 5)) (BitVec.ofNat 12 (fld w 0 12)) s
  | 4 => execStn (Fin.ofNat 32 (fld w 21 5)) (Fin.ofNat 32 (fld w 16 5)) (BitVec.ofNat 12 (fld w 0 12)) s
  | _ => execIllegalInstr s

def run12 (w : Nat) (s : State) : Host.Outcome State Fault Refusal :=
  match fld w 0 4 with
  | 0 => execAmoadd (Fin.ofNat 32 (fld w 21 5)) (Fin.ofNat 32 (fld w 16 5)) (Fin.ofNat 32 (fld w 11 5)) (decide (fld w 8 1 = 1)) s
  | 1 => execAmoand (Fin.ofNat 32 (fld w 21 5)) (Fin.ofNat 32 (fld w 16 5)) (Fin.ofNat 32 (fld w 11 5)) (decide (fld w 8 1 = 1)) s
  | 2 => execAmoor (Fin.ofNat 32 (fld w 21 5)) (Fin.ofNat 32 (fld w 16 5)) (Fin.ofNat 32 (fld w 11 5)) (decide (fld w 8 1 = 1)) s
  | 3 => execAmoxor (Fin.ofNat 32 (fld w 21 5)) (Fin.ofNat 32 (fld w 16 5)) (Fin.ofNat 32 (fld w 11 5)) (decide (fld w 8 1 = 1)) s
  | 4 => execAmomin (Fin.ofNat 32 (fld w 21 5)) (Fin.ofNat 32 (fld w 16 5)) (Fin.ofNat 32 (fld w 11 5)) (decide (fld w 8 1 = 1)) s
  | 5 => execAmomax (Fin.ofNat 32 (fld w 21 5)) (Fin.ofNat 32 (fld w 16 5)) (Fin.ofNat 32 (fld w 11 5)) (decide (fld w 8 1 = 1)) s
  | 6 => execAmominu (Fin.ofNat 32 (fld w 21 5)) (Fin.ofNat 32 (fld w 16 5)) (Fin.ofNat 32 (fld w 11 5)) (decide (fld w 8 1 = 1)) s
  | 7 => execAmomaxu (Fin.ofNat 32 (fld w 21 5)) (Fin.ofNat 32 (fld w 16 5)) (Fin.ofNat 32 (fld w 11 5)) (decide (fld w 8 1 = 1)) s
  | 8 => execAmoswap (Fin.ofNat 32 (fld w 21 5)) (Fin.ofNat 32 (fld w 16 5)) (Fin.ofNat 32 (fld w 11 5)) (decide (fld w 8 1 = 1)) s
  | 9 => execAmocas (Fin.ofNat 32 (fld w 21 5)) (Fin.ofNat 32 (fld w 16 5)) (Fin.ofNat 32 (fld w 11 5)) (decide (fld w 8 1 = 1)) s
  | _ => execIllegalInstr s

def run13 (w : Nat) (s : State) : Host.Outcome State Fault Refusal :=
  match fld w 0 11 with
  | 0 => execBind (Fin.ofNat 32 (fld w 21 5)) (Fin.ofNat 32 (fld w 16 5)) (Fin.ofNat 32 (fld w 11 5)) s
  | 1 => execAcq (Fin.ofNat 32 (fld w 16 5)) s
  | 2 => execAcqr (Fin.ofNat 32 (fld w 16 5)) s
  | 3 => execRel (Fin.ofNat 32 (fld w 16 5)) s
  | 4 => execFence (Fin.ofNat 32 (fld w 16 5)) s
  | 5 => execDiscard (Fin.ofNat 32 (fld w 21 5)) (Fin.ofNat 32 (fld w 16 5)) (Fin.ofNat 32 (fld w 11 5)) s
  | _ => execIllegalInstr s

def run14 (w : Nat) (s : State) : Host.Outcome State Fault Refusal :=
  match fld w 0 11 with
  | 0 => execScfg (Fin.ofNat 4 (fld w 21 2)) (Fin.ofNat 32 (fld w 16 5)) (Fin.ofNat 32 (fld w 11 5)) s
  | 1 => execSdim (Fin.ofNat 4 (fld w 23 2)) (Fin.ofNat 4 (fld w 21 2)) (Fin.ofNat 32 (fld w 16 5)) (Fin.ofNat 32 (fld w 11 5)) s
  | 2 => execSind (Fin.ofNat 4 (fld w 21 2)) (Fin.ofNat 4 (fld w 16 2)) (Fin.ofNat 32 (fld w 11 5)) s
  | 3 => execSman (Fin.ofNat 4 (fld w 21 2)) (Fin.ofNat 32 (fld w 11 5)) s
  | 4 => execSen (Fin.ofNat 4 (fld w 21 2)) s
  | 5 => execSdis (Fin.ofNat 4 (fld w 21 2)) s
  | 6 => execSflush (Fin.ofNat 4 (fld w 21 2)) s
  | _ => execIllegalInstr s

def run15 (w : Nat) (s : State) : Host.Outcome State Fault Refusal :=
  match fld w 0 11 with
  | 0 => execLdq (Fin.ofNat 4 (fld w 21 2)) (Fin.ofNat 32 (fld w 16 5)) s
  | 1 => execStq (Fin.ofNat 4 (fld w 21 2)) (Fin.ofNat 32 (fld w 16 5)) s
  | 2 => execQput (Fin.ofNat 32 (fld w 16 5)) s
  | 3 => execQget (Fin.ofNat 32 (fld w 21 5)) s
  | _ => execIllegalInstr s

def run16 (w : Nat) (s : State) : Host.Outcome State Fault Refusal :=
  execRpt (Fin.ofNat 32 (fld w 16 5)) (BitVec.ofNat 4 (fld w 6 4)) (Fin.ofNat 4 (fld w 4 2)) (Fin.ofNat 16 (fld w 0 4)) s

def run18 (w : Nat) (s : State) : Host.Outcome State Fault Refusal :=
  match fld w 0 11 with
  | 0 => execSend (Fin.ofNat 32 (fld w 21 5)) (Fin.ofNat 32 (fld w 16 5)) (Fin.ofNat 32 (fld w 11 5)) s
  | 1 => execSendm (Fin.ofNat 32 (fld w 21 5)) (Fin.ofNat 32 (fld w 16 5)) (Fin.ofNat 32 (fld w 11 5)) s
  | 2 => execRecv (Fin.ofNat 32 (fld w 21 5)) (Fin.ofNat 32 (fld w 16 5)) (Fin.ofNat 32 (fld w 11 5)) s
  | 3 => execRecvm (Fin.ofNat 32 (fld w 21 5)) (Fin.ofNat 32 (fld w 16 5)) (Fin.ofNat 32 (fld w 11 5)) s
  | 4 => execMark s
  | 5 => execRadv (Fin.ofNat 32 (fld w 21 5)) s
  | 6 => if fld w 11 5 = 0 then execChstatState (Fin.ofNat 32 (fld w 21 5)) (Fin.ofNat 32 (fld w 16 5)) s
    else if fld w 11 5 = 1 then execChstatDecl (Fin.ofNat 32 (fld w 21 5)) (Fin.ofNat 32 (fld w 16 5)) s
    else if fld w 11 5 = 2 then execChstatClose (Fin.ofNat 32 (fld w 21 5)) (Fin.ofNat 32 (fld w 16 5)) s
    else if fld w 11 10 = 3 then execChstatKword (Fin.ofNat 32 (fld w 21 5)) s
    else if fld w 11 10 = 4 then execChstatRound (Fin.ofNat 32 (fld w 21 5)) s
    else execChstatSeq (Fin.ofNat 32 (fld w 21 5)) (Fin.ofNat 32 (fld w 16 5)) s
  | 7 => if fld w 21 5 = 0 then execKickRing (Fin.ofNat 32 (fld w 16 5)) (Fin.ofNat 32 (fld w 11 5)) s
    else if fld w 21 5 = 1 then execKickMbox (Fin.ofNat 32 (fld w 16 5)) (Fin.ofNat 32 (fld w 11 5)) s
    else if fld w 21 5 = 2 then execKickDone (Fin.ofNat 32 (fld w 16 5)) (Fin.ofNat 32 (fld w 11 5)) s
    else execKickDonerec (Fin.ofNat 32 (fld w 16 5)) (Fin.ofNat 32 (fld w 11 5)) s
  | _ => execIllegalInstr s

def run19 (w : Nat) (s : State) : Host.Outcome State Fault Refusal :=
  match fld w 0 11 with
  | 0 => execBcfg (Fin.ofNat 32 (fld w 16 5)) (Fin.ofNat 4 (fld w 11 2)) s
  | 1 => execBarr (Fin.ofNat 4 (fld w 11 2)) s
  | 2 => execBwait (Fin.ofNat 4 (fld w 11 2)) s
  | 3 => execBsync (Fin.ofNat 4 (fld w 11 2)) s
  | 4 => execBtest (Fin.ofNat 32 (fld w 21 5)) (Fin.ofNat 4 (fld w 11 2)) s
  | _ => execIllegalInstr s

def run1A (w : Nat) (s : State) : Host.Outcome State Fault Refusal :=
  match fld w 0 11 with
  | 0 => execRqpush (decide (fld w 21 1 = 1)) (Fin.ofNat 32 (fld w 16 5)) (Fin.ofNat 32 (fld w 11 5)) s
  | 1 => execNext (Fin.ofNat 32 (fld w 16 5)) s
  | 2 => execNextw (Fin.ofNat 32 (fld w 21 5)) s
  | 3 => execAppend (Fin.ofNat 32 (fld w 21 5)) (Fin.ofNat 32 (fld w 16 5)) (Fin.ofNat 32 (fld w 11 5)) s
  | 4 => if fld w 11 5 = 0 then execTake (Fin.ofNat 32 (fld w 21 5)) (Fin.ofNat 32 (fld w 16 5)) s
    else execTakeEndHold (Fin.ofNat 32 (fld w 21 5)) (Fin.ofNat 32 (fld w 16 5)) s
  | 5 => execTdarm (Fin.ofNat 32 (fld w 16 5)) (Fin.ofNat 32 (fld w 11 5)) s
  | _ => execIllegalInstr s

def run1B (w : Nat) (s : State) : Host.Outcome State Fault Refusal :=
  match fld w 0 11 with
  | 0 => execLaunch (Fin.ofNat 32 (fld w 21 5)) (Fin.ofNat 32 (fld w 16 5)) (Fin.ofNat 32 (fld w 11 5)) s
  | 1 => execLwait (Fin.ofNat 32 (fld w 21 5)) (Fin.ofNat 32 (fld w 16 5)) s
  | 2 => execCancel (Fin.ofNat 32 (fld w 21 5)) (Fin.ofNat 32 (fld w 16 5)) s
  | 3 => execCntrd (Fin.ofNat 32 (fld w 21 5)) (Fin.ofNat 32 (fld w 16 5)) s
  | 4 => execGinfo (Fin.ofNat 32 (fld w 21 5)) (Fin.ofNat 32 (fld w 16 5)) (Fin.ofNat 32 (fld w 11 5)) s
  | 5 => execGdone (Fin.ofNat 32 (fld w 16 5)) s
  | _ => execIllegalInstr s

def run1C (w : Nat) (s : State) : Host.Outcome State Fault Refusal :=
  match fld w 0 11 with
  | 0 => execEvpop (Fin.ofNat 32 (fld w 21 5)) (Fin.ofNat 32 (fld w 16 5)) s
  | 1 => execEvpush (Fin.ofNat 32 (fld w 21 5)) (Fin.ofNat 32 (fld w 16 5)) (Fin.ofNat 32 (fld w 11 5)) s
  | 2 => execPreempt (Fin.ofNat 32 (fld w 21 5)) (Fin.ofNat 32 (fld w 16 5)) s
  | 3 => execSave (Fin.ofNat 32 (fld w 21 5)) (Fin.ofNat 32 (fld w 16 5)) s
  | 4 => execRestore (Fin.ofNat 32 (fld w 21 5)) (Fin.ofNat 32 (fld w 16 5)) s
  | 5 => execPinv (Fin.ofNat 32 (fld w 21 5)) (Fin.ofNat 32 (fld w 16 5)) (Fin.ofNat 32 (fld w 11 5)) s
  | 6 => execPprobe (Fin.ofNat 32 (fld w 21 5)) (Fin.ofNat 32 (fld w 16 5)) (Fin.ofNat 32 (fld w 11 5)) s
  | 7 => execChkpair (Fin.ofNat 32 (fld w 21 5)) (Fin.ofNat 32 (fld w 16 5)) s
  | 8 => execHmigrate (Fin.ofNat 32 (fld w 21 5)) (Fin.ofNat 32 (fld w 16 5)) s
  | _ => execIllegalInstr s

def run1D (w : Nat) (s : State) : Host.Outcome State Fault Refusal :=
  match fld w 0 11 with
  | 0 => execFrpop (Fin.ofNat 32 (fld w 21 5)) (Fin.ofNat 32 (fld w 16 5)) s
  | 1 => execTimerd (Fin.ofNat 32 (fld w 21 5)) (Fin.ofNat 32 (fld w 16 5)) s
  | 2 => if fld w 11 5 = 0 then execLstatRead (Fin.ofNat 32 (fld w 21 5)) (Fin.ofNat 32 (fld w 16 5)) s
    else if fld w 11 5 = 1 then execLstatEnable (Fin.ofNat 32 (fld w 21 5)) (Fin.ofNat 32 (fld w 16 5)) s
    else if fld w 11 5 = 2 then execLstatDisable (Fin.ofNat 32 (fld w 21 5)) (Fin.ofNat 32 (fld w 16 5)) s
    else execLstatRetrain (Fin.ofNat 32 (fld w 21 5)) (Fin.ofNat 32 (fld w 16 5)) s
  | _ => execIllegalInstr s

def run20 (w : Nat) (s : State) : Host.Outcome State Fault Refusal :=
  match fld w 0 4 with
  | 0 => execFadd (Fin.ofNat 32 (fld w 21 5)) (Fin.ofNat 32 (fld w 16 5)) (Fin.ofNat 32 (fld w 11 5)) (Fin.ofNat 8 (fld w 8 3)) (Fin.ofNat 16 (fld w 4 4)) s
  | 1 => execFsub (Fin.ofNat 32 (fld w 21 5)) (Fin.ofNat 32 (fld w 16 5)) (Fin.ofNat 32 (fld w 11 5)) (Fin.ofNat 8 (fld w 8 3)) (Fin.ofNat 16 (fld w 4 4)) s
  | 2 => execFmul (Fin.ofNat 32 (fld w 21 5)) (Fin.ofNat 32 (fld w 16 5)) (Fin.ofNat 32 (fld w 11 5)) (Fin.ofNat 8 (fld w 8 3)) (Fin.ofNat 16 (fld w 4 4)) s
  | 3 => execFdiv (Fin.ofNat 32 (fld w 21 5)) (Fin.ofNat 32 (fld w 16 5)) (Fin.ofNat 32 (fld w 11 5)) (Fin.ofNat 8 (fld w 8 3)) (Fin.ofNat 16 (fld w 4 4)) s
  | 4 => execFsqrt (Fin.ofNat 32 (fld w 21 5)) (Fin.ofNat 32 (fld w 16 5)) (Fin.ofNat 8 (fld w 8 3)) (Fin.ofNat 16 (fld w 4 4)) s
  | 5 => execFmin (Fin.ofNat 32 (fld w 21 5)) (Fin.ofNat 32 (fld w 16 5)) (Fin.ofNat 32 (fld w 11 5)) (Fin.ofNat 8 (fld w 8 3)) (Fin.ofNat 16 (fld w 4 4)) s
  | 6 => execFmax (Fin.ofNat 32 (fld w 21 5)) (Fin.ofNat 32 (fld w 16 5)) (Fin.ofNat 32 (fld w 11 5)) (Fin.ofNat 8 (fld w 8 3)) (Fin.ofNat 16 (fld w 4 4)) s
  | 7 => execFsgnj (Fin.ofNat 32 (fld w 21 5)) (Fin.ofNat 32 (fld w 16 5)) (Fin.ofNat 32 (fld w 11 5)) (Fin.ofNat 8 (fld w 8 3)) (Fin.ofNat 16 (fld w 4 4)) s
  | 8 => execFsgnjn (Fin.ofNat 32 (fld w 21 5)) (Fin.ofNat 32 (fld w 16 5)) (Fin.ofNat 32 (fld w 11 5)) (Fin.ofNat 8 (fld w 8 3)) (Fin.ofNat 16 (fld w 4 4)) s
  | 9 => execFsgnjx (Fin.ofNat 32 (fld w 21 5)) (Fin.ofNat 32 (fld w 16 5)) (Fin.ofNat 32 (fld w 11 5)) (Fin.ofNat 8 (fld w 8 3)) (Fin.ofNat 16 (fld w 4 4)) s
  | 10 => execFclass (Fin.ofNat 32 (fld w 21 5)) (Fin.ofNat 32 (fld w 16 5)) (Fin.ofNat 8 (fld w 8 3)) (Fin.ofNat 16 (fld w 4 4)) s
  | 11 => execFmov (Fin.ofNat 32 (fld w 21 5)) (Fin.ofNat 32 (fld w 16 5)) (Fin.ofNat 8 (fld w 8 3)) (Fin.ofNat 16 (fld w 4 4)) s
  | _ => execIllegalInstr s

def run21 (w : Nat) (s : State) : Host.Outcome State Fault Refusal :=
  match fld w 0 4 with
  | 0 => execFmadd (Fin.ofNat 32 (fld w 21 5)) (Fin.ofNat 32 (fld w 16 5)) (Fin.ofNat 32 (fld w 11 5)) (Fin.ofNat 32 (fld w 6 5)) (Fin.ofNat 4 (fld w 4 2)) s
  | 1 => execFmsub (Fin.ofNat 32 (fld w 21 5)) (Fin.ofNat 32 (fld w 16 5)) (Fin.ofNat 32 (fld w 11 5)) (Fin.ofNat 32 (fld w 6 5)) (Fin.ofNat 4 (fld w 4 2)) s
  | 2 => execFnmadd (Fin.ofNat 32 (fld w 21 5)) (Fin.ofNat 32 (fld w 16 5)) (Fin.ofNat 32 (fld w 11 5)) (Fin.ofNat 32 (fld w 6 5)) (Fin.ofNat 4 (fld w 4 2)) s
  | 3 => execFnmsub (Fin.ofNat 32 (fld w 21 5)) (Fin.ofNat 32 (fld w 16 5)) (Fin.ofNat 32 (fld w 11 5)) (Fin.ofNat 32 (fld w 6 5)) (Fin.ofNat 4 (fld w 4 2)) s
  | _ => execIllegalInstr s

def run22 (w : Nat) (s : State) : Host.Outcome State Fault Refusal :=
  match fld w 0 4 with
  | 0 => execFcvt (Fin.ofNat 32 (fld w 21 5)) (Fin.ofNat 32 (fld w 16 5)) (Fin.ofNat 16 (fld w 11 4)) (Fin.ofNat 8 (fld w 8 3)) (Fin.ofNat 16 (fld w 4 4)) s
  | 1 => execFeq (Fin.ofNat 32 (fld w 21 5)) (Fin.ofNat 32 (fld w 16 5)) (Fin.ofNat 32 (fld w 11 5)) (Fin.ofNat 8 (fld w 8 3)) (Fin.ofNat 16 (fld w 4 4)) s
  | 2 => execFlt (Fin.ofNat 32 (fld w 21 5)) (Fin.ofNat 32 (fld w 16 5)) (Fin.ofNat 32 (fld w 11 5)) (Fin.ofNat 8 (fld w 8 3)) (Fin.ofNat 16 (fld w 4 4)) s
  | 3 => execFle (Fin.ofNat 32 (fld w 21 5)) (Fin.ofNat 32 (fld w 16 5)) (Fin.ofNat 32 (fld w 11 5)) (Fin.ofNat 8 (fld w 8 3)) (Fin.ofNat 16 (fld w 4 4)) s
  | 4 => execFunord (Fin.ofNat 32 (fld w 21 5)) (Fin.ofNat 32 (fld w 16 5)) (Fin.ofNat 32 (fld w 11 5)) (Fin.ofNat 8 (fld w 8 3)) (Fin.ofNat 16 (fld w 4 4)) s
  | 5 => execFcvtfl (Fin.ofNat 32 (fld w 21 5)) (Fin.ofNat 32 (fld w 16 5)) (Fin.ofNat 8 (fld w 8 3)) (Fin.ofNat 16 (fld w 4 4)) s
  | 6 => execFcvtlf (Fin.ofNat 32 (fld w 21 5)) (Fin.ofNat 32 (fld w 16 5)) (Fin.ofNat 8 (fld w 8 3)) (Fin.ofNat 16 (fld w 4 4)) s
  | _ => execIllegalInstr s

def run23 (w : Nat) (s : State) : Host.Outcome State Fault Refusal :=
  match fld w 0 4 with
  | 0 => execIadd (Fin.ofNat 32 (fld w 21 5)) (Fin.ofNat 32 (fld w 16 5)) (Fin.ofNat 32 (fld w 11 5)) (Fin.ofNat 8 (fld w 8 3)) s
  | 1 => execIsub (Fin.ofNat 32 (fld w 21 5)) (Fin.ofNat 32 (fld w 16 5)) (Fin.ofNat 32 (fld w 11 5)) (Fin.ofNat 8 (fld w 8 3)) s
  | 2 => execImul (Fin.ofNat 32 (fld w 21 5)) (Fin.ofNat 32 (fld w 16 5)) (Fin.ofNat 32 (fld w 11 5)) (Fin.ofNat 8 (fld w 8 3)) s
  | 3 => execIand (Fin.ofNat 32 (fld w 21 5)) (Fin.ofNat 32 (fld w 16 5)) (Fin.ofNat 32 (fld w 11 5)) (Fin.ofNat 8 (fld w 8 3)) s
  | 4 => execIor (Fin.ofNat 32 (fld w 21 5)) (Fin.ofNat 32 (fld w 16 5)) (Fin.ofNat 32 (fld w 11 5)) (Fin.ofNat 8 (fld w 8 3)) s
  | 5 => execIxor (Fin.ofNat 32 (fld w 21 5)) (Fin.ofNat 32 (fld w 16 5)) (Fin.ofNat 32 (fld w 11 5)) (Fin.ofNat 8 (fld w 8 3)) s
  | 6 => execIsll (Fin.ofNat 32 (fld w 21 5)) (Fin.ofNat 32 (fld w 16 5)) (Fin.ofNat 32 (fld w 11 5)) (Fin.ofNat 8 (fld w 8 3)) s
  | 7 => execIsrl (Fin.ofNat 32 (fld w 21 5)) (Fin.ofNat 32 (fld w 16 5)) (Fin.ofNat 32 (fld w 11 5)) (Fin.ofNat 8 (fld w 8 3)) s
  | 8 => execIsra (Fin.ofNat 32 (fld w 21 5)) (Fin.ofNat 32 (fld w 16 5)) (Fin.ofNat 32 (fld w 11 5)) (Fin.ofNat 8 (fld w 8 3)) s
  | 9 => execImin (Fin.ofNat 32 (fld w 21 5)) (Fin.ofNat 32 (fld w 16 5)) (Fin.ofNat 32 (fld w 11 5)) (Fin.ofNat 8 (fld w 8 3)) s
  | 10 => execImax (Fin.ofNat 32 (fld w 21 5)) (Fin.ofNat 32 (fld w 16 5)) (Fin.ofNat 32 (fld w 11 5)) (Fin.ofNat 8 (fld w 8 3)) s
  | 11 => execIminu (Fin.ofNat 32 (fld w 21 5)) (Fin.ofNat 32 (fld w 16 5)) (Fin.ofNat 32 (fld w 11 5)) (Fin.ofNat 8 (fld w 8 3)) s
  | 12 => execImaxu (Fin.ofNat 32 (fld w 21 5)) (Fin.ofNat 32 (fld w 16 5)) (Fin.ofNat 32 (fld w 11 5)) (Fin.ofNat 8 (fld w 8 3)) s
  | 13 => execIslt (Fin.ofNat 32 (fld w 21 5)) (Fin.ofNat 32 (fld w 16 5)) (Fin.ofNat 32 (fld w 11 5)) (Fin.ofNat 8 (fld w 8 3)) s
  | 14 => execIsltu (Fin.ofNat 32 (fld w 21 5)) (Fin.ofNat 32 (fld w 16 5)) (Fin.ofNat 32 (fld w 11 5)) (Fin.ofNat 8 (fld w 8 3)) s
  | 15 => execImovi (Fin.ofNat 32 (fld w 21 5)) (BitVec.ofNat 10 (fld w 11 10)) (Fin.ofNat 8 (fld w 8 3)) s
  | _ => execIllegalInstr s

def run28 (w : Nat) (s : State) : Host.Outcome State Fault Refusal :=
  match fld w 0 4 with
  | 0 => execVadd (Fin.ofNat 32 (fld w 21 5)) (Fin.ofNat 32 (fld w 16 5)) (Fin.ofNat 32 (fld w 11 5)) (Fin.ofNat 8 (fld w 8 3)) (Fin.ofNat 16 (fld w 4 4)) s
  | 1 => execVsub (Fin.ofNat 32 (fld w 21 5)) (Fin.ofNat 32 (fld w 16 5)) (Fin.ofNat 32 (fld w 11 5)) (Fin.ofNat 8 (fld w 8 3)) (Fin.ofNat 16 (fld w 4 4)) s
  | 2 => execVmul (Fin.ofNat 32 (fld w 21 5)) (Fin.ofNat 32 (fld w 16 5)) (Fin.ofNat 32 (fld w 11 5)) (Fin.ofNat 8 (fld w 8 3)) (Fin.ofNat 16 (fld w 4 4)) s
  | 3 => execVmin (Fin.ofNat 32 (fld w 21 5)) (Fin.ofNat 32 (fld w 16 5)) (Fin.ofNat 32 (fld w 11 5)) (Fin.ofNat 8 (fld w 8 3)) (Fin.ofNat 16 (fld w 4 4)) s
  | 4 => execVmax (Fin.ofNat 32 (fld w 21 5)) (Fin.ofNat 32 (fld w 16 5)) (Fin.ofNat 32 (fld w 11 5)) (Fin.ofNat 8 (fld w 8 3)) (Fin.ofNat 16 (fld w 4 4)) s
  | 5 => execVminu (Fin.ofNat 32 (fld w 21 5)) (Fin.ofNat 32 (fld w 16 5)) (Fin.ofNat 32 (fld w 11 5)) (Fin.ofNat 8 (fld w 8 3)) (Fin.ofNat 16 (fld w 4 4)) s
  | 6 => execVmaxu (Fin.ofNat 32 (fld w 21 5)) (Fin.ofNat 32 (fld w 16 5)) (Fin.ofNat 32 (fld w 11 5)) (Fin.ofNat 8 (fld w 8 3)) (Fin.ofNat 16 (fld w 4 4)) s
  | 7 => execVand (Fin.ofNat 32 (fld w 21 5)) (Fin.ofNat 32 (fld w 16 5)) (Fin.ofNat 32 (fld w 11 5)) (Fin.ofNat 8 (fld w 8 3)) (Fin.ofNat 16 (fld w 4 4)) s
  | 8 => execVor (Fin.ofNat 32 (fld w 21 5)) (Fin.ofNat 32 (fld w 16 5)) (Fin.ofNat 32 (fld w 11 5)) (Fin.ofNat 8 (fld w 8 3)) (Fin.ofNat 16 (fld w 4 4)) s
  | 9 => execVxor (Fin.ofNat 32 (fld w 21 5)) (Fin.ofNat 32 (fld w 16 5)) (Fin.ofNat 32 (fld w 11 5)) (Fin.ofNat 8 (fld w 8 3)) (Fin.ofNat 16 (fld w 4 4)) s
  | 10 => execVsll (Fin.ofNat 32 (fld w 21 5)) (Fin.ofNat 32 (fld w 16 5)) (Fin.ofNat 32 (fld w 11 5)) (Fin.ofNat 8 (fld w 8 3)) (Fin.ofNat 16 (fld w 4 4)) s
  | 11 => execVsrl (Fin.ofNat 32 (fld w 21 5)) (Fin.ofNat 32 (fld w 16 5)) (Fin.ofNat 32 (fld w 11 5)) (Fin.ofNat 8 (fld w 8 3)) (Fin.ofNat 16 (fld w 4 4)) s
  | 12 => execVsra (Fin.ofNat 32 (fld w 21 5)) (Fin.ofNat 32 (fld w 16 5)) (Fin.ofNat 32 (fld w 11 5)) (Fin.ofNat 8 (fld w 8 3)) (Fin.ofNat 16 (fld w 4 4)) s
  | 13 => execVmulh (Fin.ofNat 32 (fld w 21 5)) (Fin.ofNat 32 (fld w 16 5)) (Fin.ofNat 32 (fld w 11 5)) (Fin.ofNat 8 (fld w 8 3)) (Fin.ofNat 16 (fld w 4 4)) s
  | 14 => execVmulhu (Fin.ofNat 32 (fld w 21 5)) (Fin.ofNat 32 (fld w 16 5)) (Fin.ofNat 32 (fld w 11 5)) (Fin.ofNat 8 (fld w 8 3)) (Fin.ofNat 16 (fld w 4 4)) s
  | 15 => execVabsd (Fin.ofNat 32 (fld w 21 5)) (Fin.ofNat 32 (fld w 16 5)) (Fin.ofNat 32 (fld w 11 5)) (Fin.ofNat 8 (fld w 8 3)) (Fin.ofNat 16 (fld w 4 4)) s
  | _ => execIllegalInstr s

def run29 (w : Nat) (s : State) : Host.Outcome State Fault Refusal :=
  match fld w 0 4 with
  | 0 => execVfadd (Fin.ofNat 32 (fld w 21 5)) (Fin.ofNat 32 (fld w 16 5)) (Fin.ofNat 32 (fld w 11 5)) (Fin.ofNat 8 (fld w 8 3)) (Fin.ofNat 16 (fld w 4 4)) s
  | 1 => execVfsub (Fin.ofNat 32 (fld w 21 5)) (Fin.ofNat 32 (fld w 16 5)) (Fin.ofNat 32 (fld w 11 5)) (Fin.ofNat 8 (fld w 8 3)) (Fin.ofNat 16 (fld w 4 4)) s
  | 2 => execVfmul (Fin.ofNat 32 (fld w 21 5)) (Fin.ofNat 32 (fld w 16 5)) (Fin.ofNat 32 (fld w 11 5)) (Fin.ofNat 8 (fld w 8 3)) (Fin.ofNat 16 (fld w 4 4)) s
  | 3 => execVfdiv (Fin.ofNat 32 (fld w 21 5)) (Fin.ofNat 32 (fld w 16 5)) (Fin.ofNat 32 (fld w 11 5)) (Fin.ofNat 8 (fld w 8 3)) (Fin.ofNat 16 (fld w 4 4)) s
  | 4 => execVfsqrt (Fin.ofNat 32 (fld w 21 5)) (Fin.ofNat 32 (fld w 16 5)) (Fin.ofNat 8 (fld w 8 3)) (Fin.ofNat 16 (fld w 4 4)) s
  | 5 => execVfmin (Fin.ofNat 32 (fld w 21 5)) (Fin.ofNat 32 (fld w 16 5)) (Fin.ofNat 32 (fld w 11 5)) (Fin.ofNat 8 (fld w 8 3)) (Fin.ofNat 16 (fld w 4 4)) s
  | 6 => execVfmax (Fin.ofNat 32 (fld w 21 5)) (Fin.ofNat 32 (fld w 16 5)) (Fin.ofNat 32 (fld w 11 5)) (Fin.ofNat 8 (fld w 8 3)) (Fin.ofNat 16 (fld w 4 4)) s
  | 7 => execVfabs (Fin.ofNat 32 (fld w 21 5)) (Fin.ofNat 32 (fld w 16 5)) (Fin.ofNat 8 (fld w 8 3)) (Fin.ofNat 16 (fld w 4 4)) s
  | 8 => execVfneg (Fin.ofNat 32 (fld w 21 5)) (Fin.ofNat 32 (fld w 16 5)) (Fin.ofNat 8 (fld w 8 3)) (Fin.ofNat 16 (fld w 4 4)) s
  | 9 => execVfeq (Fin.ofNat 32 (fld w 21 5)) (Fin.ofNat 32 (fld w 16 5)) (Fin.ofNat 32 (fld w 11 5)) (Fin.ofNat 8 (fld w 8 3)) (Fin.ofNat 16 (fld w 4 4)) s
  | 10 => execVflt (Fin.ofNat 32 (fld w 21 5)) (Fin.ofNat 32 (fld w 16 5)) (Fin.ofNat 32 (fld w 11 5)) (Fin.ofNat 8 (fld w 8 3)) (Fin.ofNat 16 (fld w 4 4)) s
  | 11 => execVfle (Fin.ofNat 32 (fld w 21 5)) (Fin.ofNat 32 (fld w 16 5)) (Fin.ofNat 32 (fld w 11 5)) (Fin.ofNat 8 (fld w 8 3)) (Fin.ofNat 16 (fld w 4 4)) s
  | 12 => execVsel (Fin.ofNat 32 (fld w 21 5)) (Fin.ofNat 32 (fld w 16 5)) (Fin.ofNat 32 (fld w 11 5)) (Fin.ofNat 8 (fld w 8 3)) (Fin.ofNat 16 (fld w 4 4)) s
  | _ => execIllegalInstr s

def run2A (w : Nat) (s : State) : Host.Outcome State Fault Refusal :=
  match fld w 0 2 with
  | 0 => execVfmadd (Fin.ofNat 32 (fld w 21 5)) (Fin.ofNat 32 (fld w 16 5)) (Fin.ofNat 32 (fld w 11 5)) (Fin.ofNat 32 (fld w 6 5)) (Fin.ofNat 4 (fld w 4 2)) (Fin.ofNat 4 (fld w 2 2)) s
  | 1 => execVfmsub (Fin.ofNat 32 (fld w 21 5)) (Fin.ofNat 32 (fld w 16 5)) (Fin.ofNat 32 (fld w 11 5)) (Fin.ofNat 32 (fld w 6 5)) (Fin.ofNat 4 (fld w 4 2)) (Fin.ofNat 4 (fld w 2 2)) s
  | 2 => execVfnmadd (Fin.ofNat 32 (fld w 21 5)) (Fin.ofNat 32 (fld w 16 5)) (Fin.ofNat 32 (fld w 11 5)) (Fin.ofNat 32 (fld w 6 5)) (Fin.ofNat 4 (fld w 4 2)) (Fin.ofNat 4 (fld w 2 2)) s
  | 3 => execVfnmsub (Fin.ofNat 32 (fld w 21 5)) (Fin.ofNat 32 (fld w 16 5)) (Fin.ofNat 32 (fld w 11 5)) (Fin.ofNat 32 (fld w 6 5)) (Fin.ofNat 4 (fld w 4 2)) (Fin.ofNat 4 (fld w 2 2)) s
  | _ => execIllegalInstr s

def run2B (w : Nat) (s : State) : Host.Outcome State Fault Refusal :=
  match fld w 0 4 with
  | 0 => execVperm (Fin.ofNat 32 (fld w 21 5)) (Fin.ofNat 32 (fld w 16 5)) (Fin.ofNat 32 (fld w 11 5)) (Fin.ofNat 8 (fld w 8 3)) (Fin.ofNat 16 (fld w 4 4)) s
  | 1 => execVbcast (Fin.ofNat 32 (fld w 21 5)) (Fin.ofNat 32 (fld w 16 5)) (Fin.ofNat 8 (fld w 8 3)) (Fin.ofNat 16 (fld w 4 4)) s
  | 2 => execVslup (Fin.ofNat 32 (fld w 21 5)) (Fin.ofNat 32 (fld w 16 5)) (Fin.ofNat 32 (fld w 11 5)) (Fin.ofNat 8 (fld w 8 3)) (Fin.ofNat 16 (fld w 4 4)) s
  | 3 => execVsldn (Fin.ofNat 32 (fld w 21 5)) (Fin.ofNat 32 (fld w 16 5)) (Fin.ofNat 32 (fld w 11 5)) (Fin.ofNat 8 (fld w 8 3)) (Fin.ofNat 16 (fld w 4 4)) s
  | 4 => execVcompr (Fin.ofNat 32 (fld w 21 5)) (Fin.ofNat 32 (fld w 16 5)) (Fin.ofNat 8 (fld w 8 3)) (Fin.ofNat 16 (fld w 4 4)) s
  | 5 => execVexpnd (Fin.ofNat 32 (fld w 21 5)) (Fin.ofNat 32 (fld w 16 5)) (Fin.ofNat 8 (fld w 8 3)) (Fin.ofNat 16 (fld w 4 4)) s
  | 6 => execVrsum (Fin.ofNat 32 (fld w 21 5)) (Fin.ofNat 32 (fld w 16 5)) (Fin.ofNat 8 (fld w 8 3)) (Fin.ofNat 16 (fld w 4 4)) s
  | 7 => execVrmax (Fin.ofNat 32 (fld w 21 5)) (Fin.ofNat 32 (fld w 16 5)) (Fin.ofNat 8 (fld w 8 3)) (Fin.ofNat 16 (fld w 4 4)) s
  | 8 => execVrmin (Fin.ofNat 32 (fld w 21 5)) (Fin.ofNat 32 (fld w 16 5)) (Fin.ofNat 8 (fld w 8 3)) (Fin.ofNat 16 (fld w 4 4)) s
  | 9 => execVtopk (Fin.ofNat 32 (fld w 21 5)) (Fin.ofNat 32 (fld w 16 5)) (Fin.ofNat 32 (fld w 11 5)) (Fin.ofNat 8 (fld w 8 3)) (Fin.ofNat 16 (fld w 4 4)) s
  | 10 => execVzip (Fin.ofNat 32 (fld w 21 5)) (Fin.ofNat 32 (fld w 16 5)) (Fin.ofNat 32 (fld w 11 5)) (Fin.ofNat 8 (fld w 8 3)) (Fin.ofNat 16 (fld w 4 4)) s
  | 11 => execVunzip (Fin.ofNat 32 (fld w 21 5)) (Fin.ofNat 32 (fld w 16 5)) (Fin.ofNat 32 (fld w 11 5)) (Fin.ofNat 8 (fld w 8 3)) (Fin.ofNat 16 (fld w 4 4)) s
  | 12 => execVrev (Fin.ofNat 32 (fld w 21 5)) (Fin.ofNat 32 (fld w 16 5)) (Fin.ofNat 8 (fld w 8 3)) (Fin.ofNat 16 (fld w 4 4)) s
  | _ => execIllegalInstr s

def run2C (w : Nat) (s : State) : Host.Outcome State Fault Refusal :=
  match fld w 0 4 with
  | 0 => execPand (Fin.ofNat 32 (fld w 21 5)) (Fin.ofNat 32 (fld w 16 5)) (Fin.ofNat 32 (fld w 11 5)) (Fin.ofNat 8 (fld w 8 3)) s
  | 1 => execPor (Fin.ofNat 32 (fld w 21 5)) (Fin.ofNat 32 (fld w 16 5)) (Fin.ofNat 32 (fld w 11 5)) (Fin.ofNat 8 (fld w 8 3)) s
  | 2 => execPxor (Fin.ofNat 32 (fld w 21 5)) (Fin.ofNat 32 (fld w 16 5)) (Fin.ofNat 32 (fld w 11 5)) (Fin.ofNat 8 (fld w 8 3)) s
  | 3 => execPnot (Fin.ofNat 32 (fld w 21 5)) (Fin.ofNat 32 (fld w 16 5)) (Fin.ofNat 8 (fld w 8 3)) s
  | 4 => execLoopp (Fin.ofNat 32 (fld w 21 5)) (Fin.ofNat 32 (fld w 16 5)) (Fin.ofNat 32 (fld w 11 5)) (Fin.ofNat 8 (fld w 8 3)) (Fin.ofNat 16 (fld w 4 4)) s
  | 5 => execVcmpeq (Fin.ofNat 32 (fld w 21 5)) (Fin.ofNat 32 (fld w 16 5)) (Fin.ofNat 32 (fld w 11 5)) (Fin.ofNat 8 (fld w 8 3)) (Fin.ofNat 16 (fld w 4 4)) s
  | 6 => execVcmplt (Fin.ofNat 32 (fld w 21 5)) (Fin.ofNat 32 (fld w 16 5)) (Fin.ofNat 32 (fld w 11 5)) (Fin.ofNat 8 (fld w 8 3)) (Fin.ofNat 16 (fld w 4 4)) s
  | 7 => execVcmpltu (Fin.ofNat 32 (fld w 21 5)) (Fin.ofNat 32 (fld w 16 5)) (Fin.ofNat 32 (fld w 11 5)) (Fin.ofNat 8 (fld w 8 3)) (Fin.ofNat 16 (fld w 4 4)) s
  | 8 => execVcmple (Fin.ofNat 32 (fld w 21 5)) (Fin.ofNat 32 (fld w 16 5)) (Fin.ofNat 32 (fld w 11 5)) (Fin.ofNat 8 (fld w 8 3)) (Fin.ofNat 16 (fld w 4 4)) s
  | 9 => execVcmpleu (Fin.ofNat 32 (fld w 21 5)) (Fin.ofNat 32 (fld w 16 5)) (Fin.ofNat 32 (fld w 11 5)) (Fin.ofNat 8 (fld w 8 3)) (Fin.ofNat 16 (fld w 4 4)) s
  | 10 => execPcnt (Fin.ofNat 32 (fld w 21 5)) (Fin.ofNat 32 (fld w 16 5)) (Fin.ofNat 8 (fld w 8 3)) (Fin.ofNat 16 (fld w 4 4)) s
  | 11 => execPfirst (Fin.ofNat 32 (fld w 21 5)) (Fin.ofNat 32 (fld w 16 5)) (Fin.ofNat 8 (fld w 8 3)) (Fin.ofNat 16 (fld w 4 4)) s
  | _ => execIllegalInstr s

def run2D (w : Nat) (s : State) : Host.Outcome State Fault Refusal :=
  match fld w 0 4 with
  | 0 => execVcvt (Fin.ofNat 32 (fld w 21 5)) (Fin.ofNat 32 (fld w 16 5)) (Fin.ofNat 16 (fld w 11 4)) (Fin.ofNat 8 (fld w 8 3)) (Fin.ofNat 16 (fld w 4 4)) s
  | 1 => execVcvtr (Fin.ofNat 32 (fld w 21 5)) (Fin.ofNat 32 (fld w 16 5)) (Fin.ofNat 16 (fld w 11 4)) (Fin.ofNat 8 (fld w 8 3)) (Fin.ofNat 16 (fld w 4 4)) s
  | 2 => execVderot (Fin.ofNat 32 (fld w 21 5)) (Fin.ofNat 32 (fld w 16 5)) (Fin.ofNat 16 (fld w 11 4)) (Fin.ofNat 8 (fld w 8 3)) (Fin.ofNat 16 (fld w 4 4)) s
  | 3 => execHsld (Fin.ofNat 32 (fld w 21 5)) (Fin.ofNat 32 (fld w 16 5)) (Fin.ofNat 4 (fld w 11 2)) s
  | 4 => execHsrd (Fin.ofNat 32 (fld w 21 5)) (Fin.ofNat 8 (fld w 16 3)) s
  | _ => execIllegalInstr s

def run2E (w : Nat) (s : State) : Host.Outcome State Fault Refusal :=
  match fld w 0 4 with
  | 0 => execVppe (Fin.ofNat 32 (fld w 21 5)) (Fin.ofNat 32 (fld w 16 5)) (Fin.ofNat 32 (fld w 11 5)) (Fin.ofNat 8 (fld w 8 3)) s
  | 1 => execPpld (Fin.ofNat 32 (fld w 21 5)) (Fin.ofNat 32 (fld w 16 5)) (Fin.ofNat 32 (fld w 11 5)) (Fin.ofNat 8 (fld w 8 3)) s
  | 2 => execVrng (Fin.ofNat 32 (fld w 21 5)) (Fin.ofNat 32 (fld w 16 5)) (Fin.ofNat 32 (fld w 11 5)) (Fin.ofNat 8 (fld w 8 3)) (Fin.ofNat 16 (fld w 4 4)) s
  | 3 => execVlq (Fin.ofNat 32 (fld w 21 5)) s
  | 4 => execVmovf (Fin.ofNat 32 (fld w 21 5)) (Fin.ofNat 32 (fld w 16 5)) (Fin.ofNat 32 (fld w 11 5)) (Fin.ofNat 16 (fld w 4 4)) s
  | _ => execIllegalInstr s

def run30 (w : Nat) (s : State) : Host.Outcome State Fault Refusal :=
  match fld w 0 11 with
  | 0 => execMma (Fin.ofNat 32 (fld w 21 5)) (Fin.ofNat 32 (fld w 16 5)) (Fin.ofNat 32 (fld w 11 5)) s
  | 1 => execMmaz (Fin.ofNat 32 (fld w 21 5)) (Fin.ofNat 32 (fld w 16 5)) (Fin.ofNat 32 (fld w 11 5)) s
  | 2 => execMmaad (Fin.ofNat 32 (fld w 21 5)) (Fin.ofNat 32 (fld w 16 5)) (Fin.ofNat 32 (fld w 11 5)) s
  | 3 => execMsca (Fin.ofNat 32 (fld w 21 5)) (Fin.ofNat 32 (fld w 16 5)) (Fin.ofNat 32 (fld w 11 5)) s
  | 4 => execMscars (Fin.ofNat 32 (fld w 21 5)) (Fin.ofNat 32 (fld w 16 5)) (Fin.ofNat 32 (fld w 11 5)) s
  | 5 => execGeom (Fin.ofNat 32 (fld w 21 5)) (Fin.ofNat 32 (fld w 16 5)) s
  | 6 => execMsync s
  | 7 => execPsrd (Fin.ofNat 32 (fld w 21 5)) (Fin.ofNat 32 (fld w 16 5)) (Fin.ofNat 32 (fld w 11 5)) s
  | _ => execIllegalInstr s

def run31 (w : Nat) (s : State) : Host.Outcome State Fault Refusal :=
  match fld w 0 11 with
  | 0 => execHalloc (Fin.ofNat 32 (fld w 21 5)) (Fin.ofNat 32 (fld w 16 5)) s
  | 1 => execHfree (Fin.ofNat 32 (fld w 16 5)) s
  | 2 => execHcfg (Fin.ofNat 32 (fld w 16 5)) (Fin.ofNat 32 (fld w 11 5)) s
  | 3 => execHrowld (Fin.ofNat 32 (fld w 16 5)) (Fin.ofNat 32 (fld w 11 5)) s
  | 4 => execHrowst (Fin.ofNat 32 (fld w 21 5)) (Fin.ofNat 32 (fld w 16 5)) s
  | 5 => execHcolld (Fin.ofNat 32 (fld w 16 5)) (Fin.ofNat 32 (fld w 11 5)) s
  | 6 => execHcolst (Fin.ofNat 32 (fld w 21 5)) (Fin.ofNat 32 (fld w 16 5)) s
  | 7 => execHzero (Fin.ofNat 32 (fld w 16 5)) s
  | 8 => execHdrain (Fin.ofNat 32 (fld w 16 5)) s
  | 9 => execHrescale (Fin.ofNat 32 (fld w 16 5)) s
  | 10 => execHstat (Fin.ofNat 32 (fld w 21 5)) (Fin.ofNat 32 (fld w 16 5)) s
  | _ => execIllegalInstr s

def run32 (w : Nat) (s : State) : Host.Outcome State Fault Refusal :=
  match fld w 0 11 with
  | 0 => execReda (Fin.ofNat 32 (fld w 21 5)) (Fin.ofNat 32 (fld w 16 5)) (Fin.ofNat 32 (fld w 11 5)) s
  | 1 => execRedx (Fin.ofNat 32 (fld w 21 5)) (Fin.ofNat 32 (fld w 16 5)) (Fin.ofNat 32 (fld w 11 5)) s
  | 16 => execAdtbl (Fin.ofNat 32 (fld w 16 5)) (Fin.ofNat 32 (fld w 11 5)) s
  | 17 => execAinv (Fin.ofNat 32 (fld w 16 5)) s
  | 18 => execApref (Fin.ofNat 32 (fld w 16 5)) (Fin.ofNat 32 (fld w 11 5)) s
  | 19 => execAstat (Fin.ofNat 32 (fld w 21 5)) (Fin.ofNat 32 (fld w 16 5)) s
  | _ => execIllegalInstr s

def run38 (w : Nat) (s : State) : Host.Outcome State Fault Refusal :=
  match fld w 0 11 with
  | 0 => execXld (Fin.ofNat 32 (fld w 21 5)) (Fin.ofNat 32 (fld w 16 5)) s
  | 1 => execXst (Fin.ofNat 32 (fld w 21 5)) (Fin.ofNat 32 (fld w 16 5)) s
  | 2 => execXldcol (Fin.ofNat 32 (fld w 21 5)) (Fin.ofNat 32 (fld w 16 5)) s
  | 3 => execXstcol (Fin.ofNat 32 (fld w 21 5)) (Fin.ofNat 32 (fld w 16 5)) s
  | _ => execIllegalInstr s

def run39 (w : Nat) (s : State) : Host.Outcome State Fault Refusal :=
  match fld w 0 11 with
  | 0 => execXgath (Fin.ofNat 32 (fld w 21 5)) (Fin.ofNat 32 (fld w 16 5)) s
  | 1 => execXscat (Fin.ofNat 32 (fld w 21 5)) (Fin.ofNat 32 (fld w 16 5)) s
  | 2 => execXred (Fin.ofNat 32 (fld w 21 5)) (Fin.ofNat 32 (fld w 16 5)) s
  | 3 => execXprog (Fin.ofNat 32 (fld w 21 5)) (Fin.ofNat 32 (fld w 16 5)) s
  | _ => execIllegalInstr s

def run3A (w : Nat) (s : State) : Host.Outcome State Fault Refusal :=
  match fld w 0 11 with
  | 0 => execXpush (Fin.ofNat 32 (fld w 21 5)) (Fin.ofNat 32 (fld w 16 5)) (Fin.ofNat 32 (fld w 11 5)) s
  | 1 => execXpull (Fin.ofNat 32 (fld w 21 5)) (Fin.ofNat 32 (fld w 16 5)) (Fin.ofNat 32 (fld w 11 5)) s
  | 2 => execXwait (Fin.ofNat 32 (fld w 21 5)) (Fin.ofNat 32 (fld w 16 5)) s
  | 3 => execXsect (Fin.ofNat 32 (fld w 21 5)) (Fin.ofNat 32 (fld w 16 5)) (Fin.ofNat 32 (fld w 11 5)) s
  | _ => execIllegalInstr s

def run3B (w : Nat) (s : State) : Host.Outcome State Fault Refusal :=
  match fld w 0 11 with
  | 0 => execXexp24 (Fin.ofNat 32 (fld w 21 5)) (Fin.ofNat 32 (fld w 16 5)) (Fin.ofNat 32 (fld w 11 5)) s
  | 1 => execXbdot (Fin.ofNat 32 (fld w 21 5)) (Fin.ofNat 32 (fld w 16 5)) (Fin.ofNat 32 (fld w 11 5)) s
  | _ => execIllegalInstr s

/-- The meaning a word names. -/
def runWord (w : Nat) (s : State) : Host.Outcome State Fault Refusal :=
  match fld w 26 6 with
  | 1 => run01 w s
  | 2 => run02 w s
  | 3 => run03 w s
  | 4 => run04 w s
  | 5 => run05 w s
  | 6 => run06 w s
  | 8 => run08 w s
  | 9 => run09 w s
  | 10 => run0A w s
  | 11 => run0B w s
  | 16 => run10 w s
  | 17 => run11 w s
  | 18 => run12 w s
  | 19 => run13 w s
  | 20 => run14 w s
  | 21 => run15 w s
  | 22 => run16 w s
  | 24 => run18 w s
  | 25 => run19 w s
  | 26 => run1A w s
  | 27 => run1B w s
  | 28 => run1C w s
  | 29 => run1D w s
  | 32 => run20 w s
  | 33 => run21 w s
  | 34 => run22 w s
  | 35 => run23 w s
  | 40 => run28 w s
  | 41 => run29 w s
  | 42 => run2A w s
  | 43 => run2B w s
  | 44 => run2C w s
  | 45 => run2D w s
  | 46 => run2E w s
  | 48 => run30 w s
  | 49 => run31 w s
  | 50 => run32 w s
  | 56 => run38 w s
  | 57 => run39 w s
  | 58 => run3A w s
  | 59 => run3B w s
  | _ => execIllegalInstr s

end Sys2Proof.Machine
end

