-- ==== Sys2Proof/Machine/Wake.lean ====
section
/-! DEFINITION. The steps by which a waiting instruction goes on (chapters The thread and its core, The accumulator handle
and the matrix unit and The channel): its word is tried again, at whatever time the reason has cleared. -/

namespace Sys2Proof.Machine

/-- The word of a thread tried again; nothing where it has none. -/
def State.again (s : State) (c : CoreName) (t : Thread) : Option State :=
  match ({ s with cur := c, thr := t } : State).nextWord with
  | .word s' =>
    if (checkWord s'.ir.toNat).isSome then none
    else match runWord s'.ir.toNat s' with
      | .next r => some { r with cur := s.cur, thr := s.thr, ir := s.ir }
      | _ => none
  | _ => none

/-- A waiting thread that may go on does, unless the outcome is not wanted; then nothing changes. -/
def State.wake (s : State) (c : CoreName) (t : Thread) (may : ThreadState → Bool) (wanted : ThreadState → Bool) : State :=
  if s.canIssue c t && (s.th c t).live && may (s.th c t) then
    match s.again c t with
    | some r => if wanted (r.th c t) then r else s
    | none => s
  else s

/-- WAIT_REASON_CLEARS (R96, R97): the waiting instruction completes and retires, or traps. -/
def execWaitReasonClears (c : CoreName) (t : Thread) (s : State) : Host.Outcome State Fault Refusal :=
  event (fun s => s.wake c t (fun _ => true) fun h => !h.live) s

/-- WAIT_DEADLINE (R139): a WAIT with none of its events goes on at its deadline. -/
def execWaitDeadline (c : CoreName) (t : Thread) (s : State) : Host.Outcome State Fault Refusal :=
  event (fun s =>
    match ({ s with cur := c, thr := t } : State).nextWord with
    | .word s' =>
      let w := s'.ir.toNat
      if fld w 26 6 = 2 ∧ fld w 12 4 = 2 ∧ fld w 11 1 = 1 ∧ BitVec.ofNat 4 w &&& s.eventBits c t = 0 then
        s.wake c t (fun h => h.wreason = .event) fun h => !h.live
      else s
    | _ => s) s

/-- MATRIX_ACCEPT (R210, R211): the command that waits for room enters its queue and is checked. -/
def execMatrixAccept (o : OctName) (x : Fin 8) (s : State) : Host.Outcome State Fault Refusal :=
  event (fun s => s.wake (.compute o x) .x (fun h => h.wreason = .matrix && h.mx = .none) fun h => !h.live || h.mx != .none) s

/-- CHANNEL_WAIT_EXPIRY (R338): a send or a mark that has waited 2,048 cycles traps. -/
def execChannelWaitExpiry (c : CoreName) (s : State) : Host.Outcome State Fault Refusal :=
  event (fun s => s.wake c .a (fun h => h.wreason = .channel && h.since.any fun t => decide (t + 2048 ≤ s.cycle)) fun h => !h.live) s

end Sys2Proof.Machine
end

