-- ==== Sys2Proof/Machine/Dispatch.lean ====
section
/-! DEFINITION. The dispatch: one arm for each constructor of Instr, in the order of spec/opcode_table.json. -/

namespace Sys2Proof.Machine

/-- The meaning of an instruction or of a step of the device. -/
def exec (i : Instr) (s : State) : Host.Outcome State Fault Refusal :=
  match i with
  | .hintImm d => Sys2Proof.Machine.execHintImm d s
  | .hintMod m => Sys2Proof.Machine.execHintMod m s
  | .hintBr b => Sys2Proof.Machine.execHintBr b s
  | .trap c => Sys2Proof.Machine.execTrap c s
  | .hret => Sys2Proof.Machine.execHret s
  | .wait d a l e => Sys2Proof.Machine.execWait d a l e s
  | .csrr d c => Sys2Proof.Machine.execCsrr d c s
  | .csrw d a c => Sys2Proof.Machine.execCsrw d a c s
  | .csrs d a c => Sys2Proof.Machine.execCsrs d a c s
  | .csrc d a c => Sys2Proof.Machine.execCsrc d a c s
  | .setxb d a => Sys2Proof.Machine.execSetxb d a s
  | .gangForm d n => Sys2Proof.Machine.execGangForm d n s
  | .gangJoin d => Sys2Proof.Machine.execGangJoin d s
  | .gangEnd d => Sys2Proof.Machine.execGangEnd d s
  | .nop => Sys2Proof.Machine.execNop s
  | .beq a b o => Sys2Proof.Machine.execBeq a b o s
  | .bne a b o => Sys2Proof.Machine.execBne a b o s
  | .blt a b o => Sys2Proof.Machine.execBlt a b o s
  | .bge a b o => Sys2Proof.Machine.execBge a b o s
  | .bltu a b o => Sys2Proof.Machine.execBltu a b o s
  | .bgeu a b o => Sys2Proof.Machine.execBgeu a b o s
  | .jal d o => Sys2Proof.Machine.execJal d o s
  | .call d o => Sys2Proof.Machine.execCall d o s
  | .jalr d a i1 => Sys2Proof.Machine.execJalr d a i1 s
  | .ret a => Sys2Proof.Machine.execRet a s
  | .bpany p o => Sys2Proof.Machine.execBpany p o s
  | .bpnone p o => Sys2Proof.Machine.execBpnone p o s
  | .bpall p o => Sys2Proof.Machine.execBpall p o s
  | .bpnall p o => Sys2Proof.Machine.execBpnall p o s
  | .bfz f o => Sys2Proof.Machine.execBfz f o s
  | .bfnz f o => Sys2Proof.Machine.execBfnz f o s
  | .bfltz f o => Sys2Proof.Machine.execBfltz f o s
  | .bfgez f o => Sys2Proof.Machine.execBfgez f o s
  | .pushmG d a => Sys2Proof.Machine.execPushmG d a s
  | .pushmF d a => Sys2Proof.Machine.execPushmF d a s
  | .pushmV d a => Sys2Proof.Machine.execPushmV d a s
  | .popmG d a => Sys2Proof.Machine.execPopmG d a s
  | .popmF d a => Sys2Proof.Machine.execPopmF d a s
  | .popmV d a => Sys2Proof.Machine.execPopmV d a s
  | .add d a b => Sys2Proof.Machine.execAdd d a b s
  | .sub d a b => Sys2Proof.Machine.execSub d a b s
  | .and d a b => Sys2Proof.Machine.execAnd d a b s
  | .or d a b => Sys2Proof.Machine.execOr d a b s
  | .xor d a b => Sys2Proof.Machine.execXor d a b s
  | .sll d a b => Sys2Proof.Machine.execSll d a b s
  | .srl d a b => Sys2Proof.Machine.execSrl d a b s
  | .sra d a b => Sys2Proof.Machine.execSra d a b s
  | .slt d a b => Sys2Proof.Machine.execSlt d a b s
  | .sltu d a b => Sys2Proof.Machine.execSltu d a b s
  | .min d a b => Sys2Proof.Machine.execMin d a b s
  | .max d a b => Sys2Proof.Machine.execMax d a b s
  | .minu d a b => Sys2Proof.Machine.execMinu d a b s
  | .maxu d a b => Sys2Proof.Machine.execMaxu d a b s
  | .rol d a b => Sys2Proof.Machine.execRol d a b s
  | .ror d a b => Sys2Proof.Machine.execRor d a b s
  | .clz d a => Sys2Proof.Machine.execClz d a s
  | .ctz d a => Sys2Proof.Machine.execCtz d a s
  | .popc d a => Sys2Proof.Machine.execPopc d a s
  | .addi d a i1 => Sys2Proof.Machine.execAddi d a i1 s
  | .andi d a i1 => Sys2Proof.Machine.execAndi d a i1 s
  | .ori d a i1 => Sys2Proof.Machine.execOri d a i1 s
  | .xori d a i1 => Sys2Proof.Machine.execXori d a i1 s
  | .slti d a i1 => Sys2Proof.Machine.execSlti d a i1 s
  | .sltiu d a i1 => Sys2Proof.Machine.execSltiu d a i1 s
  | .slli d a r1 => Sys2Proof.Machine.execSlli d a r1 s
  | .srli d a r1 => Sys2Proof.Machine.execSrli d a r1 s
  | .srai d a r1 => Sys2Proof.Machine.execSrai d a r1 s
  | .rori d a r1 => Sys2Proof.Machine.execRori d a r1 s
  | .lui d i1 => Sys2Proof.Machine.execLui d i1 s
  | .luih d i1 => Sys2Proof.Machine.execLuih d i1 s
  | .luit d i1 => Sys2Proof.Machine.execLuit d i1 s
  | .addpc d i1 => Sys2Proof.Machine.execAddpc d i1 s
  | .mul d a b => Sys2Proof.Machine.execMul d a b s
  | .mulh d a b => Sys2Proof.Machine.execMulh d a b s
  | .mulhu d a b => Sys2Proof.Machine.execMulhu d a b s
  | .div d a b => Sys2Proof.Machine.execDiv d a b s
  | .divu d a b => Sys2Proof.Machine.execDivu d a b s
  | .rem d a b => Sys2Proof.Machine.execRem d a b s
  | .remu d a b => Sys2Proof.Machine.execRemu d a b s
  | .ldb d a i1 => Sys2Proof.Machine.execLdb d a i1 s
  | .ldbu d a i1 => Sys2Proof.Machine.execLdbu d a i1 s
  | .ldh d a i1 => Sys2Proof.Machine.execLdh d a i1 s
  | .ldhu d a i1 => Sys2Proof.Machine.execLdhu d a i1 s
  | .ldw d a i1 => Sys2Proof.Machine.execLdw d a i1 s
  | .ldwu d a i1 => Sys2Proof.Machine.execLdwu d a i1 s
  | .ldd d a i1 => Sys2Proof.Machine.execLdd d a i1 s
  | .xpref a i1 => Sys2Proof.Machine.execXpref a i1 s
  | .stb r1 b i1 => Sys2Proof.Machine.execStb r1 b i1 s
  | .sth r1 b i1 => Sys2Proof.Machine.execSth r1 b i1 s
  | .stw r1 b i1 => Sys2Proof.Machine.execStw r1 b i1 s
  | .std r1 b i1 => Sys2Proof.Machine.execStd r1 b i1 s
  | .stn r1 b i1 => Sys2Proof.Machine.execStn r1 b i1 s
  | .amoadd d a b w => Sys2Proof.Machine.execAmoadd d a b w s
  | .amoand d a b w => Sys2Proof.Machine.execAmoand d a b w s
  | .amoor d a b w => Sys2Proof.Machine.execAmoor d a b w s
  | .amoxor d a b w => Sys2Proof.Machine.execAmoxor d a b w s
  | .amomin d a b w => Sys2Proof.Machine.execAmomin d a b w s
  | .amomax d a b w => Sys2Proof.Machine.execAmomax d a b w s
  | .amominu d a b w => Sys2Proof.Machine.execAmominu d a b w s
  | .amomaxu d a b w => Sys2Proof.Machine.execAmomaxu d a b w s
  | .amoswap d a b w => Sys2Proof.Machine.execAmoswap d a b w s
  | .amocas d a b w => Sys2Proof.Machine.execAmocas d a b w s
  | .bind r1 a b => Sys2Proof.Machine.execBind r1 a b s
  | .acq a => Sys2Proof.Machine.execAcq a s
  | .acqr a => Sys2Proof.Machine.execAcqr a s
  | .rel a => Sys2Proof.Machine.execRel a s
  | .fence r1 => Sys2Proof.Machine.execFence r1 s
  | .discard m a b => Sys2Proof.Machine.execDiscard m a b s
  | .scfg n a b => Sys2Proof.Machine.execScfg n a b s
  | .sdim k n a b => Sys2Proof.Machine.execSdim k n a b s
  | .sind n m b => Sys2Proof.Machine.execSind n m b s
  | .sman n b => Sys2Proof.Machine.execSman n b s
  | .sen n => Sys2Proof.Machine.execSen n s
  | .sdis n => Sys2Proof.Machine.execSdis n s
  | .sflush n => Sys2Proof.Machine.execSflush n s
  | .ldq n a => Sys2Proof.Machine.execLdq n a s
  | .stq n a => Sys2Proof.Machine.execStq n a s
  | .qput a => Sys2Proof.Machine.execQput a s
  | .qget d => Sys2Proof.Machine.execQget d s
  | .rpt a m p l => Sys2Proof.Machine.execRpt a m p l s
  | .send c a b => Sys2Proof.Machine.execSend c a b s
  | .sendm c a b => Sys2Proof.Machine.execSendm c a b s
  | .recv d a b => Sys2Proof.Machine.execRecv d a b s
  | .recvm d a b => Sys2Proof.Machine.execRecvm d a b s
  | .mark => Sys2Proof.Machine.execMark s
  | .radv d => Sys2Proof.Machine.execRadv d s
  | .chstatState d a => Sys2Proof.Machine.execChstatState d a s
  | .chstatDecl d a => Sys2Proof.Machine.execChstatDecl d a s
  | .chstatClose d a => Sys2Proof.Machine.execChstatClose d a s
  | .chstatKword d => Sys2Proof.Machine.execChstatKword d s
  | .chstatRound d => Sys2Proof.Machine.execChstatRound d s
  | .chstatSeq d a => Sys2Proof.Machine.execChstatSeq d a s
  | .kickRing a b => Sys2Proof.Machine.execKickRing a b s
  | .kickMbox a b => Sys2Proof.Machine.execKickMbox a b s
  | .kickDone a b => Sys2Proof.Machine.execKickDone a b s
  | .kickDonerec a b => Sys2Proof.Machine.execKickDonerec a b s
  | .bcfg a k => Sys2Proof.Machine.execBcfg a k s
  | .barr k => Sys2Proof.Machine.execBarr k s
  | .bwait k => Sys2Proof.Machine.execBwait k s
  | .bsync k => Sys2Proof.Machine.execBsync k s
  | .btest d k => Sys2Proof.Machine.execBtest d k s
  | .rqpush c a b => Sys2Proof.Machine.execRqpush c a b s
  | .next a => Sys2Proof.Machine.execNext a s
  | .nextw d => Sys2Proof.Machine.execNextw d s
  | .append d a b => Sys2Proof.Machine.execAppend d a b s
  | .take d a => Sys2Proof.Machine.execTake d a s
  | .takeEndHold d a => Sys2Proof.Machine.execTakeEndHold d a s
  | .tdarm a b => Sys2Proof.Machine.execTdarm a b s
  | .launch d a b => Sys2Proof.Machine.execLaunch d a b s
  | .lwait d a => Sys2Proof.Machine.execLwait d a s
  | .cancel d a => Sys2Proof.Machine.execCancel d a s
  | .cntrd d a => Sys2Proof.Machine.execCntrd d a s
  | .ginfo d i1 b => Sys2Proof.Machine.execGinfo d i1 b s
  | .gdone a => Sys2Proof.Machine.execGdone a s
  | .evpop d a => Sys2Proof.Machine.execEvpop d a s
  | .evpush d a b => Sys2Proof.Machine.execEvpush d a b s
  | .preempt d a => Sys2Proof.Machine.execPreempt d a s
  | .save d a => Sys2Proof.Machine.execSave d a s
  | .restore d a => Sys2Proof.Machine.execRestore d a s
  | .pinv d a b => Sys2Proof.Machine.execPinv d a b s
  | .pprobe d a b => Sys2Proof.Machine.execPprobe d a b s
  | .chkpair d a => Sys2Proof.Machine.execChkpair d a s
  | .hmigrate d a => Sys2Proof.Machine.execHmigrate d a s
  | .frpop d a => Sys2Proof.Machine.execFrpop d a s
  | .timerd d a => Sys2Proof.Machine.execTimerd d a s
  | .lstatRead d a => Sys2Proof.Machine.execLstatRead d a s
  | .lstatEnable d a => Sys2Proof.Machine.execLstatEnable d a s
  | .lstatDisable d a => Sys2Proof.Machine.execLstatDisable d a s
  | .lstatRetrain d a => Sys2Proof.Machine.execLstatRetrain d a s
  | .fadd d a b p t => Sys2Proof.Machine.execFadd d a b p t s
  | .fsub d a b p t => Sys2Proof.Machine.execFsub d a b p t s
  | .fmul d a b p t => Sys2Proof.Machine.execFmul d a b p t s
  | .fdiv d a b p t => Sys2Proof.Machine.execFdiv d a b p t s
  | .fsqrt d a p t => Sys2Proof.Machine.execFsqrt d a p t s
  | .fmin d a b p t => Sys2Proof.Machine.execFmin d a b p t s
  | .fmax d a b p t => Sys2Proof.Machine.execFmax d a b p t s
  | .fsgnj d a b p t => Sys2Proof.Machine.execFsgnj d a b p t s
  | .fsgnjn d a b p t => Sys2Proof.Machine.execFsgnjn d a b p t s
  | .fsgnjx d a b p t => Sys2Proof.Machine.execFsgnjx d a b p t s
  | .fclass d a p t => Sys2Proof.Machine.execFclass d a p t s
  | .fmov d a p t => Sys2Proof.Machine.execFmov d a p t s
  | .fmadd d a b c t => Sys2Proof.Machine.execFmadd d a b c t s
  | .fmsub d a b c t => Sys2Proof.Machine.execFmsub d a b c t s
  | .fnmadd d a b c t => Sys2Proof.Machine.execFnmadd d a b c t s
  | .fnmsub d a b c t => Sys2Proof.Machine.execFnmsub d a b c t s
  | .fcvt d a r1 p t => Sys2Proof.Machine.execFcvt d a r1 p t s
  | .feq d a b p t => Sys2Proof.Machine.execFeq d a b p t s
  | .flt d a b p t => Sys2Proof.Machine.execFlt d a b p t s
  | .fle d a b p t => Sys2Proof.Machine.execFle d a b p t s
  | .funord d a b p t => Sys2Proof.Machine.execFunord d a b p t s
  | .fcvtfl d a p t => Sys2Proof.Machine.execFcvtfl d a p t s
  | .fcvtlf d a p t => Sys2Proof.Machine.execFcvtlf d a p t s
  | .iadd d a b p => Sys2Proof.Machine.execIadd d a b p s
  | .isub d a b p => Sys2Proof.Machine.execIsub d a b p s
  | .imul d a b p => Sys2Proof.Machine.execImul d a b p s
  | .iand d a b p => Sys2Proof.Machine.execIand d a b p s
  | .ior d a b p => Sys2Proof.Machine.execIor d a b p s
  | .ixor d a b p => Sys2Proof.Machine.execIxor d a b p s
  | .isll d a b p => Sys2Proof.Machine.execIsll d a b p s
  | .isrl d a b p => Sys2Proof.Machine.execIsrl d a b p s
  | .isra d a b p => Sys2Proof.Machine.execIsra d a b p s
  | .imin d a b p => Sys2Proof.Machine.execImin d a b p s
  | .imax d a b p => Sys2Proof.Machine.execImax d a b p s
  | .iminu d a b p => Sys2Proof.Machine.execIminu d a b p s
  | .imaxu d a b p => Sys2Proof.Machine.execImaxu d a b p s
  | .islt d a b p => Sys2Proof.Machine.execIslt d a b p s
  | .isltu d a b p => Sys2Proof.Machine.execIsltu d a b p s
  | .imovi d i1 p => Sys2Proof.Machine.execImovi d i1 p s
  | .vadd d a b p t => Sys2Proof.Machine.execVadd d a b p t s
  | .vsub d a b p t => Sys2Proof.Machine.execVsub d a b p t s
  | .vmul d a b p t => Sys2Proof.Machine.execVmul d a b p t s
  | .vmin d a b p t => Sys2Proof.Machine.execVmin d a b p t s
  | .vmax d a b p t => Sys2Proof.Machine.execVmax d a b p t s
  | .vminu d a b p t => Sys2Proof.Machine.execVminu d a b p t s
  | .vmaxu d a b p t => Sys2Proof.Machine.execVmaxu d a b p t s
  | .vand d a b p t => Sys2Proof.Machine.execVand d a b p t s
  | .vor d a b p t => Sys2Proof.Machine.execVor d a b p t s
  | .vxor d a b p t => Sys2Proof.Machine.execVxor d a b p t s
  | .vsll d a b p t => Sys2Proof.Machine.execVsll d a b p t s
  | .vsrl d a b p t => Sys2Proof.Machine.execVsrl d a b p t s
  | .vsra d a b p t => Sys2Proof.Machine.execVsra d a b p t s
  | .vmulh d a b p t => Sys2Proof.Machine.execVmulh d a b p t s
  | .vmulhu d a b p t => Sys2Proof.Machine.execVmulhu d a b p t s
  | .vabsd d a b p t => Sys2Proof.Machine.execVabsd d a b p t s
  | .vfadd d a b p t => Sys2Proof.Machine.execVfadd d a b p t s
  | .vfsub d a b p t => Sys2Proof.Machine.execVfsub d a b p t s
  | .vfmul d a b p t => Sys2Proof.Machine.execVfmul d a b p t s
  | .vfdiv d a b p t => Sys2Proof.Machine.execVfdiv d a b p t s
  | .vfsqrt d a p t => Sys2Proof.Machine.execVfsqrt d a p t s
  | .vfmin d a b p t => Sys2Proof.Machine.execVfmin d a b p t s
  | .vfmax d a b p t => Sys2Proof.Machine.execVfmax d a b p t s
  | .vfabs d a p t => Sys2Proof.Machine.execVfabs d a p t s
  | .vfneg d a p t => Sys2Proof.Machine.execVfneg d a p t s
  | .vfeq d a b p t => Sys2Proof.Machine.execVfeq d a b p t s
  | .vflt d a b p t => Sys2Proof.Machine.execVflt d a b p t s
  | .vfle d a b p t => Sys2Proof.Machine.execVfle d a b p t s
  | .vsel d a b p t => Sys2Proof.Machine.execVsel d a b p t s
  | .vfmadd d a b c p t => Sys2Proof.Machine.execVfmadd d a b c p t s
  | .vfmsub d a b c p t => Sys2Proof.Machine.execVfmsub d a b c p t s
  | .vfnmadd d a b c p t => Sys2Proof.Machine.execVfnmadd d a b c p t s
  | .vfnmsub d a b c p t => Sys2Proof.Machine.execVfnmsub d a b c p t s
  | .vperm d a b p t => Sys2Proof.Machine.execVperm d a b p t s
  | .vbcast d a p t => Sys2Proof.Machine.execVbcast d a p t s
  | .vslup d a b p t => Sys2Proof.Machine.execVslup d a b p t s
  | .vsldn d a b p t => Sys2Proof.Machine.execVsldn d a b p t s
  | .vcompr d a p t => Sys2Proof.Machine.execVcompr d a p t s
  | .vexpnd d a p t => Sys2Proof.Machine.execVexpnd d a p t s
  | .vrsum d a p t => Sys2Proof.Machine.execVrsum d a p t s
  | .vrmax d a p t => Sys2Proof.Machine.execVrmax d a p t s
  | .vrmin d a p t => Sys2Proof.Machine.execVrmin d a p t s
  | .vtopk d a b p t => Sys2Proof.Machine.execVtopk d a b p t s
  | .vzip d a b p t => Sys2Proof.Machine.execVzip d a b p t s
  | .vunzip d a b p t => Sys2Proof.Machine.execVunzip d a b p t s
  | .vrev d a p t => Sys2Proof.Machine.execVrev d a p t s
  | .pand d a b p => Sys2Proof.Machine.execPand d a b p s
  | .por d a b p => Sys2Proof.Machine.execPor d a b p s
  | .pxor d a b p => Sys2Proof.Machine.execPxor d a b p s
  | .pnot d a p => Sys2Proof.Machine.execPnot d a p s
  | .loopp d a b p t => Sys2Proof.Machine.execLoopp d a b p t s
  | .vcmpeq d a b p t => Sys2Proof.Machine.execVcmpeq d a b p t s
  | .vcmplt d a b p t => Sys2Proof.Machine.execVcmplt d a b p t s
  | .vcmpltu d a b p t => Sys2Proof.Machine.execVcmpltu d a b p t s
  | .vcmple d a b p t => Sys2Proof.Machine.execVcmple d a b p t s
  | .vcmpleu d a b p t => Sys2Proof.Machine.execVcmpleu d a b p t s
  | .pcnt d a p t => Sys2Proof.Machine.execPcnt d a p t s
  | .pfirst d a p t => Sys2Proof.Machine.execPfirst d a p t s
  | .vcvt d a r1 p t => Sys2Proof.Machine.execVcvt d a r1 p t s
  | .vcvtr d a r1 k t => Sys2Proof.Machine.execVcvtr d a r1 k t s
  | .vderot d a r1 k t => Sys2Proof.Machine.execVderot d a r1 k t s
  | .hsld k a b => Sys2Proof.Machine.execHsld k a b s
  | .hsrd d k => Sys2Proof.Machine.execHsrd d k s
  | .vppe d a t p => Sys2Proof.Machine.execVppe d a t p s
  | .ppld t a b p => Sys2Proof.Machine.execPpld t a b p s
  | .vrng d a b p t => Sys2Proof.Machine.execVrng d a b p t s
  | .vlq d => Sys2Proof.Machine.execVlq d s
  | .vmovf d a b t => Sys2Proof.Machine.execVmovf d a b t s
  | .mma d a b => Sys2Proof.Machine.execMma d a b s
  | .mmaz d a b => Sys2Proof.Machine.execMmaz d a b s
  | .mmaad d a b => Sys2Proof.Machine.execMmaad d a b s
  | .msca d a b => Sys2Proof.Machine.execMsca d a b s
  | .mscars d a b => Sys2Proof.Machine.execMscars d a b s
  | .geom d a => Sys2Proof.Machine.execGeom d a s
  | .msync => Sys2Proof.Machine.execMsync s
  | .psrd d k b => Sys2Proof.Machine.execPsrd d k b s
  | .halloc d a => Sys2Proof.Machine.execHalloc d a s
  | .hfree a => Sys2Proof.Machine.execHfree a s
  | .hcfg a b => Sys2Proof.Machine.execHcfg a b s
  | .hrowld a b => Sys2Proof.Machine.execHrowld a b s
  | .hrowst d a => Sys2Proof.Machine.execHrowst d a s
  | .hcolld a b => Sys2Proof.Machine.execHcolld a b s
  | .hcolst d a => Sys2Proof.Machine.execHcolst d a s
  | .hzero a => Sys2Proof.Machine.execHzero a s
  | .hdrain a => Sys2Proof.Machine.execHdrain a s
  | .hrescale a => Sys2Proof.Machine.execHrescale a s
  | .hstat d a => Sys2Proof.Machine.execHstat d a s
  | .reda k a b => Sys2Proof.Machine.execReda k a b s
  | .redx d k b => Sys2Proof.Machine.execRedx d k b s
  | .adtbl a b => Sys2Proof.Machine.execAdtbl a b s
  | .ainv a => Sys2Proof.Machine.execAinv a s
  | .apref a b => Sys2Proof.Machine.execApref a b s
  | .astat d a => Sys2Proof.Machine.execAstat d a s
  | .xld d a => Sys2Proof.Machine.execXld d a s
  | .xst d a => Sys2Proof.Machine.execXst d a s
  | .xldcol d a => Sys2Proof.Machine.execXldcol d a s
  | .xstcol d a => Sys2Proof.Machine.execXstcol d a s
  | .xgath d a => Sys2Proof.Machine.execXgath d a s
  | .xscat d a => Sys2Proof.Machine.execXscat d a s
  | .xred d a => Sys2Proof.Machine.execXred d a s
  | .xprog d a => Sys2Proof.Machine.execXprog d a s
  | .xpush d a b => Sys2Proof.Machine.execXpush d a b s
  | .xpull d a b => Sys2Proof.Machine.execXpull d a b s
  | .xwait d a => Sys2Proof.Machine.execXwait d a s
  | .xsect d a b => Sys2Proof.Machine.execXsect d a b s
  | .xexp24 d a w => Sys2Proof.Machine.execXexp24 d a w s
  | .xbdot d a b => Sys2Proof.Machine.execXbdot d a b s
  | .placeCastOn cl w => Sys2Proof.Machine.execPlaceCastOn cl w s
  | .ctxmapSelect cl w => Sys2Proof.Machine.execCtxmapSelect cl w s
  | .ctxmapWriteSlot cl w => Sys2Proof.Machine.execCtxmapWriteSlot cl w s
  | .ctxmapWriteSab cl w => Sys2Proof.Machine.execCtxmapWriteSab cl w s
  | .isocfgSelect cl w => Sys2Proof.Machine.execIsocfgSelect cl w s
  | .isocfgSet cl w => Sys2Proof.Machine.execIsocfgSet cl w s
  | .arbwWrite cl w => Sys2Proof.Machine.execArbwWrite cl w s
  | .evqbaseWrite cl w => Sys2Proof.Machine.execEvqbaseWrite cl w s
  | .registerWrite c t n w => Sys2Proof.Machine.execRegisterWrite c t n w s
  | .waitReasonClears c t => Sys2Proof.Machine.execWaitReasonClears c t s
  | .waitDeadline c t => Sys2Proof.Machine.execWaitDeadline c t s
  | .streamRequest c n => Sys2Proof.Machine.execStreamRequest c n s
  | .streamElementArrival c n => Sys2Proof.Machine.execStreamElementArrival c n s
  | .streamWritePerform c n => Sys2Proof.Machine.execStreamWritePerform c n s
  | .accessPerformed c t => Sys2Proof.Machine.execAccessPerformed c t s
  | .relaxedStoreAck c => Sys2Proof.Machine.execRelaxedStoreAck c s
  | .matrixAccept o x => Sys2Proof.Machine.execMatrixAccept o x s
  | .arbiterTake o => Sys2Proof.Machine.execArbiterTake o s
  | .matrixExecute o => Sys2Proof.Machine.execMatrixExecute o s
  | .matrixComplete o id => Sys2Proof.Machine.execMatrixComplete o id s
  | .hdrainImageAck o id => Sys2Proof.Machine.execHdrainImageAck o id s
  | .adapterFillArrival o line => Sys2Proof.Machine.execAdapterFillArrival o line s
  | .rowReplay o => Sys2Proof.Machine.execRowReplay o s
  | .externalElement c t => Sys2Proof.Machine.execExternalElement c t s
  | .transferElement c id i1 => Sys2Proof.Machine.execTransferElement c id i1 s
  | .transferEnd c id => Sys2Proof.Machine.execTransferEnd c id s
  | .sectorLineAccess r1 addr col write => Sys2Proof.Machine.execSectorLineAccess r1 addr col write s
  | .stationWalkEnd r1 => Sys2Proof.Machine.execStationWalkEnd r1 s
  | .faultQueueRoom r1 => Sys2Proof.Machine.execFaultQueueRoom r1 s
  | .remoteRequest ctx va r => Sys2Proof.Machine.execRemoteRequest ctx va r s
  | .recordDelivery c ch => Sys2Proof.Machine.execRecordDelivery c ch s
  | .creditReturn c ch => Sys2Proof.Machine.execCreditReturn c ch s
  | .deliveryResume c ch => Sys2Proof.Machine.execDeliveryResume c ch s
  | .channelWaitExpiry c => Sys2Proof.Machine.execChannelWaitExpiry c s
  | .barrierArrivalCombine c k => Sys2Proof.Machine.execBarrierArrivalCombine c k s
  | .barrierCornerFire c k => Sys2Proof.Machine.execBarrierCornerFire c k s
  | .barrierReleaseReceipt c k => Sys2Proof.Machine.execBarrierReleaseReceipt c k s
  | .barrierBrokenNotice c k => Sys2Proof.Machine.execBarrierBrokenNotice c k s
  | .barrierBrokenRelease c k => Sys2Proof.Machine.execBarrierBrokenRelease c k s
  | .castOnOctetLoaded o => Sys2Proof.Machine.execCastOnOctetLoaded o s
  | .castOnImageFailure cl => Sys2Proof.Machine.execCastOnImageFailure cl s
  | .priorityAging ctx kid => Sys2Proof.Machine.execPriorityAging ctx kid s
  | .groupPlacement cl => Sys2Proof.Machine.execGroupPlacement cl s
  | .rangeRequestArrival die => Sys2Proof.Machine.execRangeRequestArrival die s
  | .rangeStep die => Sys2Proof.Machine.execRangeStep die s
  | .rangeReturnHeld die => Sys2Proof.Machine.execRangeReturnHeld die s
  | .eventHeldStore cl => Sys2Proof.Machine.execEventHeldStore cl s
  | .vacateDeadline g => Sys2Proof.Machine.execVacateDeadline g s
  | .contextSaveBegin g => Sys2Proof.Machine.execContextSaveBegin g s
  | .contextSaveComplete g => Sys2Proof.Machine.execContextSaveComplete g s
  | .restoreComplete cl => Sys2Proof.Machine.execRestoreComplete cl s
  | .portTrainingEnd p lanes => Sys2Proof.Machine.execPortTrainingEnd p lanes s
  | .portTrainingTimeout p => Sys2Proof.Machine.execPortTrainingTimeout p s
  | .portLaneLoss p lanes => Sys2Proof.Machine.execPortLaneLoss p lanes s
  | .portFailure p => Sys2Proof.Machine.execPortFailure p s
  | .ptpMessage sec ns frac locked => Sys2Proof.Machine.execPtpMessage sec ns frac locked s
  | .frameIngress p frame fcsOk => Sys2Proof.Machine.execFrameIngress p frame fcsOk s
  | .frameBankFlip w => Sys2Proof.Machine.execFrameBankFlip w s
  | .hostTailKick ctx tail => Sys2Proof.Machine.execHostTailKick ctx tail s
  | .hostCmdLaunch ctx => Sys2Proof.Machine.execHostCmdLaunch ctx s
  | .hostCmdCancel ctx => Sys2Proof.Machine.execHostCmdCancel ctx s
  | .hostCmdAdmit block ring cplRing szl cl => Sys2Proof.Machine.execHostCmdAdmit block ring cplRing szl cl s
  | .hostCmdRelease => Sys2Proof.Machine.execHostCmdRelease s
  | .powerOn badOctets badCores => Sys2Proof.Machine.execPowerOn badOctets badCores s
  | .attestationRequest w => Sys2Proof.Machine.execAttestationRequest w s
  | .attestationReport => Sys2Proof.Machine.execAttestationReport s
  | .updateImageWrite img => Sys2Proof.Machine.execUpdateImageWrite img s
  | .updateClusterSwitch cl selfCheck => Sys2Proof.Machine.execUpdateClusterSwitch cl selfCheck s
  | .islandStart n => Sys2Proof.Machine.execIslandStart n s
  | .islandIdleStop n => Sys2Proof.Machine.execIslandIdleStop n s
  | .islandStopRequest n => Sys2Proof.Machine.execIslandStopRequest n s
  | .partFault n => Sys2Proof.Machine.execPartFault n s
  | .controlCoreReset cl => Sys2Proof.Machine.execControlCoreReset cl s
  | .illegalInstr => Sys2Proof.Machine.execIllegalInstr s
  | .fetchBoundary => Sys2Proof.Machine.execFetchBoundary s
  | .fetchEccFailure => Sys2Proof.Machine.execFetchEccFailure s
  | .packagePowerLimit reached => Sys2Proof.Machine.execPackagePowerLimit reached s
  | .powerLoss => Sys2Proof.Machine.execPowerLoss s
  | .hostMemoryAccess pa data => Sys2Proof.Machine.execHostMemoryAccess pa data s

end Sys2Proof.Machine
end

