-- ==== Sys2Proof/Machine/Issue.lean ====
section
/-! DEFINITION. Issuing the word in the instruction register: exec of what it decodes to, which compiled code runs as
runWord. -/

namespace Sys2Proof.Machine

theorem run01_eq (w : Nat) (s : State) : run01 w s = exec (build01 w) s := by
  unfold run01 build01
  generalize fld w 22 4 = x
  split <;> (repeat' split) <;> first | contradiction | rfl

theorem run02_eq (w : Nat) (s : State) : run02 w s = exec (build02 w) s := by
  unfold run02 build02
  generalize fld w 12 4 = x
  split <;> (repeat' split) <;> first | contradiction | rfl

theorem run03_eq (w : Nat) (s : State) : run03 w s = exec (build03 w) s := by
  unfold run03 build03
  generalize fld w 13 3 = x
  split <;> (repeat' split) <;> first | contradiction | rfl

theorem run04_eq (w : Nat) (s : State) : run04 w s = exec (build04 w) s := by
  unfold run04 build04
  generalize fld w 19 2 = x
  split <;> (repeat' split) <;> first | contradiction | rfl

theorem run05_eq (w : Nat) (s : State) : run05 w s = exec (build05 w) s := by
  unfold run05 build05
  generalize fld w 13 3 = x
  split <;> (repeat' split) <;> first | contradiction | rfl

theorem run06_eq (w : Nat) (s : State) : run06 w s = exec (build06 w) s := by
  unfold run06 build06
  generalize fld w 0 11 = x
  split <;> (repeat' split) <;> first | contradiction | rfl

theorem run08_eq (w : Nat) (s : State) : run08 w s = exec (build08 w) s := by
  unfold run08 build08
  generalize fld w 0 11 = x
  split <;> (repeat' split) <;> first | contradiction | rfl

theorem run09_eq (w : Nat) (s : State) : run09 w s = exec (build09 w) s := by
  unfold run09 build09
  generalize fld w 12 4 = x
  split <;> (repeat' split) <;> first | contradiction | rfl

theorem run0A_eq (w : Nat) (s : State) : run0A w s = exec (build0A w) s := by
  unfold run0A build0A
  generalize fld w 16 5 = x
  split <;> (repeat' split) <;> first | contradiction | rfl

theorem run0B_eq (w : Nat) (s : State) : run0B w s = exec (build0B w) s := by
  unfold run0B build0B
  generalize fld w 0 11 = x
  split <;> (repeat' split) <;> first | contradiction | rfl

theorem run10_eq (w : Nat) (s : State) : run10 w s = exec (build10 w) s := by
  unfold run10 build10
  generalize fld w 12 4 = x
  split <;> (repeat' split) <;> first | contradiction | rfl

theorem run11_eq (w : Nat) (s : State) : run11 w s = exec (build11 w) s := by
  unfold run11 build11
  generalize fld w 12 4 = x
  split <;> (repeat' split) <;> first | contradiction | rfl

theorem run12_eq (w : Nat) (s : State) : run12 w s = exec (build12 w) s := by
  unfold run12 build12
  generalize fld w 0 4 = x
  split <;> (repeat' split) <;> first | contradiction | rfl

theorem run13_eq (w : Nat) (s : State) : run13 w s = exec (build13 w) s := by
  unfold run13 build13
  generalize fld w 0 11 = x
  split <;> (repeat' split) <;> first | contradiction | rfl

theorem run14_eq (w : Nat) (s : State) : run14 w s = exec (build14 w) s := by
  unfold run14 build14
  generalize fld w 0 11 = x
  split <;> (repeat' split) <;> first | contradiction | rfl

theorem run15_eq (w : Nat) (s : State) : run15 w s = exec (build15 w) s := by
  unfold run15 build15
  generalize fld w 0 11 = x
  split <;> (repeat' split) <;> first | contradiction | rfl

theorem run16_eq (w : Nat) (s : State) : run16 w s = exec (build16 w) s := by
  unfold run16 build16
  rfl

theorem run18_eq (w : Nat) (s : State) : run18 w s = exec (build18 w) s := by
  unfold run18 build18
  generalize fld w 0 11 = x
  split <;> (repeat' split) <;> first | contradiction | rfl

theorem run19_eq (w : Nat) (s : State) : run19 w s = exec (build19 w) s := by
  unfold run19 build19
  generalize fld w 0 11 = x
  split <;> (repeat' split) <;> first | contradiction | rfl

theorem run1A_eq (w : Nat) (s : State) : run1A w s = exec (build1A w) s := by
  unfold run1A build1A
  generalize fld w 0 11 = x
  split <;> (repeat' split) <;> first | contradiction | rfl

theorem run1B_eq (w : Nat) (s : State) : run1B w s = exec (build1B w) s := by
  unfold run1B build1B
  generalize fld w 0 11 = x
  split <;> (repeat' split) <;> first | contradiction | rfl

theorem run1C_eq (w : Nat) (s : State) : run1C w s = exec (build1C w) s := by
  unfold run1C build1C
  generalize fld w 0 11 = x
  split <;> (repeat' split) <;> first | contradiction | rfl

theorem run1D_eq (w : Nat) (s : State) : run1D w s = exec (build1D w) s := by
  unfold run1D build1D
  generalize fld w 0 11 = x
  split <;> (repeat' split) <;> first | contradiction | rfl

theorem run20_eq (w : Nat) (s : State) : run20 w s = exec (build20 w) s := by
  unfold run20 build20
  generalize fld w 0 4 = x
  split <;> (repeat' split) <;> first | contradiction | rfl

theorem run21_eq (w : Nat) (s : State) : run21 w s = exec (build21 w) s := by
  unfold run21 build21
  generalize fld w 0 4 = x
  split <;> (repeat' split) <;> first | contradiction | rfl

theorem run22_eq (w : Nat) (s : State) : run22 w s = exec (build22 w) s := by
  unfold run22 build22
  generalize fld w 0 4 = x
  split <;> (repeat' split) <;> first | contradiction | rfl

theorem run23_eq (w : Nat) (s : State) : run23 w s = exec (build23 w) s := by
  unfold run23 build23
  generalize fld w 0 4 = x
  split <;> (repeat' split) <;> first | contradiction | rfl

theorem run28_eq (w : Nat) (s : State) : run28 w s = exec (build28 w) s := by
  unfold run28 build28
  generalize fld w 0 4 = x
  split <;> (repeat' split) <;> first | contradiction | rfl

theorem run29_eq (w : Nat) (s : State) : run29 w s = exec (build29 w) s := by
  unfold run29 build29
  generalize fld w 0 4 = x
  split <;> (repeat' split) <;> first | contradiction | rfl

theorem run2A_eq (w : Nat) (s : State) : run2A w s = exec (build2A w) s := by
  unfold run2A build2A
  generalize fld w 0 2 = x
  split <;> (repeat' split) <;> first | contradiction | rfl

theorem run2B_eq (w : Nat) (s : State) : run2B w s = exec (build2B w) s := by
  unfold run2B build2B
  generalize fld w 0 4 = x
  split <;> (repeat' split) <;> first | contradiction | rfl

theorem run2C_eq (w : Nat) (s : State) : run2C w s = exec (build2C w) s := by
  unfold run2C build2C
  generalize fld w 0 4 = x
  split <;> (repeat' split) <;> first | contradiction | rfl

theorem run2D_eq (w : Nat) (s : State) : run2D w s = exec (build2D w) s := by
  unfold run2D build2D
  generalize fld w 0 4 = x
  split <;> (repeat' split) <;> first | contradiction | rfl

theorem run2E_eq (w : Nat) (s : State) : run2E w s = exec (build2E w) s := by
  unfold run2E build2E
  generalize fld w 0 4 = x
  split <;> (repeat' split) <;> first | contradiction | rfl

theorem run30_eq (w : Nat) (s : State) : run30 w s = exec (build30 w) s := by
  unfold run30 build30
  generalize fld w 0 11 = x
  split <;> (repeat' split) <;> first | contradiction | rfl

theorem run31_eq (w : Nat) (s : State) : run31 w s = exec (build31 w) s := by
  unfold run31 build31
  generalize fld w 0 11 = x
  split <;> (repeat' split) <;> first | contradiction | rfl

theorem run32_eq (w : Nat) (s : State) : run32 w s = exec (build32 w) s := by
  unfold run32 build32
  generalize fld w 0 11 = x
  split <;> (repeat' split) <;> first | contradiction | rfl

theorem run38_eq (w : Nat) (s : State) : run38 w s = exec (build38 w) s := by
  unfold run38 build38
  generalize fld w 0 11 = x
  split <;> (repeat' split) <;> first | contradiction | rfl

theorem run39_eq (w : Nat) (s : State) : run39 w s = exec (build39 w) s := by
  unfold run39 build39
  generalize fld w 0 11 = x
  split <;> (repeat' split) <;> first | contradiction | rfl

theorem run3A_eq (w : Nat) (s : State) : run3A w s = exec (build3A w) s := by
  unfold run3A build3A
  generalize fld w 0 11 = x
  split <;> (repeat' split) <;> first | contradiction | rfl

theorem run3B_eq (w : Nat) (s : State) : run3B w s = exec (build3B w) s := by
  unfold run3B build3B
  generalize fld w 0 11 = x
  split <;> (repeat' split) <;> first | contradiction | rfl

theorem runWord_eq (w : Nat) (s : State) : runWord w s = exec (build w) s := by
  unfold runWord build
  generalize fld w 26 6 = x
  split <;> first | contradiction | rfl | (split <;> first | contradiction | rfl; done) | exact run01_eq w s | exact run02_eq w s | exact run03_eq w s | exact run04_eq w s | exact run05_eq w s | exact run06_eq w s | exact run08_eq w s | exact run09_eq w s | exact run0A_eq w s | exact run0B_eq w s | exact run10_eq w s | exact run11_eq w s | exact run12_eq w s | exact run13_eq w s | exact run14_eq w s | exact run15_eq w s | exact run16_eq w s | exact run18_eq w s | exact run19_eq w s | exact run1A_eq w s | exact run1B_eq w s | exact run1C_eq w s | exact run1D_eq w s | exact run20_eq w s | exact run21_eq w s | exact run22_eq w s | exact run23_eq w s | exact run28_eq w s | exact run29_eq w s | exact run2A_eq w s | exact run2B_eq w s | exact run2C_eq w s | exact run2D_eq w s | exact run2E_eq w s | exact run30_eq w s | exact run31_eq w s | exact run32_eq w s | exact run38_eq w s | exact run39_eq w s | exact run3A_eq w s | exact run3B_eq w s

/-- Issuing the word in the instruction register (R40): the meaning of what it decodes to, or the trap of a word that
is no instruction. -/
noncomputable def State.issueWord (s : State) : Host.Outcome State Fault Refusal :=
  match decode s.ir with
  | .ok i => exec i s
  | .error _ => exec .illegalInstr s

/-- The same as compiled code runs it. -/
def State.issueWordRun (s : State) : Host.Outcome State Fault Refusal :=
  if (checkWord s.ir.toNat).isSome then execIllegalInstr s else runWord s.ir.toNat s

@[csimp] theorem issueWord_eq_run : @State.issueWord = @State.issueWordRun := by
  funext s
  unfold State.issueWord State.issueWordRun decode
  cases checkWord s.ir.toNat with
  | none => simp [runWord_eq]
  | some e => rfl

end Sys2Proof.Machine
end

