-- ==== Sys2Proof/Machine/Step.lean ====
section
/-! DEFINITION. The step of the device: the next turn of the schedule, a thread's or the device's own. -/

namespace Sys2Proof.Machine

/-- The turn of the current thread: it issues its next word, or traps on the fetch; a thread that has nothing to
issue leaves the device as it is. -/
def State.threadTurn (s : State) : Host.Outcome State Fault Refusal :=
  if s.canIssue s.cur s.thr then
    match s.nextWord with
    | .word s' => s'.issueWord
    | .outside => exec .fetchBoundary s
    | .bad => exec .fetchEccFailure s
    | .nothing => .next (s.waitFor .gang)
  else .next s

/-- The turn that a step takes: a device without power is powered on (R457), with the faults that the power-on test finds where the schedule says
so; else the first turn of the schedule is taken, and with none left the current thread goes on in the next cycle. A turn that
names an instruction word as if it were a step of the device is passed over. DESIGN CHOICE, entry 4. -/
def State.turn (s : State) : Host.Outcome State Fault Refusal :=
  if !s.life.powered then
    match s.turns with
    | .event (.powerOn bo bc) dt :: rest => execPowerOn bo bc { s.tick dt with turns := rest }
    | _ => execPowerOn [] [] s
  else match s.turns with
    | [] => (s.tick 1).threadTurn
    | .thread c t dt :: rest => State.threadTurn { s.tick dt with turns := rest, cur := c, thr := t }
    | .event i dt :: rest =>
      if (encodeNat i).isNone then exec i { s.tick dt with turns := rest } else .next { s.tick dt with turns := rest }

/-- What the homes of sync objects do as soon as a request's condition holds (R285), and the frame path as soon as the bank-select word
names another bank (R449), whatever the turn was. -/
def State.settled : Host.Outcome State Fault Refusal → Host.Outcome State Fault Refusal
  | .next s => .next s.regrant.followBank
  | o => o

/-- One step: a turn, and what it makes possible. -/
def step (s : State) : Host.Outcome State Fault Refusal := State.settled s.turn

/-- The device with one word where the next step fetches it: an instruction is one word of 32 bits (R31). DESIGN CHOICE, entry 2. -/
def State.withFetchWord (s : State) (nbits w : Nat) : State := s.placeWord (w % 2 ^ nbits % 2 ^ 32)

end Sys2Proof.Machine
end

