-- ==== Sys2Proof/Safety.lean ====
section
/-! DEFINITION. What the claims call a well-formed state, and when a thread may issue an instruction. -/

namespace Sys2Proof.Machine

/-- The memory list is canonical (no address twice, no byte listed that reads as it would unlisted). -/
def State.memOk (s : State) : Prop := Memory.wf s.mem = true

/-- The checks before an instruction's own let it through (R40, R41, R45, R98), no HINT of a repetition's body stands before it (R46),
the words forwarded to the followers of a gang leave room for one more (R126), and the core leads no checked pair (R416). -/
structure State.MayIssueIf (s : State) (legal : State → Bool) (ok : Hints) (need : Priv) : Prop where
  unpaired : s.pairFollower? = none
  room : s.yarnFull = false
  legal : legal s = true
  hint : ok.accepts (s.th s.cur s.thr).hint = true
  whole : s.hintedBody = false
  priv : need = .handler → (s.th s.cur s.thr).priv ≠ .user

/-- The same for an instruction that some threads and kinds of core may issue. -/
abbrev State.MayIssue (s : State) (who : Who) (ok : Hints) (need : Priv) : Prop := s.MayIssueIf who.legal ok need

/-- The issuing core and its thread. -/
def State.me (s : State) : Core := s.core s.cur
def State.myTh (s : State) : ThreadState := s.th s.cur s.thr

/-- The issuing core changed. -/
def State.mine (s : State) (f : Core → Core) : State := s.updCore s.cur f

/-- The modifier bit n of the pending HINT (R45): 0 SAT, 1 NT, 2 RELAXED, 3 NOFAULT. -/
def State.hintBit (s : State) (n : Nat) : Bool :=
  match s.myTh.hint with
  | some (.mod m) => m.getLsbD n
  | _ => false

/-- An immediate field of width w, extended by a HINT of kind IMM (R44). -/
def State.immOf (s : State) (w f : Nat) : Int :=
  match s.myTh.hint with
  | some (.imm d) => sext 22 d.toNat * 2 ^ w + (f : Int)
  | _ => sext w f

/-- The instruction retires with this effect and goes on to the next word, or where `n` says (R86, R96). -/
def State.retires (s t : State) (n : Next := .seq) : Host.Outcome State Fault Refusal := .next (s.retire t n)

/-- It retires with g[d], f[d], v[d] or p[d] written and nothing else. -/
def State.retiresG (s : State) (d : Reg) (w : Word) : Host.Outcome State Fault Refusal := s.retires (s.mine fun k => k.setG d.val w)
def State.retiresF (s : State) (d : Reg) (w : Word) : Host.Outcome State Fault Refusal := s.retires (s.mine fun k => k.setF d.val w)
def State.retiresV (s : State) (d : Reg) (w : VWord) : Host.Outcome State Fault Refusal := s.retires (s.mine fun k => k.setV d.val w)
def State.retiresP (s : State) (d : Nat) (w : PWord) : Host.Outcome State Fault Refusal := s.retires (s.mine fun k => k.setP d w)

/-- The flags ORed into FCSR (R69, R70). -/
def Core.raised (k : Core) (fl : Flags) : Core := { k with fcsr := k.fcsr ||| fl.setWidth 9 }

/-- It waits for this reason with this much of its effect done: it has not retired, and a leader has forwarded it (R96, R97, R125). -/
def State.waits (s t : State) (r : WReason) : Host.Outcome State Fault Refusal := .next ((s.sendWaiting t).waitFor r)

/-- Nothing that the issuing core's A-thread has stored or sent is on its way (R289, R293). -/
structure State.quiet (s : State) : Prop where
  stores : (s.th s.cur .a).relaxed = []
  records : s.unsent s.cur = false

/-- It traps: the one operation of R111 and R112, at the instruction's address or its HINT's (R47), with the word forwarded to the
followers of a gang as any other (R48, R125). -/
def State.traps (s : State) (cause : BitVec 8) (tval : Word) : Host.Outcome State Fault Refusal :=
  .next (s.trapIssued s cause tval)

/-- Going on at a target: one outside 0 to 0x1_0000 traps (R118), else the instruction retires with this effect. -/
def State.jumps (s : State) (target : Int) (t : State) : Host.Outcome State Fault Refusal :=
  if target < 0 ∨ 0x10000 < target then s.traps Cause.fetchBoundary (int64 target) else s.retires t (.to target.toNat)

/-- A branch of R133: P + 4·o where the condition holds, the next word otherwise. -/
def State.branches (s : State) (taken : Prop) [Decidable taken] (o : BitVec 13) : Host.Outcome State Fault Refusal :=
  if taken then s.jumps (s.myTh.pc + 4 * s.immOf 13 o.toNat) s else s.retires s

/-- No operand of an X-thread instruction is a stream alias (R91). -/
def State.proper (s : State) (l : List Reg) : Prop := ∀ r ∈ l, s.me.alias? r.val = none

/-- Whether an X-thread's floating-point result saturates (R67). -/
def State.satOn (s : State) : Bool := s.me.fcsr.getLsbD 8 || s.hintBit 0

/-- n lanes of width w of f[d], or all of v[d], computed where `on` and kept elsewhere, their flags raised
(R69, R70, R170). -/
def State.lanesF (s : State) (w : Nat) (on : Nat → Bool) (d : Reg) (f : Nat → Nat × Flags) : State :=
  let r := mapLanes w (64 / w) on (s.me.fr d.val).toNat f
  (s.mine fun k => k.setF d.val (BitVec.ofNat 64 r.1)).mine fun k => k.raised r.2
def State.lanesV (s : State) (w : Nat) (p : PWord) (d : Reg) (f : Nat → Nat × Flags) : State :=
  let r := mapLanes w (laneCount w 1024) (laneOn w p) (s.me.vr d.val).toNat f
  (s.mine fun k => k.setV d.val (BitVec.ofNat 1024 r.1)).mine fun k => k.raised r.2

/-- A register of majors 0x02, 0x04 and 0x15: g in an A-thread, f in an X-thread (R135, R136, R167). -/
def State.reg (s : State) (r : Reg) : Word := if s.thr = .a then s.me.gr r.val else s.me.fr r.val
def State.putReg (s : State) (r : Reg) (w : Word) : State :=
  s.mine fun k => if s.thr = .a then k.setG r.val w else k.setF r.val w

/-- The thread's relaxed stores are acknowledged and no failure of one is pending (R272). -/
def State.fenced (s : State) : Prop := s.myTh.relaxed = [] ∧ s.myTh.relaxFail = none

/-- An access of n bytes that passes the checks of R268: the map of the core's kind, the alignment, the home, and every
granule it reaches correct; no earlier access of the thread to those bytes is outstanding (R289). `t` is the state with the address
noted, the translation's entries cached, and the home's sector accessed. -/
structure State.Reaches (s : State) (ea n : Nat) (rd wr : Bool) (t : State) (p : Nat) : Prop where
  mapped : s.mapOk s.cur ea = true
  aligned : ea % n = 0
  home : State.access { s with ea := BitVec.ofNat 64 ea } s.cur ea rd wr = (t, .at_ (.here p))
  intact : ∀ g ∈ granules p n, t.mark g = .ok
  ordered : (t.th t.cur .a).relaxed = []
  landed : t.landsIn t.cur p n = false

/-- No granule of the device's memory is poisoned or uncorrectable. -/
def State.intact (s : State) : Prop := ∀ g, s.mark g = .ok

/-- A list record that an instruction may use (R382, R392): in a scratchpad the core reaches, aligned, its granules correct,
its fields in range. -/
structure State.ListAt (s : State) (ea p : Nat) : Prop where
  mapped : s.mapOk s.cur ea = true
  aligned : ea % 32 = 0
  window : (2 ^ 20 ≤ ea ∧ ea < 2 ^ 21) ∨ (2 ^ 31 ≤ ea ∧ ea < 2 ^ 32 ∧ winTarget ea = 8)
  home : State.resolve { s with ea := BitVec.ofNat 64 ea } s.cur ea true true = ({ s with ea := BitVec.ofNat 64 ea }, .at_ (.here p))
  quiet : s.quiet
  intact : s.intact
  good : s.listBad p = false

/-- A well-formed object word of a core that may name a context or not (R375). -/
def objectOk (sup : Bool) (w : Word) : Prop :=
  w.getLsbD 39 = false ∧ bits w.toNat 52 12 = 0 ∧ owLevel w ≠ 3 ∧ (owLevel w = 2 → owId w = 0) ∧ (sup = false → owCtx w = 0)

/-- The X-thread of a compute core may give its octet's matrix unit a command: no error stands, and its queue has room
(R210, R241). -/
structure State.MxReady (s : State) (o : OctName) (x : Fin 8) : Prop where
  place : s.cur = .compute o x
  clean : s.me.mxErr = none
  room : ((s.octet o).cmds.filter fun c => c.core = x && c.stage = .queued).length < 8

/-- The state with a command accepted from core x (R210). -/
def State.accepted (s : State) (o : OctName) (x : Fin 8) (c : MxCmd) : State :=
  s.updOctet o fun q =>
    { q with nextCmd := q.nextCmd + 1, cmds := q.cmds ++ [{ c with id := q.nextCmd, core := x, exp := s.me.mgen, adt := s.me.adtbase }] }

/-- A handle whose parts the next command sets in the accepted view. -/
def State.viewed (s : State) (o : OctName) (h : Nat) (v : ViewSet) : State :=
  s.updOctet o fun q => q.updHandle h fun x => x.view v (q.nextCmd + 1)

/-- A control word and two tile descriptors that pass the checks of R221, with the tag of the partial-sum register. -/
def tilesOk (d a b : Word) (adapter zero : Bool) (tp : Option (BitVec 6)) : Prop :=
  bits d.toNat 14 2 = 0 ∧ (adapter = false → bits d.toNat 48 16 = 0) ∧ cK d ≠ 0 ∧
  bits a.toNat 43 21 = 0 ∧ tOff a % 64 = 0 ∧ tFmt a ∈ formatsA ∧ bits b.toNat 43 21 = 0 ∧ tOff b % 64 = 0 ∧ tFmt b ∈ formatsB ∧
  tagReason (tTag a) (tTag b) (cK d) zero tp = none ∧ tileEnd a (!tTr a) (cRows d) (cK d) ≤ 2 ^ 20 ∧
  (cRows d = [] ∨ tileEnd b (tTr b) (cCols d) (cK d) ≤ 2 ^ 20)

/-- A scale descriptor that passes the checks of R237 for these rows or columns. -/
def scaleOk (w : Word) (act : List Nat) : Prop :=
  bits w.toNat 25 39 = 0 ∧ (scaleOne w = true → bits w.toNat 0 24 = 0) ∧
  (scaleOne w = false → (bits w.toNat 20 4 = 5 ∨ bits w.toNat 20 4 = 7) ∧ bits w.toNat 0 20 % scaleSize w = 0 ∧
    ∀ m, act.getLast? = some m → bits w.toNat 0 20 + (m + 1) * scaleSize w ≤ 2 ^ 20)

/-- A selector word that passes the checks of R227 for an entry that uses these of its fields. -/
def selectorOk (w : Word) (slice psf stat : Bool) : Prop :=
  w.toNat < 2 ^ 21 ∧ (psf = false → sPsf w = false ∧ sPsn w = 0) ∧ (stat = false → sWhat w = 0 ∧ sClr w = false) ∧
  (slice = false → sOff w = 0) ∧ (slice = true → sOff w % 16 = 0)

/-- v registers written in order, from d on. -/
def State.putRegs (s : State) (d : Reg) (v : List VWord) : State :=
  ((groupRegs d v.length).zip v).foldl (fun (t : State) r => t.mine fun k => k.setV r.1.val r.2) s

/-- A 32-byte descriptor that the issuing core may read from its own local memory (R300 step 1). -/
structure State.DescAt (s : State) (ea : Nat) : Prop where
  quiet : s.quiet
  own : s.xbOf s.cur ≤ ea ∧ ea + 32 ≤ 2 ^ 16
  aligned : ea % 32 = 0
  intact : ∀ g ∈ granules (localBase s.cur + ea) 32, s.mark g = .ok

/-- The state with an address noted, and the words there. -/
def State.noted (s : State) (ea : Nat) : State := { s with ea := BitVec.ofNat 64 ea }
def State.descWords (s : State) (ea : Nat) : List Word := s.words (localBase s.cur + ea) 4

/-- An A-thread after an instruction that changes none of its own state: what a trap writes, the wait and the dead marks of g
registers (R96, R111, R121) may change, and nothing else. -/
def ThreadState.sameBut (h h' : ThreadState) : Prop :=
  { h' with
      st := h.st, pc := h.pc, priv := h.priv, ppriv := h.ppriv, tpc := h.tpc, tcause := h.tcause, tval := h.tval,
      superTrap := h.superTrap, wreason := h.wreason, pend := h.pend, mx := h.mx, since := h.since, hint := h.hint,
      dead := h.dead, deadv := h.deadv } = h

/-- A core after an A-thread's instruction that writes g[d] or no register: its other registers, its X-thread, its flags,
its special registers, its queues, slots, endpoints and barriers are as before; its gang's forwarded words may move, and registers of the
mask may have died (R121). -/
structure Core.keepsA (k k' : Core) (d : Option Reg) (dies : BitVec 32 := 0) : Prop where
  rest : { k' with g := k.g, a := k.a, gang := k.gang } = k
  others : ∀ r : Reg, some r ≠ d → k'.gr r.val = k.gr r.val ∨ (dies.getLsbD r.val = true ∧ k'.gr r.val = 0)
  thread : k.a.sameBut k'.a

/-- A core after an X-thread's instruction that writes at most one register of each class: its other registers, its A-thread
and everything else are as before; the flags and the repetition's progress may change, registers of the masks may have died (R121),
and a trap of a follower has left its gang (R128). -/
structure Core.keepsX (k k' : Core) (f v : Option Reg) (p : Option Nat) (dies diesV : BitVec 32 := 0) : Prop where
  rest : { k' with f := k.f, v := k.v, p := k.p, x := k.x, fcsr := k.fcsr, flagLog := k.flagLog, rpt := k.rpt, rptBody := k.rptBody,
                   gang := k.gang } = k
  gang : k'.gang = k.gang ∨ (k.gang.follower = true ∧ k'.gang = Gang.init)
  scalars : ∀ r : Reg, some r ≠ f → k'.fr r.val = k.fr r.val ∨ (dies.getLsbD r.val = true ∧ k'.fr r.val = 0)
  vectors : ∀ r : Reg, some r ≠ v → k'.vr r.val = k.vr r.val ∨ (diesV.getLsbD r.val = true ∧ k'.vr r.val = 0)
  predicates : ∀ r : Fin 8, some r.val ≠ p → k'.pr r.val = k.pr r.val
  bits : k'.fcsr.extractLsb' 5 4 = k.fcsr.extractLsb' 5 4
  thread : k.x.sameBut k'.x

/-- A core that leads a checked pair and whose A-thread issues with its follower's: both at the same word at user level, no HINT before
it (R416). -/
structure State.PairAt (s : State) (o : OctName) (x : Fin 8) (f : CoreName) : Prop where
  place : s.cur = .compute o x
  pair : s.pairFollower? = some f
  thread : s.thr = .a
  hint : s.myTh.hint = none
  pcs : s.myTh.pc = (s.th f .a).pc
  user : s.myTh.priv = .user
  userToo : (s.th f .a).priv = .user
  canonical : s.memOk

/-- A core that nothing has changed but a kick. -/
def Core.onlyKicked (k k' : Core) : Prop := { k' with kick := k.kick, a := { k'.a with wkick := k.a.wkick } } = k

/-- What a trap keeps of an instruction of core c's thread t, from the state at issue to the state in which it traps: the address it
formed, the poison it found, what the stations and the sector caches hold, what was asked of the world outside, the kick of a page fault,
and of its own core the stream slots with the thread's STRSTAT and the reports of its failures that it took; no register, no other
special register, no byte of memory, nothing of an octet, a cluster or a context (R109). -/
structure State.spared (s s' : State) (c : CoreName) (t : Thread) : Prop where
  rest : { s' with ea := s.ea, marks := s.marks, stations := s.stations, sectors := s.sectors, free := s.free, cores := s.cores } = s
  others : ∀ d : CoreName, d.index ≠ c.index → (s.core d).onlyKicked (s'.core d)
  own : { s'.core c with
    slots := (s.core c).slots, mxErr := (s.core c).mxErr, kick := (s.core c).kick, a := (s.core c).a, x := (s.core c).x } = s.core c
  thread : ∀ u, { s'.th c u with
    strstat := if u = t then (s.th c u).strstat else (s'.th c u).strstat,
    relaxFail := if u = t then (s.th c u).relaxFail else (s'.th c u).relaxFail, wkick := (s.th c u).wkick } = s.th c u

end Sys2Proof.Machine
end

