-- ==== Sys2Proof/Certificates/Slice0/Obligations.lean ====
section
/-! DEFINITION. The statements of this model: encoding, results, traps, frames and events, from the spec's numbered rules. -/

open Sys2Proof Sys2Proof.Machine

/-- Words written out from the encodings of R129, R130, R133, R138, R268, R277, R175, R180, R183, R221, R332, R383 and R395
decode to their instructions, and three that break R36 or have no row decode to none. -/
def Obligations.DecodeWords : Prop :=
  decode (0b001000#6 ++ 3#5 ++ 1#5 ++ 2#5 ++ 0#11) = .ok (.add 3 1 2) ∧
  decode (0b001001#6 ++ 7#5 ++ 31#5 ++ 0#4 ++ 0xFFF#12) = .ok (.addi 7 31 0xFFF) ∧
  decode (0b000011#6 ++ 4#5 ++ 5#5 ++ 0#3 ++ 0x1FFE#13) = .ok (.beq 4 5 0x1FFE) ∧
  decode (0b000010#6 ++ 9#5 ++ 0#5 ++ 3#4 ++ 0x014#12) = .ok (.csrr 9 0x014) ∧
  decode (0b010000#6 ++ 6#5 ++ 8#5 ++ 4#4 ++ 0x008#12) = .ok (.ldw 6 8 8) ∧
  decode (0b010001#6 ++ 6#5 ++ 8#5 ++ 3#4 ++ 0x010#12) = .ok (.std 6 8 0x10) ∧
  decode (0b010010#6 ++ 1#5 ++ 2#5 ++ 3#5 ++ 0#2 ++ 1#1 ++ 0#8) = .ok (.amoadd 1 2 3 true) ∧
  decode (0b100000#6 ++ 10#5 ++ 11#5 ++ 12#5 ++ 2#3 ++ 7#4 ++ 0#4) = .ok (.fadd 10 11 12 2 7) ∧
  decode (0b101000#6 ++ 20#5 ++ 21#5 ++ 22#5 ++ 1#3 ++ 9#4 ++ 0#4) = .ok (.vadd 20 21 22 1 9) ∧
  decode (0b101100#6 ++ 1#5 ++ 2#5 ++ 3#5 ++ 4#3 ++ 0#4 ++ 0#4) = .ok (.pand 1 2 3 4) ∧
  decode (0b110000#6 ++ 1#5 ++ 2#5 ++ 3#5 ++ 0#11) = .ok (.mma 1 2 3) ∧
  decode (0b011000#6 ++ 0#5 ++ 14#5 ++ 15#5 ++ 0#11) = .ok (.send 0 14 15) ∧
  decode (0b011010#6 ++ 0#4 ++ 1#1 ++ 16#5 ++ 17#5 ++ 0#11) = .ok (.rqpush true 16 17) ∧
  decode (0b011010#6 ++ 18#5 ++ 19#5 ++ 0#12 ++ 4#4) = .ok (.take 18 19) ∧
  (∃ e, decode (0b001000#6 ++ 3#5 ++ 1#5 ++ 2#5 ++ 19#11) = .error e) ∧
  (∃ e, decode (0b100000#6 ++ 10#5 ++ 11#5 ++ 12#5 ++ 2#3 ++ 11#4 ++ 0#4) = .error e) ∧
  (∃ e, decode 0 = .error e)

/-- Every well-formed instruction that has a word decodes from it to itself, with every value of every operand (R31, R32). -/
def Obligations.DecodeOfEncode : Prop :=
  ∀ (i : Instr) (w : BitVec 32), i.wellFormed = true → encode i = some w → decode w = .ok i

/-- A word that decodes is the word of the well-formed instruction it decodes to: no bit of it is ignored (R36, R40). -/
def Obligations.EncodeOfDecode : Prop :=
  ∀ (i : Instr) (w : BitVec 32), decode w = .ok i → i.wellFormed = true ∧ encode i = some w

/-- One step of a powered device whose next turn is a thread's: the word at its program counter, below XB and with its
granule correct, is decoded and executed, on the state with the turn taken and time moved on; a word that decodes to nothing
traps with ILLEGAL_INSTR, a fetch at XB or above with FETCH_BOUNDARY, a bad granule as R116 says. A turn of the device's own
executes that event. What follows the turn, the homes' grants of what their objects' records now allow (R285) and the flip to the
bank that the bank-select word names (R449), is nothing where no request waits and the word names the active bank. That the first
turn of the schedule is the step's, and with none left the current thread's in the next cycle, is the model's choice
(assumption 4). -/
def Obligations.StepRunsDecodedWord : Prop :=
  ∀ s : State, s.life.powered = true →
    (∀ t : State,
      ((s.turns = [] ∧ t = s.tick 1) ∨
        ∃ c h dt rest, s.turns = .thread c h dt :: rest ∧ t = { s.tick dt with turns := rest, cur := c, thr := h }) →
      t.canIssue t.cur t.thr = true →
        (∀ u, t.nextWord = .word u →
          (∀ i, decode u.ir = .ok i → step s = State.settled (exec i u)) ∧
          (∀ e, decode u.ir = .error e → step s = State.settled (exec .illegalInstr u))) ∧
        (t.follows = false → (t.thr = .a ∨ t.me.rptWord = none) →
          let a := localBase t.cur + t.myTh.pc
          (t.xbOf t.cur ≤ t.myTh.pc → step s = State.settled (exec .fetchBoundary t)) ∧
          (t.myTh.pc < t.xbOf t.cur → (∀ g ∈ granules a 4, t.mark g = .ok) →
            t.nextWord = .word { t with ir := BitVec.ofNat 32 (t.readLE a 4) }) ∧
          (t.myTh.pc < t.xbOf t.cur → (∃ g ∈ granules a 4, t.mark g ≠ .ok) → step s = State.settled (exec .fetchEccFailure t)))) ∧
    (∀ i dt rest, s.turns = .event i dt :: rest → encodeNat i = none →
      step s = State.settled (exec i { s.tick dt with turns := rest })) ∧
    (∀ t : State, t.syncq = [] → t.namedBank = t.frameBank → State.settled (.next t) = .next t)

/-- The traps of a fetch: ILLEGAL_INSTR with the word in TVAL (R40, R110), FETCH_BOUNDARY with the address (R118), and R116:
a granule found uncorrectable is poisoned and traps with ECC_UNCORRECTABLE, a poisoned one traps with POISON. The order of
the checks before an instruction's own (R41): class and kind of core (R40), then the HINT (R46), a HINT in a repetition's body
included, then privilege (R98); each traps with the instruction word in TVAL and with nothing else done. A leader whose
followers have no room for another word waits (R126). The core leads no checked pair: such a one is CheckedPairResults' (R416). -/
def Obligations.FetchAndIssueTraps : Prop :=
  (∀ s : State, s.pairFollower? = none →
    let pc := BitVec.ofNat 64 s.myTh.pc
    let fetchTrap := fun (t : State) (cause : BitVec 8) =>
      (.next (t.takeTrap s.cur s.thr s.myTh.pcOf cause pc) : Host.Outcome State Fault Refusal)
    (s.yarnFull = false → exec .illegalInstr s = s.traps Cause.illegalInstr (s.ir.setWidth 64)) ∧
    (s.yarnFull = true → exec .illegalInstr s = .next (s.waitFor .gang)) ∧
    exec .fetchBoundary s = fetchTrap s Cause.fetchBoundary ∧
    (s.myTh.pc % 4 = 0 →
      let a := localBase s.cur + s.myTh.pc
      (s.mark a = .ok → exec .fetchEccFailure s = .next s) ∧
      (s.mark a = .bad → exec .fetchEccFailure s = fetchTrap (s.putMark a .poisoned) Cause.eccUncorrectable) ∧
      (s.mark a = .poisoned → exec .fetchEccFailure s = fetchTrap s Cause.poison))) ∧
  (∀ (s : State) (legal : State → Bool) (ok : Hints) (need : Priv) (body : M Next), s.pairFollower? = none →
    let w : Word := s.ir.setWidth 64
    (s.yarnFull = true → issueIf legal ok need body s = .next (s.waitFor .gang)) ∧
    (s.yarnFull = false →
      (legal s = false → issueIf legal ok need body s = s.traps Cause.illegalInstr w) ∧
      (legal s = true → ok.accepts s.myTh.hint = false → issueIf legal ok need body s = s.traps Cause.hintMisuse w) ∧
      (legal s = true → s.hintedBody = true → issueIf legal ok need body s = s.traps Cause.hintMisuse w) ∧
      (legal s = true → ok.accepts s.myTh.hint = true → s.hintedBody = false → need = .handler → s.myTh.priv = .user →
        issueIf legal ok need body s = s.traps Cause.privilege w)) ∧
    (s.yarnFull = false → s.thr = .x → ∀ (d a b : Reg), exec (.add d a b) s = s.traps Cause.illegalInstr w) ∧
    (s.yarnFull = false → s.thr = .a → ∀ (d a b : Reg) (p : Fin 8) (f : Fin 16), exec (.fadd d a b p f) s = s.traps Cause.illegalInstr w) ∧
    (s.yarnFull = false → axAll.legal s = true → s.myTh.hint = none → s.myTh.priv = .user → ∀ (d a : Reg),
      exec .hret s = s.traps Cause.privilege w ∧ exec (.setxb d a) s = s.traps Cause.privilege w))

/-- Trap entry at user level (R111): TPC, TCAUSE, TVAL and PPRIV are written, PRIV becomes 1 and the program counter
TVEC.BASE·64, plus 0x40 for FETCH_BOUNDARY; no register and no memory changes. -/
def Obligations.TrapEntry : Prop :=
  ∀ (s : State) (c : CoreName) (t : Thread) (p : Nat) (cause : BitVec 8) (tval : Word),
    let h := s.th c t
    let u := s.takeTrap c t p cause tval
    let k := u.core c
    h.priv = .user → cause ≠ Cause.checkMismatch →
      u.th c t = { h with
        tpc := BitVec.ofNat 15 (p / 4), tcause := cause, tval := tval, ppriv := .user, priv := .handler, st := .trap,
        pc := h.tvec.toNat * 64 + (if cause = Cause.fetchBoundary then 0x40 else 0),
        hint := none, wreason := .none, pend := .none, mx := .none, since := none } ∧
      { k with a := (s.core c).a, x := (s.core c).x, gang := (s.core c).gang, rptBody := (s.core c).rptBody } = s.core c ∧
      (∀ t', t' ≠ t → u.th c t' = s.th c t') ∧ (∀ c', c'.index ≠ c.index → u.core c' = s.core c') ∧ u = { s with cores := u.cores }

/-- Escalation (R112, R114): CHECK_MISMATCH, and any trap at handler level, stop the thread with its trap registers written
and PC and PRIV unchanged, and post a TRAP_ESCALATED record, kind 7, status 0, the core's CTXID, under a memory core's own sequence
number or its control core's (R24), behind what the thread has stored and sent (R292, R399). At supervisor level (R115)
the first trap stays at supervisor level; a second before HRET stops the core, and the management core is told of a control
core. -/
def Obligations.TrapEscalation : Prop :=
  ∀ (s : State) (c : CoreName) (t : Thread) (p : Nat) (cause : BitVec 8) (tval : Word),
    let h := s.th c t
    let u := s.takeTrap c t p cause tval
    let h' := u.th c t
    let saved := h'.tpc = BitVec.ofNat 15 (p / 4) ∧ h'.tcause = cause ∧ h'.tval = tval ∧ h'.ppriv = h.priv ∧ h'.priv = h.priv
    (h.priv = .handler ∨ (h.priv = .user ∧ cause = Cause.checkMismatch) →
      saved ∧ h'.st = .stop ∧ h'.pc = h.pc ∧
        ∃ (v : State) (obj : Nat) (w : Word), u = v.postBy c t c.servedBy 7 obj (s.core c).ctxid.toNat 0 w
            (match c with | .memory _ _ => some (Tbl.get 0 s.memSeq c.index) | _ => none) ∧ v.mem = s.mem ∧
          w.extractLsb' 0 8 = cause ∧ w.getLsbD 8 = decide (t = .x) ∧ w.getLsbD 9 = decide (h.priv = .handler) ∧
          bits w.toNat 32 16 = p % 2 ^ 16) ∧
    (h.priv = .supervisor → t = .a →
      (h.superTrap = false → saved ∧ h'.st = .run ∧ h'.superTrap = true ∧
        h'.pc = h.tvec.toNat * 64 + (if cause = Cause.fetchBoundary then 0x40 else 0)) ∧
      (h.superTrap = true → saved ∧ h'.st = .stop ∧ h'.pc = h.pc ∧
        (∀ cl, c = .control cl → (u.cluster cl).stopped = true ∧ (u.core .management).kick.getLsbD (16 + cl.val) = true) ∧
        (c = .management → u.life.mstop = true)))

/-- HRET (R113): at handler level or above the program counter becomes TPC.PC·4 and PRIV becomes PPRIV, or stays supervisor on a
control core and the management core (R98), so the instruction there issues next; at user level it traps with PRIVILEGE. -/
def Obligations.ReturnFromTrap : Prop :=
  ∀ (s : State),
    (s.MayIssue axAll noHint .handler → s.leads = false → s.follows = false →
      ∃ t, exec .hret s = .next t ∧
        t.th s.cur s.thr = { s.myTh with
          pc := s.myTh.tpc.toNat * 4, priv := returnPriv s.cur s.myTh, st := .run, superTrap := false, hint := none,
          wreason := .none, pend := .none, mx := .none, since := none } ∧
        returnPriv s.cur s.myTh =
          (if s.cur.kind = .control ∨ s.cur.kind = .management then .supervisor else s.myTh.ppriv) ∧
        t.mem = s.mem ∧ ∀ c, c.index ≠ s.cur.index → t.core c = s.core c) ∧
    (s.MayIssue axAll noHint .user → s.myTh.priv = .user → exec .hret s = s.traps Cause.privilege (s.ir.setWidth 64))

/-- Retirement (R43, R86, R96): the program counter moves to the next word or to the target, the wait and the pending HINT
end, and everything else is as the instruction left it. Inside a repetition (R165) the next body word follows, then the next
pass, and after the last the word behind the body. -/
def Obligations.RetireFrame : Prop :=
  ∀ (s t : State) (n : Next), s.leads = false → s.follows = false → t.cur = s.cur → t.thr = s.thr → (∀ v, n ≠ .brk v) →
    let k := t.core s.cur
    let h := t.th s.cur s.thr
    let u := s.retire t n
    let k' := u.core s.cur
    let h' := u.th s.cur s.thr
    h' = { h with
      pc := h'.pc, st := if h.st = .wait then .run else h.st, wreason := .none, pend := .none, mx := .none, since := none,
      hint := match n with | .hinted x => some x | _ => none } ∧
    (n = .seq → (s.thr = .a ∨ k.rptBody = []) → h'.pc = h.pc + 4 ∧ k'.rpt = k.rpt ∧ k'.rptBody = k.rptBody) ∧
    (n = .seq → s.thr = .x → k.rptBody ≠ [] →
      (k.rpt.body < k.rpt.len → h'.pc = h.pc + 4 ∧ k'.rpt = { k.rpt with body := k.rpt.body + 1 }) ∧
      (k.rpt.body = k.rpt.len → k.rpt.iter.toNat + 1 < k.rpt.count.toNat →
        h'.pc = h.pc - 4 * k.rpt.len.toNat ∧ k'.rpt = { k.rpt with body := 0, iter := k.rpt.iter + 1 }) ∧
      (k.rpt.body = k.rpt.len → k.rpt.count.toNat ≤ k.rpt.iter.toNat + 1 →
        h'.pc = h.pc + 4 ∧ k'.rpt.active = false ∧ k'.rptBody = [])) ∧
    (∀ p, n = .to p → h'.pc = p) ∧ (n = .done → h'.pc = h.pc) ∧ (∀ x, n = .hinted x → h'.pc = h.pc + 4) ∧
    { k' with a := k.a, x := k.x, flagLog := k.flagLog, rpt := k.rpt, rptBody := k.rptBody } = k ∧
    (∀ t', t' ≠ s.thr → u.th s.cur t' = t.th s.cur t') ∧ (∀ c, c.index ≠ s.cur.index → u.core c = t.core c) ∧
    u = { t with cores := u.cores }

/-- Registers at a thread's start and the hard-wired ones: g0 reads zero and p0 all ones, and both discard writes (R89); any
other register reads back what is written to it; at a thread's start every g, f, v and p register reads zero, no register is
dead and the program counter is the entry (R90): of an A-thread 0, as R369 says for a group's cores; for an engine and a supervisor
that is the model's choice (assumptions 17 and 30). -/
def Obligations.RegistersAndThreadStart : Prop :=
  (∀ k : Core, k.gr 0 = 0 ∧ k.pr 0 = BitVec.allOnes 128 ∧ (∀ w, k.setG 0 w = k) ∧ (∀ w, k.setP 0 w = k) ∧
    (∀ n m w, n ≠ 0 → (k.setG n w).gr m = if m = n then w else k.gr m) ∧
    (∀ n m w, n ≠ 0 → (k.setP n w).pr m = if m = n then w else k.pr m) ∧
    (∀ n m w, (k.setF n w).fr m = if m = n then w else k.fr m) ∧ (∀ n m w, (k.setV n w).vr m = if m = n then w else k.vr m)) ∧
  (∀ (k : Core) (p : Priv) (x : Bool) (entry : Nat),
    let k' := k.start p x entry
    (∀ n, k'.gr n = 0 ∧ k'.fr n = 0 ∧ k'.vr n = 0) ∧ (∀ n, n ≠ 0 → k'.pr n = 0) ∧
    k'.a.st = .run ∧ k'.a.pc = 0 ∧ k'.a.priv = p ∧ k'.a.dead = 0 ∧
    (x = true → k'.x.st = .run ∧ k'.x.pc = entry ∧ k'.x.priv = .user ∧ k'.x.dead = 0 ∧ k'.x.deadv = 0))

/-- The device at reset: no power (R457), every thread OFF (R96), no octet owned and every arbiter weight 1 (R214), handles
FREE (R228), barriers UNCONF with GEN 0 (R352), channel endpoints CLOSED (R325), slots OFF (R149), event queues disabled
(R397), ports DOWN (R434), no context but 0 resident (R402), and the memory list canonical, with nothing listed; the next
step powers the device on, which is the model's choice (assumption 2), and so is that an unlisted byte reads 0 (assumption 3). -/
def Obligations.ResetState : Prop :=
  State.reset.life.powered = false ∧
  (∀ c t, (State.reset.th c t).st = .off) ∧
  (∀ o, (State.reset.octet o).owner = 0 ∧ (∀ k, k < 8 → (State.reset.octet o).weight k = 1) ∧
    ∀ h, ((State.reset.octet o).handle h).st = .free) ∧
  (∀ c n, Tbl.get Bar.init (State.reset.core c).bars n = ⟨.unconf, 0, 0, .a, false, [], false, [], false⟩) ∧
  (∀ c n, (Tbl.get OutEp.init (State.reset.core c).outs n).st = .closed ∧ (Tbl.get InEp.init (State.reset.core c).ins n).st = .closed) ∧
  (∀ c n, ((State.reset.core c).slot n).state = .off) ∧
  (∀ cl, (State.reset.cluster cl).evEn = false) ∧ (∀ p, (State.reset.port p).st = .down) ∧
  (∀ n, State.reset.resident n = decide (n = 0)) ∧
  State.reset.memOk ∧ (∀ a, State.reset.byte a = 0) ∧
  step State.reset = State.settled (execPowerOn [] [] State.reset)

/-- Memory, byte by byte and in little-endian order (R2): a read after a write of the same bytes gives the value written, a
write changes no other byte, and bytes assemble with the lowest address least significant. -/
def Obligations.MemoryReadAfterWrite : Prop :=
  ∀ (s : State) (a n v : Nat),
    (s.writeLE a n v).readLE a n = v % 256 ^ n ∧ (s.store a n v).readLE a n = v % 256 ^ n ∧
    (∀ b, b < a ∨ a + n ≤ b → (s.store a n v).byte b = s.byte b) ∧
    (∀ i, i < n → (s.store a n v).byte (a + i) = BitVec.ofNat 8 (v / 256 ^ i)) ∧
    (∀ m, s.readLE a (n + m) = s.readLE a n + 256 ^ n * s.readLE (a + n) m) ∧
    (∀ b, (s.zeroBytes a n).byte b = if a ≤ b ∧ b < a + n then 0 else s.byte b) ∧
    (∀ c m, c + m ≤ a ∨ a + n ≤ c → (s.store a n v).readLE c m = s.readLE c m) ∧
    (∀ c b, b < a ∨ a + n ≤ b → (s.copyBytes c a n).byte b = s.byte b) ∧
    (s.memOk → ∀ c b, c + n ≤ a ∨ a + n ≤ c → b < n → (s.copyBytes c a n).byte (a + b) = s.byte (c + b))

/-- Every instruction and every event, and so every step, keeps the memory list canonical: addresses rising, no byte listed that reads
as it would unlisted, whatever comes of it, so that equal memories stay equal data. The form is the model's choice (assumption 3). -/
def Obligations.StepsKeepMemoryForm : Prop :=
  (∀ (i : Instr) (s t : State), s.memOk → exec i s = .next t → t.memOk) ∧
  (∀ s t : State, s.memOk → step s = .next t → t.memOk)

/-- The frame of the integer instructions and the branches (R129 to R135): whatever comes of one in an A-thread, short of
stopping it, no register but g[d] changes, no flag, no special register, no byte of memory, nothing of another core but the
words a gang forwards. CALL and RET besides end the life of the registers that the thread's convention names, a link register and a
stream alias never among them (R121, R122). The same of an X-thread's JAL, JALR, CALL and RET, on f[d], where d is not 0, and on the
f and v registers that CONVF and CONVV name (R135). -/
def Obligations.IntegerFrame : Prop :=
  (∀ (s t : State) (d a b : Reg) (i : BitVec 12) (j : BitVec 16) (n : Fin 64) (o : BitVec 13) (l : BitVec 19) (m : BitVec 14)
    (w : Option Reg) (ins : Instr),
    (w, ins) ∈ [(some d, Instr.add d a b), (some d, .sub d a b), (some d, .and d a b), (some d, .or d a b), (some d, .xor d a b),
      (some d, .sll d a b), (some d, .srl d a b), (some d, .sra d a b), (some d, .slt d a b), (some d, .sltu d a b),
      (some d, .min d a b), (some d, .max d a b), (some d, .minu d a b), (some d, .maxu d a b), (some d, .rol d a b),
      (some d, .ror d a b), (some d, .clz d a), (some d, .ctz d a), (some d, .popc d a), (some d, .mul d a b), (some d, .mulh d a b),
      (some d, .mulhu d a b), (some d, .div d a b), (some d, .divu d a b), (some d, .rem d a b), (some d, .remu d a b)] ++
      [(some d, Instr.addi d a i), (some d, .andi d a i), (some d, .ori d a i), (some d, .xori d a i), (some d, .slti d a i),
        (some d, .sltiu d a i), (some d, .slli d a n), (some d, .srli d a n), (some d, .srai d a n), (some d, .rori d a n),
        (some d, .lui d j), (some d, .luih d j), (some d, .luit d j), (some d, .addpc d j)] ++
      [(none, Instr.beq a b o), (none, .bne a b o), (none, .blt a b o), (none, .bge a b o), (none, .bltu a b o),
        (none, .bgeu a b o), (some d, .jal d l), (some d, .jalr d a m)] →
    s.thr = .a → s.pairFollower? = none → exec ins s = .next t → (t.th s.cur .a).st ≠ .stop →
      t = { s with cores := t.cores } ∧ (∀ x, t.byte x = s.byte x) ∧ s.me.keepsA (t.core s.cur) w ∧
      ∀ c, c.index ≠ s.cur.index → { t.core c with gang := (s.core c).gang } = s.core c) ∧
  (∀ (s t : State) (d a : Reg) (l : BitVec 19) (w : Option Reg) (dies : BitVec 32) (ins : Instr),
    (w, dies, ins) ∈ [(some d, s.me.a.conv.setWidth 32 &&& ~~~linkBit d, Instr.call d l),
      (none, (s.me.a.conv >>> 32).setWidth 32, .ret a)] →
    s.thr = .a → s.pairFollower? = none → exec ins s = .next t → (t.th s.cur .a).st ≠ .stop →
      t = { s with cores := t.cores } ∧ (∀ x, t.byte x = s.byte x) ∧ s.me.keepsA (t.core s.cur) w dies ∧
      ∀ c, c.index ≠ s.cur.index → { t.core c with gang := (s.core c).gang } = s.core c) ∧
  (∀ (s t : State) (d a : Reg) (l : BitVec 19) (m : BitVec 14) (w : Option Reg) (dies diesV : BitVec 32) (ins : Instr),
    let link := if d.val = 0 then none else some d
    let own := ~~~s.me.aliasMask
    (w, dies, diesV, ins) ∈ [(link, 0, 0, Instr.jal d l), (link, 0, 0, .jalr d a m),
      (link, s.me.x.conv.setWidth 32 &&& own &&& ~~~linkBit d, s.me.x.convv.setWidth 32 &&& own, .call d l),
      (none, (s.me.x.conv >>> 32).setWidth 32 &&& own, (s.me.x.convv >>> 32).setWidth 32 &&& own, .ret a)] →
    s.thr = .x → s.pairFollower? = none → s.proper [d, a] → exec ins s = .next t → (t.th s.cur .x).st ≠ .stop →
      t = { s with cores := t.cores } ∧ (∀ x, t.byte x = s.byte x) ∧ s.me.keepsX (t.core s.cur) w none none dies diesV ∧
      ∀ c, c.index ≠ s.cur.index → t.core c = s.core c)

/-- The frame of the scalar, lane and predicate instructions of an X-thread on registers that are no stream aliases (R91,
R175 to R183): no register but the destination changes, of FCSR only the five sticky flags, no byte of memory, nothing of
another core; a trap of a gang's follower takes it out of the gang (R128). -/
def Obligations.LaneFrame : Prop :=
  ∀ (s t : State) (d a b c : Reg) (p : Fin 8) (f g : Fin 16) (u v : Fin 4) (i : BitVec 10) (df dv : Option Reg) (dp : Option Nat)
    (ins : Instr),
    (df, dv, dp, ins) ∈ [(some d, none, none, Instr.fadd d a b p f), (some d, none, none, .fsub d a b p f),
      (some d, none, none, .fmul d a b p f), (some d, none, none, .fdiv d a b p f), (some d, none, none, .fsqrt d a p f),
      (some d, none, none, .fmin d a b p f), (some d, none, none, .fmax d a b p f), (some d, none, none, .fsgnj d a b p f),
      (some d, none, none, .fsgnjn d a b p f), (some d, none, none, .fsgnjx d a b p f), (some d, none, none, .fclass d a p f),
      (some d, none, none, .fmov d a p f), (some d, none, none, .fmadd d a b c u), (some d, none, none, .fmsub d a b c u),
      (some d, none, none, .fnmadd d a b c u), (some d, none, none, .fnmsub d a b c u), (some d, none, none, .fcvt d a f p g),
      (some d, none, none, .feq d a b p f), (some d, none, none, .flt d a b p f), (some d, none, none, .fle d a b p f),
      (some d, none, none, .funord d a b p f), (some d, none, none, .fcvtfl d a p f), (some d, none, none, .fcvtlf d a p f),
      (some d, none, none, .pcnt d a p f), (some d, none, none, .pfirst d a p f)] ++
      [(some d, none, none, Instr.iadd d a b p), (some d, none, none, .isub d a b p), (some d, none, none, .imul d a b p),
        (some d, none, none, .iand d a b p), (some d, none, none, .ior d a b p), (some d, none, none, .ixor d a b p),
        (some d, none, none, .isll d a b p), (some d, none, none, .isrl d a b p), (some d, none, none, .isra d a b p),
        (some d, none, none, .imin d a b p), (some d, none, none, .imax d a b p), (some d, none, none, .iminu d a b p),
        (some d, none, none, .imaxu d a b p), (some d, none, none, .islt d a b p), (some d, none, none, .isltu d a b p),
        (some d, none, none, .imovi d i p)] ++
      [(none, some d, none, Instr.vadd d a b p f), (none, some d, none, .vsub d a b p f), (none, some d, none, .vmul d a b p f),
        (none, some d, none, .vmin d a b p f), (none, some d, none, .vmax d a b p f), (none, some d, none, .vand d a b p f),
        (none, some d, none, .vor d a b p f), (none, some d, none, .vxor d a b p f), (none, some d, none, .vsll d a b p f),
        (none, some d, none, .vsrl d a b p f), (none, some d, none, .vsra d a b p f), (none, some d, none, .vfadd d a b p f),
        (none, some d, none, .vfsub d a b p f), (none, some d, none, .vfmul d a b p f), (none, some d, none, .vfdiv d a b p f),
        (none, some d, none, .vfmadd d a b c u v), (none, some d, none, .vfmsub d a b c u v),
        (none, some d, none, .vfnmadd d a b c u v), (none, some d, none, .vfnmsub d a b c u v), (none, some d, none, .vminu d a b p f),
        (none, some d, none, .vmaxu d a b p f), (none, some d, none, .vmulh d a b p f), (none, some d, none, .vmulhu d a b p f),
        (none, some d, none, .vabsd d a b p f), (none, some d, none, .vfsqrt d a p f), (none, some d, none, .vfmin d a b p f),
        (none, some d, none, .vfmax d a b p f), (none, some d, none, .vfabs d a p f), (none, some d, none, .vfneg d a p f),
        (none, some d, none, .vsel d a b p f)] ++
      [(none, none, some d.val, Instr.vfeq d a b p f), (none, none, some d.val, .vflt d a b p f), (none, none, some d.val, .vfle d a b p f),
        (none, none, some d.val, .vcmpeq d a b p f), (none, none, some d.val, .vcmplt d a b p f),
        (none, none, some d.val, .vcmpltu d a b p f), (none, none, some d.val, .vcmple d a b p f),
        (none, none, some d.val, .vcmpleu d a b p f), (none, none, some d.val, .loopp d a b p f)] ++
      [(none, none, some d.val, Instr.pand d a b p), (none, none, some d.val, .por d a b p), (none, none, some d.val, .pxor d a b p),
        (none, none, some d.val, .pnot d a p)] →
    s.thr = .x → s.pairFollower? = none → s.proper [d, a, b, c] → exec ins s = .next t → (t.th s.cur .x).st ≠ .stop →
      t = { s with cores := t.cores } ∧ (∀ x, t.byte x = s.byte x) ∧ s.me.keepsX (t.core s.cur) df dv dp ∧
      ∀ c, c.index ≠ s.cur.index → t.core c = s.core c

/-- The frame of loads and stores (R267 to R272): with no earlier relaxed store on its way, a load changes no byte and no
register but g[d]; a store changes no register, and no byte but those at the home its address resolves to, none where it
resolves to no home in this device, fails the map or the alignment check, or is RELAXED to another memory than the core's own and
its octet's scratchpad (it is performed later: which memories, and when, is the model's choice, assumption 8). -/
def Obligations.AccessFrame : Prop :=
  ∀ (s t : State) (d a : Reg) (i : BitVec 12), s.thr = .a → s.pairFollower? = none → s.myTh.relaxed = [] →
    (t.th s.cur .a).st ≠ .stop →
    let regs := fun w : Option Reg =>
      (∀ r : Reg, some r ≠ w → (t.core s.cur).gr r.val = s.me.gr r.val) ∧
      (∀ r : Nat, (t.core s.cur).fr r = s.me.fr r ∧ (t.core s.cur).vr r = s.me.vr r ∧ (t.core s.cur).pr r = s.me.pr r) ∧
      (t.core s.cur).fcsr = s.me.fcsr ∧ (t.core s.cur).x = s.me.x ∧ t.octets = s.octets ∧ t.ctxs = s.ctxs
    (∀ ld, ld ∈ [Instr.ldb d a i, .ldbu d a i, .ldh d a i, .ldhu d a i, .ldw d a i, .ldwu d a i, .ldd d a i] →
      exec ld s = .next t → regs (some d) ∧ ∀ b, t.byte b = s.byte b) ∧
    (∀ n ea st, (n, ea, st) ∈ [(1, effective (s.me.gr a.val) (s.immOf 12 i.toNat), Instr.stb d a i),
        (2, effective (s.me.gr a.val) (s.immOf 12 i.toNat), .sth d a i), (4, effective (s.me.gr a.val) (s.immOf 12 i.toNat), .stw d a i),
        (8, effective (s.me.gr a.val) (s.immOf 12 i.toNat), .std d a i),
        (1, (((2 * ((s.me.gr a.val).toNat : Int) + s.immOf 12 i.toNat).fdiv 2).emod (2 ^ 64)).toNat, .stn d a i)] →
      exec st s = .next t →
        regs none ∧
        (∀ p, (State.resolve (s.noted ea) s.cur ea false true).2 = .at_ (.here p) → ∀ b, b < p ∨ p + n ≤ b → t.byte b = s.byte b) ∧
        ((∀ p, (State.resolve (s.noted ea) s.cur ea false true).2 ≠ .at_ (.here p)) → ∀ b, t.byte b = s.byte b) ∧
        (s.mapOk s.cur ea = false ∨ ea % n ≠ 0 ∨
            (s.hintBit 2 = true ∧
              ∀ h, (State.resolve (s.noted ea) s.cur ea false true).2 = .at_ h → ownHome s.cur h = false) →
          ∀ b, t.byte b = s.byte b))

/-- A checked pair (R416). Whatever word its leader issues, and whatever comes of it, the two threads end alike: both go on, both wait, both
trap or both stop. An ADD works on each core's own registers. A store, an atomic and a sync operation that agree in address and data
are performed once, and both cores get the reply; where the two differ, neither is performed, and both cores stop with CHECK_MISMATCH, the
leader's address in TVAL (R112). A differing branch stops both the same way. That the words run side by side in one turn is the
model's reading (assumption 12). -/
def Obligations.CheckedPairResults : Prop :=
  (∀ (s : State) (f : CoreName) (i : Instr), s.pairFollower? = some f → (encode i).isSome = true →
    (s.th s.cur s.thr).priv ≠ .supervisor → (s.th f s.thr).priv ≠ .supervisor →
      ∃ t, exec i s = .next t ∧ (t.th f s.thr).st = (t.th s.cur s.thr).st) ∧
  (∀ (s : State) (o : OctName) (x : Fin 8) (f : CoreName) (d a b : Reg), s.PairAt o x f →
    let pair := [s.cur, f]
    let gone := fun t : State => ∀ c ∈ pair, (t.th c .a).pc = (s.th c .a).pc + 4
    let stopped := fun (t : State) (tval : Nat) => ∀ c ∈ pair,
      (t.th c .a).st = .stop ∧ (t.th c .a).tcause = Cause.checkMismatch ∧ (t.th c .a).tval = BitVec.ofNat 64 tval ∧
        (t.th c .a).pc = (s.th c .a).pc
    (encode (.add d a b) = some s.ir → ∃ t, exec (.add d a b) s = .next t ∧ gone t ∧ ∀ c ∈ pair,
      (t.core c).gr d.val = (if d.val = 0 then 0 else (s.core c).gr a.val + (s.core c).gr b.val)) ∧
    (∀ n : BitVec 13, encode (.beq a b n) = some s.ir →
      let p : Int := s.myTh.pc + 4 * sext 13 n.toNat
      0 ≤ p → p ≤ 0x10000 → sext 13 n.toNat ≠ 1 →
      decide ((s.core s.cur).gr a.val = (s.core s.cur).gr b.val) ≠ decide ((s.core f).gr a.val = (s.core f).gr b.val) →
      ∃ t, exec (.beq a b n) s = .next t ∧ stopped t s.ea.toNat) ∧
    (s.fenced → s.unsent s.cur = false → ∀ (n : BitVec 12) (ea : CoreName → Nat),
      let at_ := fun c : CoreName => scratchBase o + (ea c - 2 ^ 20)
      let place := fun size : Nat => ∀ c ∈ pair,
        2 ^ 20 ≤ ea c ∧ ea c < 2 ^ 21 ∧ ea c % size = 0 ∧ ∀ g ∈ granules (at_ c) size, s.mark g = .ok
      (encode (.std d b n) = some s.ir → (∀ c ∈ pair, ea c = effective ((s.core c).gr b.val) (sext 12 n.toNat)) → place 8 →
        let w := fun c : CoreName => (s.core c).gr d.val
        (ea s.cur = ea f → w s.cur = w f → ∃ t, exec (.std d b n) s = .next t ∧ gone t ∧
          ∀ p, t.byte p = (s.store (at_ s.cur) 8 (w s.cur).toNat).byte p) ∧
        (¬(ea s.cur = ea f ∧ w s.cur = w f) → ∃ t, exec (.std d b n) s = .next t ∧ stopped t (ea s.cur) ∧
          ∀ p, 2 ^ 61 ≤ p → t.byte p = s.byte p)) ∧
      (encode (.amoadd d a b true) = some s.ir → (∀ c ∈ pair, ea c = ((s.core c).gr a.val).toNat) → place 8 →
        let y := fun c : CoreName => (s.core c).gr b.val
        let old := s.readLE (at_ s.cur) 8
        (ea s.cur = ea f → y s.cur = y f → ∃ t, exec (.amoadd d a b true) s = .next t ∧ gone t ∧
          (∀ c ∈ pair, (t.core c).gr d.val = if d.val = 0 then 0 else BitVec.ofNat 64 old) ∧
          ∀ p, t.byte p = (s.store (at_ s.cur) 8 ((old + (y s.cur).toNat) % 2 ^ 64)).byte p) ∧
        (¬(ea s.cur = ea f ∧ y s.cur = y f) → ∃ t, exec (.amoadd d a b true) s = .next t ∧ stopped t (ea s.cur) ∧
          ∀ p, 2 ^ 61 ≤ p → t.byte p = s.byte p)) ∧
      (encode (.acq a) = some s.ir → (∀ c ∈ pair, ea c = ((s.core c).gr a.val).toNat) → place 32 → s.myTh.pend = .none →
        s.myTh.held.length < 4 →
        (∀ c ∈ pair, s.myTh.holds (ea c) = none ∧ Tbl.get [] s.syncq (at_ c) = [] ∧ lockBad (s.word (at_ c)) = false ∧
          lockW (s.word (at_ c)) = false ∧ lockReaders (s.word (at_ c)) = 0) →
        let w := s.word (at_ s.cur)
        (ea s.cur = ea f → ∃ t, exec (.acq a) s = .next t ∧ gone t ∧
          (∀ c ∈ pair, (t.th c .a).held = s.myTh.held ++ [((s.core s.cur).gr a.val, true)]) ∧
          ∀ p, t.byte p = ((s.putWord (at_ s.cur) (lockMake w true 0 0)).putWord (at_ s.cur + 8) (holderWord s s.cur .a)).byte p) ∧
        (ea s.cur ≠ ea f → ∃ t, exec (.acq a) s = .next t ∧ stopped t (ea s.cur) ∧ ∀ p, 2 ^ 61 ≤ p → t.byte p = s.byte p))))

/-- ADD to POPC and MUL to REMU (R129, R132): g[d] becomes int64 of the table's value, saturated to 64 bits under a SAT hint
where the table allows one; nothing else changes but what retiring does. ADDI to RORI and LUI to ADDPC (R130, R131): the
immediate sign-extended, or widened by a HINT of kind IMM (R44). -/
def Obligations.IntegerResults : Prop :=
  (∀ (s : State) (d a b : Reg),
    let x := s.me.gr a.val
    let y := s.me.gr b.val
    let sh := y.toNat % 64
    let sat := fun r : Int => if s.hintBit 0 then int64 (satI r (-(2 ^ 63)) (2 ^ 63 - 1)) else int64 r
    (s.MayIssue aAll satOnly .user →
      exec (.add d a b) s = s.retiresG d (sat (x.toInt + y.toInt)) ∧
      exec (.sub d a b) s = s.retiresG d (sat (x.toInt - y.toInt)) ∧
      exec (.sll d a b) s = s.retiresG d (sat (x.toInt * 2 ^ sh))) ∧
    (s.MayIssue aAll noHint .user →
      exec (.and d a b) s = s.retiresG d (x &&& y) ∧
      exec (.or d a b) s = s.retiresG d (x ||| y) ∧
      exec (.xor d a b) s = s.retiresG d (x ^^^ y) ∧
      exec (.srl d a b) s = s.retiresG d (BitVec.ofNat 64 (x.toNat / 2 ^ sh)) ∧
      exec (.sra d a b) s = s.retiresG d (int64 (x.toInt.fdiv (2 ^ sh))) ∧
      exec (.slt d a b) s = s.retiresG d (if x.toInt < y.toInt then 1 else 0) ∧
      exec (.sltu d a b) s = s.retiresG d (if x.toNat < y.toNat then 1 else 0) ∧
      exec (.min d a b) s = s.retiresG d (int64 (min x.toInt y.toInt)) ∧
      exec (.max d a b) s = s.retiresG d (int64 (max x.toInt y.toInt)) ∧
      exec (.minu d a b) s = s.retiresG d (BitVec.ofNat 64 (min x.toNat y.toNat)) ∧
      exec (.maxu d a b) s = s.retiresG d (BitVec.ofNat 64 (max x.toNat y.toNat)) ∧
      exec (.rol d a b) s = s.retiresG d (x.rotateLeft sh) ∧
      exec (.ror d a b) s = s.retiresG d (x.rotateRight sh) ∧
      exec (.clz d a) s = s.retiresG d (BitVec.ofNat 64 (if x = 0 then 64 else 63 - x.toNat.log2)) ∧
      exec (.ctz d a) s = s.retiresG d (BitVec.ofNat 64 (((List.range 64).find? fun i => x.getLsbD i).getD 64)) ∧
      exec (.popc d a) s = s.retiresG d (BitVec.ofNat 64 ((List.range 64).countP fun i => x.getLsbD i)) ∧
      exec (.mul d a b) s = s.retiresG d (x * y) ∧
      exec (.mulh d a b) s = s.retiresG d (int64 ((x.toInt * y.toInt).fdiv (2 ^ 64))) ∧
      exec (.mulhu d a b) s = s.retiresG d (BitVec.ofNat 64 (x.toNat * y.toNat / 2 ^ 64)) ∧
      exec (.div d a b) s = s.retiresG d (if y = 0 then int64 (-1) else int64 (x.toInt.tdiv y.toInt)) ∧
      exec (.divu d a b) s = s.retiresG d (if y = 0 then BitVec.allOnes 64 else BitVec.ofNat 64 (x.toNat / y.toNat)) ∧
      exec (.rem d a b) s = s.retiresG d (if y = 0 then x else int64 (x.toInt.tmod y.toInt)) ∧
      exec (.remu d a b) s = s.retiresG d (if y = 0 then x else BitVec.ofNat 64 (x.toNat % y.toNat)))) ∧
  (∀ (s : State) (d a : Reg) (i : BitVec 12) (j : BitVec 16) (n : Fin 64),
    let x := s.me.gr a.val
    let z := (s.me.gr d.val).toNat
    let y := s.immOf 12 i.toNat
    let v := s.immOf 16 j.toNat
    let sat := fun r : Int => if s.hintBit 0 then int64 (satI r (-(2 ^ 63)) (2 ^ 63 - 1)) else int64 r
    (s.MayIssue aAll immSat .user → exec (.addi d a i) s = s.retiresG d (sat (x.toInt + (int64 y).toInt))) ∧
    (s.MayIssue aAll immOnly .user →
      exec (.andi d a i) s = s.retiresG d (x &&& int64 y) ∧
      exec (.ori d a i) s = s.retiresG d (x ||| int64 y) ∧
      exec (.xori d a i) s = s.retiresG d (x ^^^ int64 y) ∧
      exec (.slti d a i) s = s.retiresG d (if x.toInt < (int64 y).toInt then 1 else 0) ∧
      exec (.sltiu d a i) s = s.retiresG d (if x.toNat < (int64 y).toNat then 1 else 0) ∧
      exec (.lui d j) s = s.retiresG d (int64 (v * 2 ^ 16)) ∧
      exec (.luih d j) s = s.retiresG d (int64 (v * 2 ^ 32 + (z % 2 ^ 32 : Nat))) ∧
      exec (.luit d j) s = s.retiresG d (int64 (v * 2 ^ 48 + (z % 2 ^ 48 : Nat))) ∧
      exec (.addpc d j) s = s.retiresG d (int64 (s.myTh.pc + v))) ∧
    (s.MayIssue aAll satOnly .user → exec (.slli d a n) s = s.retiresG d (sat (x.toInt * 2 ^ n.val))) ∧
    (s.MayIssue aAll noHint .user →
      exec (.srli d a n) s = s.retiresG d (BitVec.ofNat 64 (x.toNat / 2 ^ n.val)) ∧
      exec (.srai d a n) s = s.retiresG d (int64 (x.toInt.fdiv (2 ^ n.val))) ∧
      exec (.rori d a n) s = s.retiresG d (x.rotateRight n.val)))

/-- BEQ to BGEU, BPANY to BFGEZ (R133, R134): P + 4·o where the condition holds, P + 4 otherwise; a target outside 0 to
0x1_0000 traps with FETCH_BOUNDARY (R118). JAL, CALL, JALR, RET (R135): the link is P + 4, a d of 0 writes none, reg[a] is
read before the link is written, a misaligned target of JALR or RET and a target outside 0 to 0x1_0000 trap with nothing
changed; CALL and RET then apply their thread's convention (R122). That JALR and RET take reg[a] as an unsigned number is the model's
choice (assumption 15). -/
def Obligations.BranchAndJumpTargets : Prop :=
  (∀ (s : State) (a b f : Reg) (p : Fin 8) (o : BitVec 13),
    let x := s.me.gr a.val
    let y := s.me.gr b.val
    let l := s.me.pr p.val
    let w := s.me.fr f.val
    (s.MayIssue aAll immOnly .user →
      exec (.beq a b o) s = s.branches (x = y) o ∧
      exec (.bne a b o) s = s.branches (x ≠ y) o ∧
      exec (.blt a b o) s = s.branches (x.toInt < y.toInt) o ∧
      exec (.bge a b o) s = s.branches (y.toInt ≤ x.toInt) o ∧
      exec (.bltu a b o) s = s.branches (x.toNat < y.toNat) o ∧
      exec (.bgeu a b o) s = s.branches (y.toNat ≤ x.toNat) o) ∧
    (s.MayIssue xAll noHint .user →
      exec (.bpany p o) s = s.branches (l ≠ 0) o ∧
      exec (.bpnone p o) s = s.branches (l = 0) o ∧
      exec (.bpall p o) s = s.branches (l = BitVec.allOnes 128) o ∧
      exec (.bpnall p o) s = s.branches (l ≠ BitVec.allOnes 128) o) ∧
    (s.MayIssue xAll noHint .user → s.proper [f] →
      exec (.bfz f o) s = s.branches (w = 0) o ∧
      exec (.bfnz f o) s = s.branches (w ≠ 0) o ∧
      exec (.bfltz f o) s = s.branches (w.getLsbD 63 = true) o ∧
      exec (.bfgez f o) s = s.branches (w.getLsbD 63 = false) o)) ∧
  (∀ (s : State) (d a : Reg) (o : BitVec 19) (i : BitVec 14), (s.thr = .x → s.proper [d, a]) →
    let p := s.myTh.pc
    let reg := fun r : Reg => if s.thr = .a then s.me.gr r.val else s.me.fr r.val
    let linked := if d.val = 0 then s else s.mine fun k =>
      if s.thr = .a then k.setG d.val (BitVec.ofNat 64 (p + 4)) else k.setF d.val (BitVec.ofNat 64 (p + 4))
    let computed := fun (n : Int) (t : State) => if n % 4 ≠ 0 then s.traps Cause.misaligned (int64 n) else s.jumps n t
    (s.MayIssue axAll immOnly .user →
      exec (.jal d o) s = s.jumps (p + 4 * s.immOf 19 o.toNat) linked ∧
      exec (.call d o) s = s.jumps (p + 4 * s.immOf 19 o.toNat)
        (linked.mine fun k => k.applyConv s.thr false (linkBit d)) ∧
      exec (.jalr d a i) s = computed ((reg a).toNat + s.immOf 14 i.toNat) linked) ∧
    (s.MayIssue axAll noHint .user →
      exec (.ret a) s = computed (reg a).toNat (s.mine fun k => k.applyConv s.thr true 0)))

/-- FADD to FMOV and the fused forms of one register (R175, R176): each active lane of f[d] holds the function of the lanes
of its operands at the format of ty, rounded in FCSR's mode; inactive lanes keep their value; flags are ORed into FCSR. FEQ to FUNORD,
FCVT, FCVTFL, FCVTLF (R177, R178): a compare gives all ones or zero in each active lane; a conversion
fills the lanes of R178. IADD to ISLTU and IMOVI (R179): one 64-bit lane, active by bit 0 of the predicate, kept otherwise. -/
def Obligations.ScalarResults : Prop :=
  (∀ (s : State) (d a b c : Reg) (p : Fin 8) (t : Fin 16) (u : Fin 4), s.MayIssue xAll satX .user → s.proper [d, a, b, c] →
    let w := fmtWidth t.val
    let x := fun w => lane w (s.me.fr a.val).toNat
    let y := fun w => lane w (s.me.fr b.val).toNat
    let z := fun w => lane w (s.me.fr c.val).toNat
    let lanes := fun (f : Nat → Nat → Bool → Nat → Nat × Flags) =>
      s.retires (s.lanesF w (laneOn w (s.me.pr p.val)) d fun i => f t.val s.me.rm s.satOn i)
    let two := fun (f : Nat → Nat → Bool → Nat → Nat → Nat × Flags) => lanes fun t rm sat i => f t rm sat (x w i) (y w i)
    let one := fun (f : Nat → Nat → Bool → Nat → Nat × Flags) => lanes fun t rm sat i => f t rm sat (x w i)
    let v := fmtWidth (ty2 u)
    let fused := fun (op : Nat) => s.retires (s.lanesF v (fun _ => true) d fun i =>
      laneFma op (ty2 u) s.me.rm s.satOn (x v i) (y v i) (z v i))
    exec (.fadd d a b p t) s = two laneAdd ∧
    exec (.fsub d a b p t) s = two laneSub ∧
    exec (.fmul d a b p t) s = two laneMul ∧
    exec (.fdiv d a b p t) s = two laneDiv ∧
    exec (.fmin d a b p t) s = two laneMin ∧
    exec (.fmax d a b p t) s = two laneMax ∧
    exec (.fsgnj d a b p t) s = two (fun t _ _ a b => laneSign t a (isNegBits t b)) ∧
    exec (.fsgnjn d a b p t) s = two (fun t _ _ a b => laneSign t a (!isNegBits t b)) ∧
    exec (.fsgnjx d a b p t) s = two (fun t _ _ a b => laneSign t a (isNegBits t a != isNegBits t b)) ∧
    exec (.fsqrt d a p t) s = one laneSqrt ∧
    exec (.fclass d a p t) s = one (fun t _ _ a => (classOf t a, fNone)) ∧
    exec (.fmov d a p t) s = one (fun _ _ _ a => (a, fNone)) ∧
    exec (.fmadd d a b c u) s = fused 0 ∧
    exec (.fmsub d a b c u) s = fused 1 ∧
    exec (.fnmadd d a b c u) s = fused 2 ∧
    exec (.fnmsub d a b c u) s = fused 3) ∧
  (∀ (s : State) (d a b : Reg) (p : Fin 8) (t u : Fin 16), s.proper [d, a, b] →
    let w := fmtWidth t.val
    let x := (s.me.fr a.val).toNat
    let y := (s.me.fr b.val).toNat
    let old := (s.me.fr d.val).toNat
    let g := s.me.pr p.val
    let give := fun (r : Nat × Flags) => s.retires ((s.mine fun k => k.setF d.val (BitVec.ofNat 64 r.1)).mine fun k => k.raised r.2)
    let compare := fun (op : Nat) => s.retires (s.lanesF w (laneOn w g) d fun i =>
      let r := compareF op t.val (lane w x i) (lane w y i)
      (if r.1 then 2 ^ w - 1 else 0, r.2))
    (s.MayIssue xAll noHint .user →
      exec (.feq d a b p t) s = compare 0 ∧
      exec (.flt d a b p t) s = compare 1 ∧
      exec (.fle d a b p t) s = compare 2 ∧
      exec (.funord d a b p t) s = compare 3 ∧
      exec (.fcvtfl d a p t) s = (if g.getLsbD 0 then give (roundNum t.val s.me.rm s.satOn (numOfInt (s.me.fr a.val).toInt))
        else s.retiresF d (BitVec.ofNat 64 (old % 2 ^ w)))) ∧
    (s.MayIssue xAll satX .user →
      exec (.fcvt d a t p u) s = give (convertLanes t.val u.val 64 s.me.rm s.satOn (s.hintBit 0) g old x) ∧
      exec (.fcvtlf d a p t) s =
        (let r := toInteger s.me.rm (-(2 ^ 63)) (2 ^ 63 - 1) (decodeF t.val (x % 2 ^ w))
         if g.getLsbD 0 then s.retires ((s.mine fun k => k.setF d.val (int64 r.1)).mine fun k => k.raised r.2)
         else s.retiresF d (s.me.fr d.val)))) ∧
  (∀ (s : State) (d a b : Reg) (i : BitVec 10) (p : Fin 8), s.proper [d, a, b] →
    let x := s.me.fr a.val
    let y := s.me.fr b.val
    let sh := y.toNat % 64
    let sat := fun r : Int => if s.hintBit 0 then int64 (satI r (-(2 ^ 63)) (2 ^ 63 - 1)) else int64 r
    let put := fun r : Word => s.retiresF d (if (s.me.pr p.val).getLsbD 0 then r else s.me.fr d.val)
    (s.MayIssue xAll satX .user →
      exec (.iadd d a b p) s = put (sat (x.toInt + y.toInt)) ∧
      exec (.isub d a b p) s = put (sat (x.toInt - y.toInt)) ∧
      exec (.imul d a b p) s = put (sat (x.toInt * y.toInt)) ∧
      exec (.isll d a b p) s = put (sat (x.toInt * 2 ^ sh))) ∧
    (s.MayIssue xAll noHint .user →
      exec (.iand d a b p) s = put (x &&& y) ∧
      exec (.ior d a b p) s = put (x ||| y) ∧
      exec (.ixor d a b p) s = put (x ^^^ y) ∧
      exec (.isrl d a b p) s = put (BitVec.ofNat 64 (x.toNat / 2 ^ sh)) ∧
      exec (.isra d a b p) s = put (int64 (x.toInt.fdiv (2 ^ sh))) ∧
      exec (.imin d a b p) s = put (int64 (min x.toInt y.toInt)) ∧
      exec (.imax d a b p) s = put (int64 (max x.toInt y.toInt)) ∧
      exec (.iminu d a b p) s = put (BitVec.ofNat 64 (min x.toNat y.toNat)) ∧
      exec (.imaxu d a b p) s = put (BitVec.ofNat 64 (max x.toNat y.toNat)) ∧
      exec (.islt d a b p) s = put (if x.toInt < y.toInt then 1 else 0) ∧
      exec (.isltu d a b p) s = put (if x.toNat < y.toNat then 1 else 0) ∧
      exec (.imovi d i p) s = put (int64 (sext 10 i.toNat))))

/-- What every step leaves behind. The frame path's bank is the one that the bank-select word names, wherever that word's granule is
correct (R449). No home keeps a request waiting whose condition of R283 holds: at the head of an object's queue stands an ACQ while the
object is held, or an ACQR while it is held for writing, the record's granules are correct and its lock word is valid (R285); the
premise, that the records with a queue are aligned as R280 asks of every one, is what every instruction that joins a queue checks. -/
def Obligations.StepInvariants : Prop :=
  (∀ s t : State, step s = .next t → t.mark 0x3FF000 = .ok → t.frameBank = (t.byte 0x3FF000).getLsbD 0) ∧
  (∀ s u t : State, s.turn = .next u → (∀ q ∈ u.syncq, q.1 % 32 = 0) → step s = .next t →
    ∀ home r rest, Tbl.get [] t.syncq home = r :: rest →
      (t.checkRead home 32).2 = none ∧ lockBad (t.word home) = false ∧
      (if r.write then lockW (t.word home) = true ∨ 0 < lockReaders (t.word home) else lockW (t.word home) = true))

/-- The two-operand and one-operand lane forms of majors 0x28 and 0x29 and the fused forms of 0x2A (R180 to R182): lane i of
v[d] holds the function of lanes i of the operands where it is active and its old value elsewhere; an integer result is
wrapped to the lane, or clamped under a SAT hint. The compares into a predicate and the predicate forms (R181, R183): the bits of a
lane are all ones where it is active and the compare holds, else zero; PCNT and PFIRST count and find active lanes whose predicate bit
is set. -/
def Obligations.VectorResults : Prop :=
  (∀ (s : State) (d a b c : Reg) (p : Fin 8) (t : Fin 16) (q u : Fin 4), s.proper [d, a, b, c] →
    let w := fmtWidth t.val
    let x := fun w => lane w (s.me.vr a.val).toNat
    let y := fun w => lane w (s.me.vr b.val).toNat
    let z := fun w => lane w (s.me.vr c.val).toNat
    let lanes := fun f : Nat → Nat × Flags => s.retires (s.lanesV w (s.me.pr p.val) d f)
    let clamp := fun r : Int => wrapN w (if s.hintBit 0 then satI r (intMin t.val) (intMax t.val) else r)
    let int := fun f : Int → Int → Int => lanes fun i => (clamp (f (decodeI t.val (x w i)) (decodeI t.val (y w i))), fNone)
    let nat := fun f : Nat → Nat → Nat => lanes fun i => (f (x w i) (y w i) % 2 ^ w, fNone)
    let flt := fun f : Nat → Nat → Bool → Nat → Nat → Nat × Flags => lanes fun i => f t.val s.me.rm s.satOn (x w i) (y w i)
    let one := fun f : Nat → Nat → Bool → Nat → Nat × Flags => lanes fun i => f t.val s.me.rm s.satOn (x w i)
    let v := fmtWidth (ty2 u)
    let fused := fun op : Nat => s.retires (s.lanesV v (s.me.pr q.val) d fun i =>
      laneFma op (ty2 u) s.me.rm s.satOn (x v i) (y v i) (z v i))
    (s.MayIssue xAll satX .user →
      exec (.vadd d a b p t) s = int (· + ·) ∧
      exec (.vsub d a b p t) s = int (· - ·) ∧
      exec (.vmul d a b p t) s = int (· * ·) ∧
      exec (.vsll d a b p t) s = lanes (fun i => (clamp (decodeI t.val (x w i) * 2 ^ (y w i % w)), fNone)) ∧
      exec (.vfadd d a b p t) s = flt laneAdd ∧
      exec (.vfsub d a b p t) s = flt laneSub ∧
      exec (.vfmul d a b p t) s = flt laneMul ∧
      exec (.vfdiv d a b p t) s = flt laneDiv ∧
      exec (.vfsqrt d a p t) s = one laneSqrt ∧
      exec (.vfmadd d a b c q u) s = fused 0 ∧
      exec (.vfmsub d a b c q u) s = fused 1 ∧
      exec (.vfnmadd d a b c q u) s = fused 2 ∧
      exec (.vfnmsub d a b c q u) s = fused 3) ∧
    (s.MayIssue xAll noHint .user →
      exec (.vmin d a b p t) s = int min ∧
      exec (.vmax d a b p t) s = int max ∧
      exec (.vabsd d a b p t) s = int (fun a b => ((a - b).natAbs : Int)) ∧
      exec (.vmulh d a b p t) s = int (fun a b => (a * b).fdiv (2 ^ w)) ∧
      exec (.vsra d a b p t) s = lanes (fun i => (clamp ((decodeI t.val (x w i)).fdiv (2 ^ (y w i % w))), fNone)) ∧
      exec (.vminu d a b p t) s = nat min ∧
      exec (.vmaxu d a b p t) s = nat max ∧
      exec (.vand d a b p t) s = nat (· &&& ·) ∧
      exec (.vor d a b p t) s = nat (· ||| ·) ∧
      exec (.vxor d a b p t) s = nat (· ^^^ ·) ∧
      exec (.vsrl d a b p t) s = nat (fun a b => a / 2 ^ (b % w)) ∧
      exec (.vmulhu d a b p t) s = nat (fun a b => a * b / 2 ^ w) ∧
      exec (.vfmin d a b p t) s = flt (fun t _ _ a b => minmaxF t false a b) ∧
      exec (.vfmax d a b p t) s = flt (fun t _ _ a b => minmaxF t true a b) ∧
      exec (.vfabs d a p t) s = one (fun t _ _ a => laneSign t a false) ∧
      exec (.vfneg d a p t) s = one (fun t _ _ a => laneSign t a (!isNegBits t a)))) ∧
  (∀ (s : State) (d a b : Reg) (p : Fin 8) (t : Fin 16), s.MayIssue xAll noHint .user → s.proper [d, a, b] →
    let w := fmtWidth t.val
    let n := 1024 / w
    let g := s.me.pr p.val
    let x := lane w (s.me.vr a.val).toNat
    let y := lane w (s.me.vr b.val).toNat
    let compare := fun f : Nat → Nat → Bool × Flags =>
      let r := fun i => f (x i) (y i)
      s.retires ((s.mine fun k => k.setP d.val (lanesToPred w n fun i => laneOn w g i && (r i).1)).mine fun k =>
        k.raised ((List.range n).foldl (fun f i => if laneOn w g i then f ||| (r i).2 else f) fNone))
    let plain := fun f : Nat → Nat → Prop => fun (_ : ∀ a b, Decidable (f a b)) => compare fun a b => (decide (f a b), fNone)
    exec (.vfeq d a b p t) s = compare (compareF 0 t.val) ∧
    exec (.vflt d a b p t) s = compare (compareF 1 t.val) ∧
    exec (.vfle d a b p t) s = compare (compareF 2 t.val) ∧
    exec (.vcmpeq d a b p t) s = plain (fun a b => a = b) inferInstance ∧
    exec (.vcmplt d a b p t) s = plain (fun a b => decodeI t.val a < decodeI t.val b) inferInstance ∧
    exec (.vcmpltu d a b p t) s = plain (fun a b => a < b) inferInstance ∧
    exec (.vcmple d a b p t) s = plain (fun a b => decodeI t.val a ≤ decodeI t.val b) inferInstance ∧
    exec (.vcmpleu d a b p t) s = plain (fun a b => a ≤ b) inferInstance ∧
    exec (.pand d a b p) s = s.retiresP d.val (s.me.pr a.val &&& s.me.pr b.val &&& g) ∧
    exec (.por d a b p) s = s.retiresP d.val ((s.me.pr a.val ||| s.me.pr b.val) &&& g) ∧
    exec (.pxor d a b p) s = s.retiresP d.val ((s.me.pr a.val ^^^ s.me.pr b.val) &&& g) ∧
    exec (.pnot d a p) s = s.retiresP d.val (~~~(s.me.pr a.val) &&& g) ∧
    exec (.loopp d a b p t) s = s.retiresP d.val (lanesToPred w n fun i =>
      laneOn w g i && decide ((s.me.fr a.val).toNat + i < (s.me.fr b.val).toNat)) ∧
    exec (.pcnt d a p t) s = s.retiresF d (BitVec.ofNat 64 ((List.range n).countP (laneOn w (s.me.pr a.val &&& g)))) ∧
    exec (.pfirst d a p t) s = s.retiresF d (BitVec.ofNat 64 (((List.range n).find? (laneOn w (s.me.pr a.val &&& g))).getD n)))

/-- The frame of a trap under majors 0x30 to 0x32, 0x18 to 0x1C and 0x38 to 0x3B (matrix, channel, barrier, work, kernel, context and
external instructions, R37): each is its checks of R41 and an effect, and an effect that traps leaves the state as at issue but for what
R109 lets stand, the address, the poison it found (R274), the stations' and sectors' cached entries, a page fault's record and kick, the
slots of a stream operand with STRSTAT (R154), and the report that it took; then the trap of R111 is taken. -/
def Obligations.TrapFrames : Prop :=
  ∀ (i : Instr) (w : BitVec 32), encode i = some w →
    (let m := fld w.toNat 26 6
     (0x30 ≤ m ∧ m ≤ 0x32) ∨ (0x18 ≤ m ∧ m ≤ 0x1C) ∨ (0x38 ≤ m ∧ m ≤ 0x3B)) →
    ∃ (legal : State → Bool) (ok : Hints) (need : Priv) (body : M Next),
      (∀ s, exec i s = issueIf legal ok need body s) ∧
      ∀ (s : State) (cause : BitVec 8) (tval : Word) (edit : State → State), body s = .error (.trap cause tval edit) →
        s.spared (edit s) s.cur s.thr ∧
        (s.MayIssueIf legal ok need → exec i s = .next (s.trapIssued (edit s) cause tval))

/-- The permutes (R184): where lane i of v[d] comes from. Reductions, selection, conversion and the special forms (R185 to
R192). -/
def Obligations.PermuteAndReductionResults : Prop :=
  (∀ (s : State) (d a b : Reg) (p : Fin 8) (t : Fin 16), s.MayIssue xAll noHint .user → s.proper [d, a, b] →
    let w := fmtWidth t.val
    let n := 1024 / w
    let g := s.me.pr p.val
    let x := lane w (s.me.vr a.val).toNat
    let y := lane w (s.me.vr b.val).toNat
    let m := (s.me.fr b.val).toNat
    let lanes := fun f : Nat → Nat => s.retires (s.lanesV w g d fun i => (f i % 2 ^ w, fNone))
    let whole := fun l : List Nat => s.retiresV d (BitVec.ofNat 1024 (packLanes w l))
    exec (.vperm d a b p t) s = lanes (fun i => if y i < n then x (y i) else 0) ∧
    exec (.vbcast d a p t) s = lanes (fun _ => (s.me.fr a.val).toNat) ∧
    exec (.vslup d a b p t) s = lanes (fun i => if m ≤ i then x (i - m) else 0) ∧
    exec (.vsldn d a b p t) s = lanes (fun i => if i + m < n then x (i + m) else 0) ∧
    exec (.vzip d a b p t) s = lanes (fun i => if i % 2 = 0 then x (i / 2) else y (i / 2)) ∧
    exec (.vunzip d a b p t) s = lanes (fun i => if i < n / 2 then x (2 * i) else y (2 * (i - n / 2))) ∧
    exec (.vrev d a p t) s = lanes (fun i => x (n - 1 - i)) ∧
    exec (.vexpnd d a p t) s = s.retires (s.lanesV w g d fun i => (x ((List.range i).countP (laneOn w g)), fNone)) ∧
    exec (.vcompr d a p t) s = whole (((List.range n).filter (laneOn w g)).map x) ∧
    exec (.vsel d a b p t) s = whole ((List.range (laneCount w 1024)).map fun i => if laneOn w g i then x i else y i)) ∧
  (∀ (s : State) (d a b : Reg) (k : Reg) (p : Fin 8) (t u : Fin 16), s.proper [d, a, b] →
    let w := fmtWidth t.val
    let g := s.me.pr p.val
    let x := (s.me.vr a.val).toNat
    let reduce := fun op : Nat =>
      let r := reduceOf op t.val s.me.rm s.satOn x (laneOn w g)
      s.retires ((s.mine fun k => k.setF d.val r.1).mine fun k => k.raised r.2)
    (s.MayIssue xAll noHint .user →
      exec (.vrsum d a p t) s = reduce 0 ∧
      exec (.vrmax d a p t) s = reduce 1 ∧
      exec (.vrmin d a p t) s = reduce 2 ∧
      exec (.vlq d) s = s.retiresF d 1024 ∧
      exec (.vmovf d a b t) s = s.retiresF d
        (if (s.me.fr b.val).toNat < 1024 / w then BitVec.ofNat 64 (lane w x (s.me.fr b.val).toNat) else 0) ∧
      exec (.vtopk d a b p t) s =
        (let y := (s.me.fr b.val).toNat
         let c := topLanes (fun i => rankOf t.val (lane 32 x i)) (min (bits y 0 5) 16) ((List.range 32).filter (laneOn 32 g))
         let value := fun q : Nat => match getElem? c q with | some i => lane 32 x i | none => 0
         let index := fun q : Nat => match getElem? c q with | some i => y / 2 ^ 32 + i | none => 0xFFFFFFFF
         s.retiresV d (BitVec.ofNat 1024 (packLanes 32 ((List.range 16).map value ++ (List.range 16).map index)))) ∧
      exec (.vppe d a k p) s = s.retires (s.lanesV 32 g d fun i => ppeEval s.me k.val (lane 32 x i)) ∧
      exec (.vrng d a b p t) s = s.retires (s.lanesV w g d fun i =>
        ((rngOf ((s.me.vr b.val).setWidth 64) ((s.me.vr b.val >>> 64).setWidth 64) (s.me.fr a.val + BitVec.ofNat 64 i)).toNat % 2 ^ w,
          fNone)) ∧
      exec (.ppld k a b p) s = s.retires (s.mine fun c => (List.range 32).foldl (fun c i =>
        let at_ := (s.me.fr b.val).toNat * 32 + i
        if laneOn 32 g i ∧ at_ < 384 then
          { c with ppe := Tbl.set 0 c.ppe (384 * k.val + (s.me.fr b.val).toNat * 32 + i) (BitVec.ofNat 32 (lane 32 x i)) }
        else c) c)) ∧
    (s.MayIssue xAll satX .user →
      exec (.vcvt d a t p u) s =
        (let r := convertLanes t.val u.val 1024 s.me.rm s.satOn (s.hintBit 0) g (s.me.vr d.val).toNat x
         s.retires ((s.mine fun k => k.setV d.val (BitVec.ofNat 1024 r.1)).mine fun k => k.raised r.2))))

/-- HINT retires with its modifier pending for the next word and nothing else done, and behind another HINT it traps with
HINT_MISUSE (R42, R43, R46); NOP retires and changes nothing but the program counter (R39); TRAP retires and then traps with
BREAK, TPC at the word behind it and its code in TVAL (R137). Each completes in every thread that may issue it. -/
def Obligations.HintNopTrapResults : Prop :=
  ∀ s : State,
    (s.MayIssue axAll ⟨true, 0xF⟩ .user → ∀ (d : BitVec 22) (m : BitVec 4) (b : BitVec 2),
      let hint := fun h : Hint => if s.myTh.hint.isSome then s.traps Cause.hintMisuse (s.ir.setWidth 64) else s.retires s (.hinted h)
      exec (.hintImm d) s = hint (.imm d) ∧ exec (.hintMod m) s = hint (.mod m) ∧ exec (.hintBr b) s = hint (.brx b)) ∧
    (s.MayIssue axAll noHint .user → ∀ c : BitVec 12,
      exec .nop s = s.retires s ∧ exec (.trap c) s = s.retires s (.brk (c.setWidth 64))) ∧
    (s.follows = false →
      let kept := fun t : State =>
        t.mem = s.mem ∧ (t.core s.cur).g = s.me.g ∧ (t.core s.cur).f = s.me.f ∧ (t.core s.cur).v = s.me.v ∧ (t.core s.cur).p = s.me.p ∧
          (t.core s.cur).fcsr = s.me.fcsr
      (s.MayIssue axAll ⟨true, 0xF⟩ .user → s.myTh.hint = none → ∀ (d : BitVec 22) (m : BitVec 4) (b : BitVec 2),
        let pends := fun (i : Instr) (h : Hint) =>
          ∃ t, exec i s = .next t ∧ (t.th s.cur s.thr).hint = some h ∧ (t.th s.cur s.thr).pc = s.myTh.pc + 4 ∧ kept t
        pends (.hintImm d) (.imm d) ∧ pends (.hintMod m) (.mod m) ∧ pends (.hintBr b) (.brx b)) ∧
      (s.MayIssue axAll noHint .user → (s.thr = .a ∨ s.me.rptBody = []) →
        (∃ t, exec .nop s = .next t ∧ (t.th s.cur s.thr).hint = none ∧ (t.th s.cur s.thr).pc = s.myTh.pc + 4 ∧ kept t) ∧
        (s.myTh.priv = .user → ∀ c : BitVec 12, ∃ t, exec (.trap c) s = .next t ∧
          (let h := t.th s.cur s.thr
           h.tpc = BitVec.ofNat 15 ((s.myTh.pc + 4) / 4) ∧ h.tcause = Cause.brk ∧ h.tval = c.setWidth 64 ∧ h.ppriv = .user ∧
             h.priv = .handler ∧ h.st = .trap ∧ h.pc = s.myTh.tvec.toNat * 64) ∧ kept t)))

/-- SETXB (R140): a boundary that is no multiple of 256 or above 0x1_0000 traps with LOCAL_RANGE and leaves XB; otherwise
reg[d] receives the old boundary and XB.BOUND becomes w/256. -/
def Obligations.SetBoundaryResults : Prop :=
  ∀ (s : State) (d a : Reg), s.MayIssue axAll noHint .handler → (s.thr = .x → s.proper [d, a]) →
    let w := (s.reg a).toNat
    exec (.setxb d a) s =
      if w % 256 ≠ 0 ∨ 0x10000 < w then s.traps Cause.localRange (s.reg a)
      else s.retires ((s.mine fun k => { k with xb := BitVec.ofNat 9 (w / 256) }).putReg d (BitVec.ofNat 64 (s.me.xb.toNat * 256)))

/-- CSRR, CSRW, CSRS, CSRC (R138): reg[d] receives the old value, and the write forms then write w, c OR w, c AND NOT w, for
every CSR of R100's table that R101 lets the thread name. WAIT (R139): with a named event present, or the deadline passed, it
retires at once with the events met in reg[d], bit 8 for the deadline, and the latches it took cleared; otherwise the thread
waits with reason EVENT. -/
def Obligations.CsrAndWaitResults : Prop :=
  (∀ (s : State) (d a : Reg) (c : BitVec 12), (s.thr = .x → s.proper [d, a]) →
    let old := BitVec.ofNat 64 (s.csr s.cur s.thr c.toNat)
    let put := fun new : Word => s.retires ((s.putReg d old).writeCsr s.cur s.thr c.toNat new)
    (s.MayIssueIf (csrLegal c.toNat false) noHint (csrReadNeed c.toNat) → exec (.csrr d c) s = s.retires (s.putReg d old)) ∧
    (s.MayIssueIf (csrLegal c.toNat true) noHint (csrWriteNeed c.toNat) →
      exec (.csrw d a c) s = put (s.reg a) ∧
      exec (.csrs d a c) s = put (old ||| s.reg a) ∧
      exec (.csrc d a c) s = put (old &&& ~~~s.reg a))) ∧
  (∀ (s : State) (d a : Reg) (l : Bool) (e : BitVec 4),
    s.MayIssueIf (fun s => axAll.legal s && waitLegal e s) noHint .user → (s.thr = .x → s.proper [d, a]) →
      let hit := e &&& s.eventBits s.cur s.thr
      let late := l && decide ((s.reg a).toNat ≤ s.timeWord.toNat)
      exec (.wait d a l e) s =
        if hit = 0 ∧ late = false then s.waits s .event
        else s.retires ((s.putReg d (BitVec.ofNat 64 (hit.toNat + if late then 256 else 0))).updTh s.cur s.thr fun h =>
          { h with wchan := h.wchan && !hit.getLsbD 1, wkick := h.wkick && !hit.getLsbD 2 }))

/-- A CSR of a thread reads back what is written to its writable fields, other bits 0 (R100, R103 to R105, R166). TSTAT (R104): a 1 to
DISCARDED clears it, PPRIV takes a level that the core's kind may have and a write at user level leaves, the rest is read-only. FCSR
(R65): 5, 6 or 7 leaves RM and the other fields are written. DEADF and DEADV (R105): the registers named are dead and read zero, the
others live with their value, and the stream aliases are none of them (R91). -/
def Obligations.CsrReadsBackWrite : Prop :=
  (∀ (s : State) (c : CoreName) (t : Thread) (w : Word) (e : Nat × Word),
    e ∈ [(0x008, 0xFFC0), (0x009, 0x1FFFC), (0x00A, 0xFF), (0x00B, BitVec.allOnes 64), (0x010, 0x1FFF8), (0x011, 0x1FFF8),
      (0x012, 0x1FFF8), (0x014, BitVec.allOnes 64), (0x015, BitVec.allOnes 64), (0x016, BitVec.allOnes 64), (0x01C, 0xFFFFFFFE),
      (0x021, ~~~0x8000#64), (0x022, ~~~0xE0#64), (0x02A, 0xFFFFFFFF), (0x02B, 0xFF)] →
    (s.writeCsr c t e.1 w).csr c t e.1 = (w &&& e.2).toNat) ∧
  (∀ (s : State) (c : CoreName) (t : Thread) (w : Word),
    let old := s.csr c t 0x00C
    let new := (s.writeCsr c t 0x00C w).csr c t 0x00C
    let level := bits w.toNat 2 2
    let super := c.kind = .control ∨ c.kind = .management
    bits new 4 1 = (if w.getLsbD 4 then 0 else bits old 4 1) ∧
    bits new 2 2 = (if (s.th c t).priv = .user ∨ level = 3 ∨ (level = 2 ∧ ¬super) then bits old 2 2 else level) ∧
    bits new 0 2 = bits old 0 2 ∧ new / 2 ^ 5 = old / 2 ^ 5) ∧
  (∀ (s : State) (c : CoreName) (t : Thread) (w : Word),
    let old := s.csr c t 0x020
    let new := (s.writeCsr c t 0x020 w).csr c t 0x020
    bits new 0 5 = bits w.toNat 0 5 ∧ bits new 8 1 = bits w.toNat 8 1 ∧ new < 2 ^ 9 ∧
    bits new 5 3 = if 5 ≤ bits w.toNat 5 3 then bits old 5 3 else bits w.toNat 5 3) ∧
  (∀ (s : State) (c : CoreName) (t : Thread) (w : Word),
    let dies : BitVec 32 := w.setWidth 32 &&& ~~~(s.core c).aliasMask
    let u := s.writeCsr c t 0x01D w
    let v := s.writeCsr c t 0x01E w
    u.csr c t 0x01D = dies.toNat ∧ v.csr c t 0x01E = dies.toNat ∧
    ∀ r : Reg, (u.core c).fr r.val = (if dies.getLsbD r.val then 0 else (s.core c).fr r.val) ∧
      (v.core c).vr r.val = if dies.getLsbD r.val then 0 else (s.core c).vr r.val)

/-- GANG FORM, JOIN, END (R125): FORM makes its core the leader of the cores at the next yarn positions once they have all
joined; a core whose JOIN was accepted continues with its position in g[d]; END at the leader ends the gang's forwarding. -/
def Obligations.GangResults : Prop :=
  ∀ (s : State) (d : Reg) (n : Fin 8), s.MayIssue aCompute noHint .user →
    (yarnPos (CoreIdx s.cur) + n.val ≤ 7 → s.me.gang.active = false →
      (∀ f ∈ gangOf s.cur n.val, (s.core f.1).gang.joining = true ∧ (s.core f.1).gang.active = false) →
      exec (.gangForm d n) s = s.retires
        ((((gangOf s.cur n.val).foldl (fun t f => t.updCore f.1 fun k =>
          { k with gang := ⟨0, true, true, false, CoreIdx s.cur, Fin.ofNat 8 f.2, false, [], false⟩ }) s).updCore s.cur fun k =>
          { k with gang := ⟨n, false, true, false, CoreIdx s.cur, 0, false, [], false⟩ }).updCore s.cur fun k => k.setG d.val 0)) ∧
    (s.me.gang.active = true → s.me.a.pend = .gang →
      exec (.gangJoin d) s = s.retiresG d (BitVec.ofNat 64 s.me.gang.pos.val)) ∧
    (s.me.gang.active = true → s.me.gang.compare = false → s.me.gang.follower = false →
      exec (.gangEnd d) s = s.retires ((s.mine fun k => { k with gang := Gang.init }).mine fun k => k.setG d.val 0))

/-- PUSHM and POPM (R123): with room between SSLO and SSHI in the thread's own local memory above XB, the registers d to a are
stored below SSP in rising order, and SSP moves down; POPM reads them back, every granule correct, and SSP moves up. With no
room they trap with STACK_OVERFLOW and STACK_UNDERFLOW, and nothing moves. No store or record of the thread is on its way, for
such a one is performed first (R287, R289). -/
def Obligations.StackResults : Prop :=
  ∀ (s : State) (d a : Reg) (cl : RegClass) (push pop : Instr),
    (cl, push, pop) ∈ [(RegClass.g, Instr.pushmG d a, Instr.popmG d a), (.f, .pushmF d a, .popmF d a), (.v, .pushmV d a, .popmV d a)] →
    s.MayIssue cl.who noHint .user → (s.thr = .a → s.quiet) →
    (cl ≠ .g → ∀ i, d.val ≤ i → i ≤ a.val → s.me.alias? i = none) →
      let n := a.val + 1 - d.val
      let sp := s.myTh.ssp.toNat * 8
      let lo : Int := (sp : Int) - ((n * cl.size : Nat) : Int)
      let hi := sp + n * cl.size
      (lo < ((s.myTh.sslo.toNat * 8 : Nat) : Int) → exec push s = s.traps Cause.stackOverflow (int64 lo)) ∧
      (((s.myTh.sslo.toNat * 8 : Nat) : Int) ≤ lo → ((s.xbOf s.cur : Nat) : Int) ≤ lo → sp ≤ 0x10000 →
        exec push s = s.retires (((List.range n).foldl (fun (t : State) i =>
          t.store (localBase s.cur + lo.toNat + i * cl.size) cl.size (s.me.rawGet cl (d.val + i))) { s with ea := int64 lo }).updTh
            s.cur s.thr fun h => { h with ssp := BitVec.ofNat 14 (lo.toNat / 8) })) ∧
      (s.myTh.sshi.toNat * 8 < hi → exec pop s = s.traps Cause.stackUnderflow (BitVec.ofNat 64 hi)) ∧
      (hi ≤ s.myTh.sshi.toNat * 8 → s.xbOf s.cur ≤ sp → hi ≤ 0x10000 →
        (∀ g ∈ granules (localBase s.cur + sp) (n * cl.size), s.mark g = .ok) →
        exec pop s = s.retires ((State.updCore { s with ea := BitVec.ofNat 64 sp } s.cur fun k =>
          (List.range n).foldl (fun k i =>
            k.rawSet cl (d.val + i) (s.readLE (localBase s.cur + sp + i * cl.size) cl.size)) k).updTh
            s.cur s.thr fun h => { h with ssp := BitVec.ofNat 14 (hi / 8) }))

/-- The loads (R267 to R271): an access that passes the checks of R268 gives g[d] the n bytes at its home, sign- or
zero-extended; with NOFAULT the same, and 0 where the map or the alignment check fails. XPREF (R271): it changes nothing but
the station's cached entries and the sector cache, and never traps. -/
def Obligations.LoadAndPrefetchResults : Prop :=
  (∀ (s : State) (d a : Reg) (i : BitVec 12), s.MayIssue aAll loadHints .user →
    let ea := effective (s.me.gr a.val) (s.immOf 12 i.toNat)
    ∀ (n : Nat) (sx : Bool) (ld : Instr),
      (n, sx, ld) ∈ [(1, true, Instr.ldb d a i), (1, false, .ldbu d a i), (2, true, .ldh d a i), (2, false, .ldhu d a i),
        (4, true, .ldw d a i), (4, false, .ldwu d a i), (8, false, .ldd d a i)] →
      (∀ t p, s.Reaches ea n true false t p →
        exec ld s = s.retires (t.mine fun k =>
          k.setG d.val (if sx then int64 (sext (8 * n) (t.readLE p n)) else BitVec.ofNat 64 (t.readLE p n)))) ∧
      (s.hintBit 3 = true → (s.mapOk s.cur ea = false ∨ ea % n ≠ 0) →
        exec ld s = s.retires (State.mine { s with ea := BitVec.ofNat 64 ea } fun k => k.setG d.val 0))) ∧
  (∀ (s : State) (a : Reg) (i : BitVec 12), s.MayIssue aAll ⟨true, 0b0010⟩ .user →
    let ea := effective (s.me.gr a.val) (s.immOf 12 i.toNat)
    ((s.mapOk s.cur ea = false ∨ isExt ea = false) → exec (.xpref a i) s = s.retires s) ∧
    (s.mapOk s.cur ea = true → isExt ea = true → ∀ t p, s.resolve s.cur ea true false = (t, .at_ (.here p)) →
      exec (.xpref a i) s =
        s.retires (t.touchSector (t.sectorKey s.cur.station (s.ctxOf s.cur) (ea % 2 ^ 60) p) (s.ctxOf s.cur))))

/-- The stores (R267 to R270, R272): the low n bytes of g[s] go to the n bytes at the access's home and to no other; STN
writes one nibble; with RELAXED the store retires once its map and alignment checks pass: one to the core's own local memory or its
octet's scratchpad is performed at once, any other waits on the thread's list, behind the records already sent; which, is the
model's choice (assumption 8). -/
def Obligations.StoreResults : Prop :=
  ∀ (s : State) (r b : Reg) (i : BitVec 12), s.MayIssue aAll storeHints .user →
    let ea := effective (s.me.gr b.val) (s.immOf 12 i.toNat)
    let w := s.me.gr r.val
    let away := fun ea : Nat => ∀ h, (State.resolve (s.noted ea) s.cur ea false true).2 = .at_ h →
      ownHome s.cur h = false
    let near := fun ea n p : Nat => isExt ea = false ∧ s.nearHome s.cur ea = .at_ (.here p) ∧ ownHome s.cur (.here p) = true ∧
      s.quiet ∧ ∀ g ∈ granules p n, s.mark g = .ok
    (∀ (n : Nat) (st : Instr), (n, st) ∈ [(1, Instr.stb r b i), (2, .sth r b i), (4, .stw r b i), (8, .std r b i)] →
      (s.hintBit 2 = false → s.fenced → ∀ t p, s.Reaches ea n false true t p →
        exec st s = s.retires (t.store p n (w.toNat % 2 ^ (8 * n)))) ∧
      (s.hintBit 2 = true → s.mapOk s.cur ea = true → ea % n = 0 → away ea →
        exec st s = s.retires ((s.noted ea).updTh s.cur s.thr fun h =>
          { h with relaxed := h.relaxed ++ [⟨BitVec.ofNat 64 ea, n, false, w, s.me.sent⟩] })) ∧
      (s.hintBit 2 = true → s.mapOk s.cur ea = true → ea % n = 0 → ∀ p, near ea n p →
        exec st s = s.retires ((s.noted ea).store p n w.toNat))) ∧
    (s.hintBit 2 = false → s.fenced →
      let nib : Int := 2 * ((s.me.gr b.val).toNat : Int) + s.immOf 12 i.toNat
      ∀ t p, s.Reaches ((nib.fdiv 2).emod (2 ^ 64)).toNat 1 false true t p →
        exec (.stn r b i) s = s.retires (t.store p 1 (mergeNibble (decide (nib.emod 2 = 1)) (t.byte p).toNat w.toNat))) ∧
    (s.hintBit 2 = true →
      let nib : Int := 2 * ((s.me.gr b.val).toNat : Int) + s.immOf 12 i.toNat
      let at_ := ((nib.fdiv 2).emod (2 ^ 64)).toNat
      s.mapOk s.cur at_ = true →
        (away at_ → exec (.stn r b i) s = s.retires ((s.noted at_).updTh s.cur s.thr fun h =>
          { h with relaxed := h.relaxed ++
            [⟨BitVec.ofNat 64 at_, 1, true, BitVec.ofNat 64 (w.toNat % 16 + if nib.emod 2 = 1 then 16 else 0), s.me.sent⟩] })) ∧
        (∀ p, near at_ 1 p → exec (.stn r b i) s =
          s.retires ((s.noted at_).store p 1 (mergeNibble (decide (nib.emod 2 = 1)) (s.byte p).toNat w.toNat))))

/-- A load or store that fails a check of R268 traps with that check's cause, map before alignment before home before the granules, the
address in TVAL: a near address without a home and a translation's refusal with their cause, a page fault posted at the station with
PAGE_FAULT (R426), a request that no port takes with ACCESS_RIGHTS and bit 62 of TVAL (R442), a granule that is not correct with
ECC_UNCORRECTABLE, and poisoned, or POISON, and the lowest address of the access in it (R274, R275). Nothing of the access is done. -/
def Obligations.AccessTraps : Prop :=
  ∀ (s : State) (d a : Reg) (i : BitVec 12),
    let ea := effective (s.me.gr a.val) (s.immOf 12 i.toNat)
    let nibble := (((2 * ((s.me.gr a.val).toNat : Int) + s.immOf 12 i.toNat).fdiv 2).emod (2 ^ 64)).toNat
    let fails := fun (ins : Instr) (ea n : Nat) (rd wr : Bool) =>
      let w := BitVec.ofNat 64 ea
      let stops := fun (u : State) (cause : BitVec 8) (tval : Word) => exec ins s = .next (s.trapIssued u cause tval)
      (s.mapOk s.cur ea = false → exec ins s = s.traps Cause.localRange w) ∧
      (s.mapOk s.cur ea = true → ea % n ≠ 0 → exec ins s = s.traps Cause.misaligned w) ∧
      (s.mapOk s.cur ea = true → ea % n = 0 → ∀ t : State,
        (∀ cause, State.access (s.noted ea) s.cur ea rd wr = (t, .fails cause) → stops (s.keep t) cause w) ∧
        (∀ code, State.access (s.noted ea) s.cur ea rd wr = (t, .fault code) →
          stops ((s.keep t).trapFault t.cur (t.ctxOf t.cur) (ea % 2 ^ 60) code wr) Cause.pageFault w) ∧
        (State.access (s.noted ea) s.cur ea rd wr = (t, .lost) → stops (s.keep t) Cause.accessRights (lostEa ea)) ∧
        (∀ p u f, State.access (s.noted ea) s.cur ea rd wr = (t, .at_ (.here p)) → (t.th t.cur .a).relaxed = [] →
          t.landsIn t.cur p n = false → (wr = true → isCxl p = false) →
          (if wr then t.checkWrite p n else t.checkRead p n) = (u, some f) →
            stops (s.keep u) f.1 (BitVec.ofNat 64 (ea + (f.2 - p)))))
    (s.MayIssue aAll loadHints .user → s.hintBit 3 = false → ∀ (n : Nat) (ld : Instr),
      (n, ld) ∈ [(1, Instr.ldb d a i), (1, .ldbu d a i), (2, .ldh d a i), (2, .ldhu d a i), (4, .ldw d a i), (4, .ldwu d a i),
        (8, .ldd d a i)] → fails ld ea n true false) ∧
    (s.MayIssue aAll storeHints .user → s.hintBit 2 = false → s.fenced → ∀ (n : Nat) (e : Nat) (st : Instr),
      (n, e, st) ∈ [(1, ea, Instr.stb d a i), (2, ea, .sth d a i), (4, ea, .stw d a i), (8, ea, .std d a i), (1, nibble, .stn d a i)] →
        fails st e n false true)

/-- The atomics (R276 to R278): g[d] receives the old value, sign-extended from 32 bits, and the n bytes at the home receive
the new one; a compare that fails stores nothing. No relaxed store of the thread is on its way, and without RELAXED no record that it
has sent (R272, R278). -/
def Obligations.AtomicResults : Prop :=
  ∀ (s : State) (d a b : Reg) (wide : Bool), s.MayIssue aAll amoHints .user →
    s.fenced → (s.hintBit 2 = true ∨ s.unsent s.cur = false) →
    let n := if wide then 8 else 4
    let m := 2 ^ (8 * n)
    let y := (s.me.gr b.val).toNat % m
    let x := (s.me.gr d.val).toNat % m
    ∀ t p, s.Reaches (s.me.gr a.val).toNat n true true t p →
      let old := t.readLE p n
      let give := fun t' : State => s.retires (t'.mine fun k =>
        k.setG d.val (if wide then BitVec.ofNat 64 old else int64 (sext 32 old)))
      let less := sext (8 * n) old < sext (8 * n) y
      exec (.amoadd d a b wide) s = give (t.store p n ((old + y) % m)) ∧
      exec (.amoand d a b wide) s = give (t.store p n (old &&& y)) ∧
      exec (.amoor d a b wide) s = give (t.store p n (old ||| y)) ∧
      exec (.amoxor d a b wide) s = give (t.store p n (old ^^^ y)) ∧
      exec (.amomin d a b wide) s = give (t.store p n (if less then old else y)) ∧
      exec (.amomax d a b wide) s = give (t.store p n (if less then y else old)) ∧
      exec (.amominu d a b wide) s = give (t.store p n (min old y)) ∧
      exec (.amomaxu d a b wide) s = give (t.store p n (max old y)) ∧
      exec (.amoswap d a b wide) s = give (t.store p n y) ∧
      exec (.amocas d a b wide) s = give (if old = x then t.store p n y else t)

/-- Sync objects, BIND, FENCE, DISCARD (R279 to R287): an object nobody holds or waits for is granted at once, and the thread's
list of holds gains it; REL ends the hold in its mode; BIND writes one region slot of an object held for writing; FENCE with no
store to wait for, and none of the records sent unless its scope is the thread, retires; DISCARD marks whole granules of the
octet's scratchpad. -/
def Obligations.SyncAndDiscardResults : Prop :=
  ∀ (s : State) (a b k : Reg), s.MayIssue aAll noHint .user → s.fenced → s.myTh.pend = .none →
    let ea := (s.me.gr a.val).toNat
    ((k.val = 0 ∨ s.unsent s.cur = false) → exec (.fence k) s = s.retires s) ∧
    (∀ t p, s.Reaches ea 32 true true t p → t.th s.cur s.thr = s.myTh → t.cur = s.cur → t.thr = s.thr →
      (s.myTh.holds ea = none → s.myTh.held.length < 4 → Tbl.get [] t.syncq p = [] → lockBad (t.word p) = false →
        (lockW (t.word p) = false → lockReaders (t.word p) = 0 →
          ∃ t', exec (.acq a) s = s.retires t' ∧ (t'.th s.cur s.thr).held = s.myTh.held ++ [(s.me.gr a.val, true)] ∧
            t'.mem = ((t.putWord p (lockMake (t.word p) true 0 0)).putWord (p + 8) (holderWord t s.cur s.thr)).mem) ∧
        (lockW (t.word p) = false →
          ∃ t', exec (.acqr a) s = s.retires t' ∧ (t'.th s.cur s.thr).held = s.myTh.held ++ [(s.me.gr a.val, false)] ∧
            t'.mem = (t.putWord p (lockMake (t.word p) false (lockReaders (t.word p) + 1) 0)).mem)) ∧
      (∀ wr, s.myTh.holds ea = some wr → s.unsent s.cur = false → Tbl.get [] t.syncq p = [] → lockBad (t.word p) = false →
        (if wr then lockW (t.word p) = true else 0 < lockReaders (t.word p)) →
        ∃ t', exec (.rel a) s = s.retires t' ∧
          (t'.th s.cur s.thr).held = s.myTh.held.filter (fun e => e.1.toNat != ea) ∧
          t'.mem = (t.putWord p (if wr then lockMake (t.word p) false (lockReaders (t.word p)) 1
            else lockMake (t.word p) false (lockReaders (t.word p) - 1) 0)).mem) ∧
      (s.myTh.holds ea = some true → bits (s.me.gr b.val).toNat 42 22 = 0 → t.regionOk s.cur ea (s.me.gr b.val) = true →
        exec (.bind k a b) s =
          (let f := t.readLE (p + 16) 16
           s.retires (t.writeLE (p + 16) 16
            (f - bits f (42 * k.val) 42 * 2 ^ (42 * k.val) + bits (s.me.gr b.val).toNat 0 42 * 2 ^ (42 * k.val)))))) ∧
    (∀ o, s.cur.octet? = some o →
      let len := (s.me.gr b.val).toNat
      2 ^ 20 ≤ ea → ea < 2 ^ 21 → ea + len ≤ 2 ^ 21 → ea % 4096 = 0 → len % 4096 = 0 →
        let mask : BitVec 256 := BitVec.ofNat 256 ((2 ^ (len / 4096) - 1) * 2 ^ ((ea - 2 ^ 20) / 4096))
        exec (.discard k a b) s = s.retires (State.updOctet { s with ea := BitVec.ofNat 64 ea } o fun q =>
          { q with dmask := if k.val = 0 then q.dmask ||| mask else q.dmask &&& ~~~mask }))

/-- SCFG, SDIM, SIND, SMAN (R147): each stages its part of slot n's descriptor and starts nothing; a reserved mode, a bound
of 2^32 or more or a shift above 7 traps with QUEUE_PROTOCOL, TVAL 7. SEN, SDIS, SFLUSH (R148, R149, R158): SEN commits what
is staged, once a pending descriptor is gone; SDIS leaves the slot as after reset and its aliases dead; SFLUSH of a read slot
makes it generate again everything not popped; an index slot is not named directly (R150). -/
def Obligations.StreamStagingAndControlResults : Prop :=
  (∀ (s : State) (n m k : Fin 4) (a b : Reg), s.MayIssue aStream noHint .user →
    let x := s.me.gr a.val
    let y := s.me.gr b.val
    let misuse := s.traps Cause.queueProtocol 7
    let stage := fun f : Desc → Desc => s.retires (s.mine fun k => k.updSlot n.val fun q => { q with staging := f q.staging })
    exec (.scfg n a b) s = (if modeOk y then stage fun d => { d with base := x, mode := y, manual := false, idx := none } else misuse) ∧
    exec (.sdim k n a b) s = (if x.toNat < 2 ^ 32 then stage fun d => d.setDim k x.toNat y.toInt else misuse) ∧
    exec (.sind n m b) s = (if y.toNat < 8 then stage fun d => { d with idx := some (m, y.toNat) } else misuse) ∧
    exec (.sman n b) s =
      (if modeOk y = true ∧ y.getLsbD 5 = false ∧ bits y.toNat 8 2 = 0 then
        stage fun d => { d with mode := y, manual := true, idx := none } else misuse)) ∧
  (∀ (s : State) (n : Fin 4), s.MayIssue aStream noHint .user → (s.th s.cur .a).relaxed = [] →
    let q := s.me.slot n.val
    (q.serves.isSome = true →
      exec (.sen n) s = s.traps Cause.queueProtocol 8 ∧ exec (.sdis n) s = s.traps Cause.queueProtocol 8 ∧
      exec (.sflush n) s = s.traps Cause.queueProtocol 8) ∧
    (q.serves = none →
      (s.me.stagedCount q.staging < 2 ^ 48 → s.me.indexRefused n q.staging = false → q.kindDiffers = false → q.pending = none →
        exec (.sen n) s = s.retires (s.mine fun k => k.moveSlot n fun p => p.commit
          (match q.staging.idx with | some i => (k.slot i.1.val).staging | none => Desc.init))) ∧
      (q.state = .off → exec (.sdis n) s = s.retires s ∧ exec (.sflush n) s = s.retires s) ∧
      (q.state ≠ .off → (q.cur.own.write = false ∨ (q.late = none ∧ q.mustWait = false)) →
        exec (.sdis n) s = s.retires (s.mine fun k =>
          ((k.moveSlot n fun q => { Slot.init with commits := q.commits, pushed := q.pushed, done := q.pushed }).killF
            (BitVec.ofNat 32 (2 ^ (28 + n.val)))).killV (BitVec.ofNat 32 (2 ^ (28 + n.val)))) ∧
        exec (.sflush n) s = s.retires (s.mine fun k => k.moveSlot n fun p =>
          if q.cur.own.write then (if p.state = .faulted then p.restart else p) else p.flushRead))))

/-- LDQ and STQ (R159): LDQ queues the element at g[a] behind those queued, requested or as its fault mark; STQ writes the
oldest pushed element at g[a], in one sector of own memory whose granules are correct. On another slot they trap with
QUEUE_PROTOCOL, TVAL 9. QPUT and QGET (R92, R167): a put to a queue that is not full appends reg[a]; a get from one that is not
empty removes the oldest entry into reg[d]; otherwise the thread waits with reason QUEUE. QPUT has nothing of its thread on its
way (R292). -/
def Obligations.ManualStreamAndControlQueueResults : Prop :=
  (∀ (s : State) (n : Fin 4) (a : Reg), s.MayIssue aStream ntHint .user → (s.th s.cur .a).relaxed = [] →
    let q := s.me.slot n.val
    let d := q.cur.own
    let addr := (s.me.gr a.val).toNat
    let usable := fun wr : Bool => q.state ≠ .off ∧ q.serves = none ∧ d.manual = true ∧ d.write = wr
    (¬usable false → exec (.ldq n a) s = s.traps Cause.queueProtocol 9) ∧
    (¬usable true → exec (.stq n a) s = s.traps Cause.queueProtocol 9) ∧
    (usable false → q.queue.length < 16 →
      let r := s.request s.cur d (addr : Int)
      exec (.ldq n a) s = s.retires (r.1.mine fun k => k.updSlot n.val fun q =>
        { q with queue := q.queue ++ [⟨q.cur, q.next, r.2⟩], next := q.next + 1 })) ∧
    (usable true → ∀ p rest, q.store = p :: rest → s.cur.kind ≠ .memory → s.nearElement s.cur (addr : Int) d.bytes = true →
      addr % d.align = 0 → addr % 1024 + d.bytes ≤ 1024 → d.maskw = false →
      ∀ h, s.nearHome s.cur addr = .at_ (.here h) → isExt addr = false → (∀ g ∈ granules h d.bytes, s.mark g = .ok) →
        (s.me.gang.compare && s.me.gang.follower) = false →
        ∃ u : State, u = { s with ea := s.me.gr a.val, mem := u.mem, marks := u.marks } ∧
          u.mem = (s.writeLE h d.bytes p.v.toNat).mem ∧ (∀ g, u.mark g = s.mark g) ∧
          exec (.stq n a) s = s.retires (u.mine fun k => k.updSlot n.val fun q => { q with store := rest, done := q.done + 1 }))) ∧
  (∀ (s : State) (r : Reg), s.MayIssue axStream noHint .user → s.quiet → (s.thr = .x → s.proper [r]) →
    (s.thr = .a → s.me.axq.length < 8 → exec (.qput r) s = s.retires (s.mine fun k => { k with axq := k.axq ++ [s.me.gr r.val] })) ∧
    (s.thr = .x → s.me.xaq.length < 8 → exec (.qput r) s = s.retires (s.mine fun k =>
      { k with xaq := k.xaq ++ [s.me.fr r.val], xaqTags := k.xaqTags ++ [k.pushTags] })) ∧
    (s.thr = .x → ∀ w rest, s.me.axq = w :: rest →
      exec (.qget r) s = s.retires ((s.mine fun k => { k with axq := rest }).mine fun k => k.setF r.val w)) ∧
    (s.thr = .a → ∀ w rest, s.me.xaq = w :: rest →
      exec (.qget r) s = s.retires ((s.mine fun k => ({ k with xaq := rest, xaqTags := k.xaqTags.drop 1 }).coverTags
        (s.me.xaqTags.headD [])).mine fun k => k.setG r.val w)) ∧
    ((if s.thr = .a then s.me.xaq else s.me.axq) = [] → exec (.qget r) s =
      s.waits (s.updTh s.cur s.thr fun h => { h with pend := .take }) .queue) ∧
    ((if s.thr = .a then s.me.axq else s.me.xaq).length = 8 → exec (.qput r) s =
      s.waits (s.updTh s.cur s.thr fun h => { h with pend := .put }) .queue))

/-- RPT (R164, R165): with its body below XB, uncorrupted, of allowed words and no HINT, a count of 0 passes over the body
and any other count captures it and sets RPTSTAT; its next word is then the first body word. -/
def Obligations.RepetitionResults : Prop :=
  ∀ (s : State) (a : Reg) (m : BitVec 4) (p : Fin 4) (l : Fin 16), s.MayIssue xAll noHint .user → s.proper [a] →
    let pc := (s.th s.cur .x).pc
    let n := l.val + 1
    let body : List (BitVec 32) := (List.range n).map fun j =>
      BitVec.ofNat 32 (s.readLE (localBase s.cur + (pc + 4 + 4 * j)) 4)
    let count : BitVec 24 := (s.me.fr a.val).setWidth 24
    pc + 4 * n < s.xbOf s.cur →
    (∀ g ∈ granules (localBase s.cur + pc + 4) (4 * n), s.mark g = .ok) →
    (∀ w ∈ body, fld w.toNat 26 6 ≠ 1 ∧ bodyAllowed s.cur.kind w = true) →
      exec (.rpt a m p l) s =
        if count = 0 then s.retires s (.to (pc + 4 + 4 * n))
        else s.retires (s.mine fun k =>
          { k with rpt := ⟨true, 0, BitVec.ofNat 4 l.val, BitVec.ofNat 2 p.val, m, 0, count⟩, rptBody := body }) (.to (pc + 4))

/-- A register operand that is a stream alias (R91, R151, R152): reading f(28+n) or v(28+n) pops the head entry of read slot
n, and writing one pushes an element to write slot n; FMOV.F64 between an alias and a register shows both. Operands a and b pop in that
order, of one slot its two oldest entries, of two slots the head of each, and a v alias pops and pushes one vector, a pushed one with
zeros in the lanes that the predicate leaves: ISUB, VSEL and VOR show these. An alias used against its slot's direction or width traps
(R153). -/
def Obligations.StreamAliasOperands : Prop :=
  (∀ (s : State) (n : Fin 4) (r : Reg), s.MayIssue xAll satX .user → s.me.alias? r.val = none →
    let al : Reg := Fin.ofNat 32 (28 + n.val)
    let q := s.me.slot n.val
    q.state = .active → q.serves = none → q.cur.own.esize = 3 →
      (q.cur.own.write = false → ∀ d k v rest, q.queue = ⟨d, k, .value v⟩ :: rest → d.own.esize = 3 →
        (∃ t, exec (.fmov r al 0 8) s = s.retires t ∧ t.me.fr r.val = v.setWidth 64 ∧ (t.me.slot n.val).queue = rest ∧ t.mem = s.mem) ∧
        (s.hintBit 0 = false →
          (∀ d' k' v' more, rest = ⟨d', k', .value v'⟩ :: more → d'.own.esize = 3 →
            ∃ t, exec (.isub r al al 0) s = s.retires t ∧ t.me.fr r.val = v.setWidth 64 - v'.setWidth 64 ∧
              (t.me.slot n.val).queue = more ∧ t.mem = s.mem) ∧
          (∀ (m : Fin 4) d' k' v' more, m ≠ n → (s.me.slot m.val).state = .active → (s.me.slot m.val).serves = none →
            (s.me.slot m.val).cur.own.esize = 3 → (s.me.slot m.val).cur.own.write = false →
            (s.me.slot m.val).queue = ⟨d', k', .value v'⟩ :: more → d'.own.esize = 3 →
            ∃ t, exec (.isub r al (Fin.ofNat 32 (28 + m.val)) 0) s = s.retires t ∧
              t.me.fr r.val = v.setWidth 64 - v'.setWidth 64 ∧ (t.me.slot n.val).queue = rest ∧ (t.me.slot m.val).queue = more ∧
              t.mem = s.mem))) ∧
      (q.cur.own.write = true → q.late = none → q.queue = [] → q.store.length < 16 →
        ∃ t, exec (.fmov al r 0 8) s = s.retires t ∧
          (t.me.slot n.val).store = q.store ++ [⟨(s.me.fr r.val).setWidth 1024, BitVec.allOnes 128⟩] ∧ t.mem = s.mem) ∧
      (q.cur.own.write = true → exec (.fmov r al 0 8) s = s.traps Cause.queueProtocol 5) ∧
      (q.cur.own.write = false → exec (.fmov al r 0 8) s = s.traps Cause.queueProtocol 4)) ∧
  (∀ (s : State) (n : Fin 4) (r b : Reg) (p : Fin 8) (y : Fin 16), s.MayIssue xAll noHint .user → s.proper [r, b] →
    let al : Reg := Fin.ofNat 32 (28 + n.val)
    let q := s.me.slot n.val
    let w := fmtWidth y.val
    let on := laneOn w (s.me.pr p.val)
    let vec := fun x : Reg => lane w (s.me.vr x.val).toNat
    q.state = .active → q.serves = none →
      (q.cur.own.esize = 4 → q.cur.own.write = false →
        ∀ d k v d' k' v' rest, q.queue = ⟨d, k, .value v⟩ :: ⟨d', k', .value v'⟩ :: rest →
          ∃ t, exec (.vsel r al al p y) s = s.retires t ∧ (t.me.slot n.val).queue = rest ∧ t.mem = s.mem ∧
            t.me.vr r.val = BitVec.ofNat 1024 (packLanes w ((List.range (laneCount w 1024)).map fun i =>
              if on i then lane w v.toNat i else lane w v'.toNat i))) ∧
      (q.cur.own.esize = 4 → q.cur.own.write = true → q.late = none → q.queue = [] → q.store.length < 16 →
        ∃ t, exec (.vor al r b p y) s = s.retires t ∧ t.mem = s.mem ∧
          (t.me.slot n.val).store = q.store ++ [⟨BitVec.ofNat 1024 (mapLanes w (laneCount w 1024) on 0 fun i =>
            ((vec r i ||| vec b i) % 2 ^ w, fNone)).1, activeBytes w (s.me.pr p.val)⟩]) ∧
      (q.cur.own.esize ≠ 4 → q.cur.own.write = false → exec (.vsel r al al p y) s = s.traps Cause.queueProtocol 6))

/-- SEND and SENDM (R330, R332, R335): with the endpoint open for the record's kind, credit for it and room in staging, the
record is placed and copied into staging: a SENDM of one or two words, a SEND of LEN bytes of own memory, or, where the
landing region is the target, a control word and the writes it names. A transposing put whose source overlaps its target in
place but for the whole traps with OVERLAP (R335). -/
def Obligations.SendResults : Prop :=
  ∀ (s : State) (c a b : Reg), s.MayIssue aAll sendHints .user → (s.th s.cur .a).relaxed = [] →
    let n : Fin 16 := Fin.ofNat 16 c.val
    let e := s.me.outEp n
    let ready := fun w more : Nat => e.st ≠ .closed ∧ e.st ≠ .connecting ∧ e.place w ≠ none ∧ e.staged + w + more ≤ 66
    (e.decl.mode = 1 →
      (b.val = 0 → ready 2 0 → exec (.sendm c a b) s =
        s.retires (s.updOut s.cur n fun q => q.stage ⟨[headerWord 8 false e.seq, s.me.gr a.val], e.seq, false, false, [], 0⟩)) ∧
      (b.val ≠ 0 → ready 3 0 → exec (.sendm c a b) s =
        s.retires (s.updOut s.cur n fun q =>
          q.stage ⟨[headerWord 16 false e.seq, s.me.gr a.val, s.me.gr b.val], e.seq, false, false, [], 0⟩))) ∧
    (let w := s.me.gr b.val
     let ea := s.me.gr a.val
     let size := (scLen w + 7) / 8
     ∀ flat, sendWordOk e w = true → s.ownRange s.cur ea.toNat (scLen w) = .ok flat → ea.toNat % 8 = 0 →
      (∀ g ∈ granules flat (scLen w), s.mark g = .ok) → s.landsIn s.cur flat (scLen w) = false →
      let noted := { s with ea := ea }
      (e.decl.mode = 0 → ready (1 + size) 0 → exec (.send c a b) s =
        s.retires (noted.updOut s.cur n fun q =>
          q.stage ⟨headerWord (scLen w) false e.seq :: wordsOf size (s.readBytes flat (scLen w)), e.seq, false, false, [], 0⟩)) ∧
      (e.decl.mode = 2 → scOff w + scLen w ≤ 64 * e.lsize → scTr w = false → ready 2 size → exec (.send c a b) s =
        s.retires (noted.updOut s.cur n fun q => q.stage ⟨[headerWord 8 false e.seq, w], e.seq, false, false,
          [(scOff w, scLen w, leBytes (s.readBytes flat (scLen w)))], size⟩)) ∧
      (e.decl.mode = 2 → scOff w + scLen w ≤ 64 * e.lsize → scTr w = true → ready 2 size →
        let put := fun inPlace : Bool => s.retires (noted.updOut s.cur n fun q => q.stage ⟨[headerWord 8 false e.seq, w], e.seq,
          false, false, putWrites w inPlace (s.readBytes flat (scLen w)), size⟩)
        ∀ t, noted.placeOf s.cur e.decl.peer = some t →
          let dst := noted.ownFlat t (e.land + scOff w)
          exec (.send c a b) s =
            if meets flat (scLen w) dst (scLen w) = false then put false
            else if flat = dst ∧ scNr w * scNr w * scEs w = scLen w then put true
            else s.traps Cause.overlap ea))

/-- RECV and RECVM (R336, R337): from an input whose next record is a payload, the first (RECVM: the first MAX, up to a marker)
is stored at g[a], freed, and its length or their number, its SEQ and where it lay go to g[d]; with none there and NOWAIT, g[d]
is 0. No store or record of the thread is on its way, for such a one is performed first (R287, R289). -/
def Obligations.ReceiveResults : Prop :=
  ∀ (s : State) (d a b : Reg), s.MayIssue aAll noHint .user → s.intact → s.quiet →
    let w := (s.me.gr b.val).toNat
    let dst := (s.me.gr a.val).toNat
    let most := bits w 8 10
    let n : Fin 16 := Fin.ofNat 16 (bits w 0 4)
    let e := s.me.inEp n
    let noted := { s with ea := BitVec.ofNat 64 dst }
    ∀ (msg : Bool) (i : Instr), (msg, i) ∈ [(false, Instr.recv d a b), (true, Instr.recvm d a b)] →
      bits w 5 3 = 0 → bits w 18 46 = 0 → 0 < most → most ≤ (if msg then 64 else 512) →
      ∀ flat, s.ownRange s.cur dst (if msg then 16 * most else most) = .ok flat → dst % 8 = 0 →
      e.st ≠ .closed → (e.decl.mode = 1 ↔ msg = true) → e.passed s.me.round = 0 →
      (e.recs = [] → w.testBit 4 = true → exec i s = s.retires (noted.mine fun k => k.setG d.val 0)) ∧
      (∀ sp h rest, e.recs = (sp, h) :: rest → h.mark = false → (msg = false → h.len ≤ most) →
        let taken := (e.recs.takeWhile fun r => !r.2.mark).take (if msg then most else 1)
        let at_ := e.wordAddrs taken.length
        let ps := payloads (taken.map fun r => r.2) ((at_.1 ++ at_.2).map fun x => s.word (s.ownFlat s.cur x))
        let bytes := if msg then ps.flatMap fun p => bytesOf 8 (p.getD 0 0).toNat ++ bytesOf 8 (p.getD 1 0).toNat
          else (ps.flatten.flatMap fun x => bytesOf 8 x.toNat).take h.len
        let marker := match e.recs.drop taken.length with
          | (_, r) :: _ => r.mark && decide (s.me.round ≤ r.seq)
          | [] => false
        exec i s = s.retires ((((noted.clearMarks flat bytes.length).writeBytes flat bytes).freeHeads s.cur n taken.length).mine
          fun k => k.setG d.val (BitVec.ofNat 64 ((if msg then taken.length else bytes.length) + h.seq.toNat * 2 ^ 16 +
            (if taken.any (fun r => r.1) then 2 ^ 62 else 0) + if marker then 2 ^ 63 else 0))))

/-- MARK and RADV (R339, R340): MARK places a marker of the core's round on every output that is not CLOSED, all or none;
RADV of a marked core whose inputs all hold the round's marker frees the markers at their heads, gives the new round and the
mask of the late inputs, and begins the round. CHSTAT (R322, R345, R346): STATE, SEQ, ROUND and KWORD read, KWORD clears,
DECL makes a CLOSED endpoint CONNECTING, CLOSE ends one; a select of 32 or more traps with QUEUE_PROTOCOL, TVAL 12. -/
def Obligations.RoundAndChannelStatusResults : Prop :=
  (∀ (s : State) (d : Reg), s.MayIssue aAll noHint .user → (s.th s.cur .a).relaxed = [] →
    let outs := allCh.filter fun n => (s.me.outEp n).st != .closed
    let ins := allCh.filter fun n => (s.me.inEp n).st != .closed
    let edge := fun r : Bool × InRec => r.2.mark && r.2.seq = s.me.round
    let heads := ins.filter fun n => ((s.me.inEp n).recs.head?).any edge
    (s.me.marked = true → exec .mark s = s.traps Cause.queueProtocol 15) ∧
    (s.me.marked = false →
      (∀ n ∈ outs, (s.me.outEp n).st ≠ .connecting ∧ (s.me.outEp n).place 1 ≠ none ∧ (s.me.outEp n).staged + 1 ≤ 66) →
      exec .mark s = s.retires ((outs.foldl (fun (t : State) n => t.updOut s.cur n fun e =>
        e.stage ⟨[headerWord 0 true s.me.round], s.me.round, true, false, [], 0⟩) s).mine fun k => { k with marked := true })) ∧
    (s.me.marked = true → (∀ n ∈ ins, (s.me.inEp n).recs.any edge = true) →
      ∃ t, exec (.radv d) s = s.retires (t.mine fun k => k.setG d.val (BitVec.ofNat 64
          (((ins.filter fun n => !heads.contains n).map fun n => 2 ^ n.val).sum + (s.me.round + 1).toNat * 2 ^ 32))) ∧
        t = (heads.foldl (fun (t : State) n => t.freeHead s.cur n) s).mine fun k =>
          { k with round := s.me.round + 1, marked := false,
                   edgeStop := ((heads.foldl (fun (t : State) n => t.freeHead s.cur n) s).vacating s.cur).isSome })) ∧
  (∀ (s : State) (d a : Reg), s.MayIssue aAll noHint .user →
    let w := s.me.gr a.val
    let n : Fin 16 := Fin.ofNat 16 w.toNat
    let i := s.me.inEp n
    let o := s.me.outEp n
    let three := fun x y z : Nat => x % 2 ^ 16 * 2 ^ 16 + y % 2 ^ 16 * 2 ^ 32 + z % 2 ^ 16 * 2 ^ 48
    exec (.chstatRound d) s = s.retiresG d (BitVec.ofNat 64 (s.me.round.toNat + if s.me.marked then 2 ^ 32 else 0)) ∧
    exec (.chstatKword d) s = s.retires ((s.mine fun k => { k with kick := 0 }).mine fun k => k.setG d.val s.me.kick) ∧
    (32 ≤ w.toNat → exec (.chstatState d a) s = s.traps Cause.queueProtocol 12 ∧
      exec (.chstatSeq d a) s = s.traps Cause.queueProtocol 12 ∧ exec (.chstatClose d a) s = s.traps Cause.queueProtocol 12) ∧
    (w.toNat < 32 →
      exec (.chstatState d a) s = s.retiresG d (BitVec.ofNat 64 (
        if w.getLsbD 4 then o.st.code + 4 + o.decl.mode * 8 + three o.mfree o.sfree o.staged
        else i.st.code + i.decl.mode * 8 + three (i.ring.map InRec.w).sum (i.spill.map InRec.w).sum
          (i.recs.filter fun r => r.2.mark).length)) ∧
      exec (.chstatSeq d a) s = s.retiresG d ((if w.getLsbD 4 then o.seq else i.eseq).setWidth 64) ∧
      (w.getLsbD 4 = true → o.staging = [] →
        exec (.chstatClose d a) s = s.retires ((s.closeOut s.cur n).mine fun k => k.setG d.val 0)) ∧
      (w.getLsbD 4 = false → exec (.chstatClose d a) s = s.retires ((s.closeIn s.cur n).mine fun k => k.setG d.val 0))) ∧
    (let at_ := localBase s.cur + w.toNat
     let t := { s with ea := w }
     let dec : Decl := ⟨s.word at_, s.word (at_ + 8), s.word (at_ + 16), s.word (at_ + 24)⟩
     s.xbOf s.cur ≤ w.toNat → w.toNat + 32 ≤ 2 ^ 16 → w.toNat % 32 = 0 → s.quiet → s.intact →
     t.declOk s.cur dec = true →
     (if dec.out then (s.me.outEp dec.ch).st else (s.me.inEp dec.ch).st) = .closed → ∀ p, t.targetOf s.cur dec.peer = .core p →
      exec (.chstatDecl d a) s = s.retires (((
        if dec.out then t.updOut s.cur dec.ch fun _ => { OutEp.init with st := .connecting, decl := dec }
        else t.updIn s.cur dec.ch fun _ => { InEp.init with st := .connecting, decl := dec }).connect s.cur dec.out dec.ch).mine
          fun k => k.setG d.val 0)))

/-- KICK (R347): RING sends a kick to the core its target word names; MBOX stores 8 bytes, as after a fence; DONE and DONEREC do
the same on an engine core, post the record, and end its threads. No store or record of the thread is on its way, for such a one
is performed first (R287, R289). That the kick carries its sender's cluster, none from a memory core or the management core, is the
model's choice (assumption 17). -/
def Obligations.KickResults : Prop :=
  ∀ (s : State) (a b : Reg), s.MayIssue aAll noHint .user → s.fenced → s.unsent s.cur = false →
    let w := s.me.gr a.val
    let v := s.me.gr b.val
    (targetBad w = true → exec (.kickRing a b) s = s.traps Cause.queueProtocol 12) ∧
    (targetBad w = false → s.targetOf s.cur w = .fails → exec (.kickRing a b) s = s.traps Cause.accessRights w) ∧
    (targetBad w = false → s.targetOf s.cur w ≠ .fails → exec (.kickRing a b) s =
      s.retires (s.sendMsg ⟨s.me.ctxid.toNat, s.cur.kind, w, 0, 0, .kick v s.cur.cluster?⟩)) ∧
    (∀ t p, s.Reaches w.toNat 8 false true t p →
      exec (.kickMbox a b) s = s.retires (t.store p 8 v.toNat) ∧
      (s.cur.kind = .transfer ∨ s.cur.kind = .memory →
        exec (.kickDone a b) s = s.retires ((t.store p 8 v.toNat).endCore s.cur) .done ∧
        exec (.kickDonerec a b) s = s.retires (((t.store p 8 v.toNat).postDone s.cur v).endCore s.cur) .done)) ∧
    (s.cur.kind ≠ .transfer → s.cur.kind ≠ .memory →
      exec (.kickDone a b) s = s.traps Cause.queueProtocol 13 ∧ exec (.kickDonerec a b) s = s.traps Cause.queueProtocol 13)

/-- The barrier instructions (R350 to R356) on a register that its thread owns: BCFG configures or frees it, BARR arrives
once the release side is done, BWAIT and BSYNC take a DONE, BSYNC of a register that has not arrived arrives and waits, BTEST
reports and takes one. That BCFG with EN = 0 frees it whatever its shape field, that the other thread's use of a BROKEN register has
reason 5, and that a BSYNC that meets ARRIVED takes that release are the model's reading (assumption 19). -/
def Obligations.BarrierResults : Prop :=
  ∀ (s : State) (d a : Reg) (n : Fin 4), s.MayIssue axCompute noHint .user → (s.thr = .x → s.proper [d, a]) →
    let b := s.me.bar n
    let w := s.reg a
    let put := fun f : Bar → Bar => s.updBar s.cur n f
    let shapeTrap := fun reason : Nat => s.traps Cause.barrierShape (BitVec.ofNat 64 (reason + 8 * n.val + b.shape.toNat * 2 ^ 16))
    (b.st ≠ .arrived → b.st ≠ .done →
      (w.getLsbD 16 = false → bits w.toNat 17 47 = 0 →
        exec (.bcfg a n) s = s.retires (put fun b => { b with st := .unconf, sw := false })) ∧
      (s.shapeOk s.cur w = true → exec (.bcfg a n) s = s.retires (put fun b =>
        { b with st := .idle, shape := w.setWidth 16, gen := 0, owner := s.thr, sw := false, forwarded := false, fired := false }))) ∧
    (b.st = .unconf → ∀ i ∈ [Instr.barr n, .bwait n, .bsync n, .btest d n], exec i s = shapeTrap 4) ∧
    (b.st ≠ .unconf → b.owner ≠ s.thr → ∀ i ∈ [Instr.barr n, .bwait n, .bsync n, .btest d n], exec i s = shapeTrap 5) ∧
    (b.owner = s.thr → b.st = .broken → ∀ i ∈ [Instr.barr n, .bwait n, .bsync n, .btest d n], exec i s = shapeTrap 3) ∧
    (b.owner = s.thr → b.st ≠ .unconf → b.st ≠ .broken →
      (b.st ≠ .arrived → (s.thr = .a → s.quiet) →
        (s.thr = .x → s.mxIdle s.cur = true ∧ ∀ m : Fin 4, (s.me.slot m.val).state = .off ∨ (s.me.slot m.val).cur.own.write = false ∨
          ((s.me.slot m.val).late = none ∧ (s.me.slot m.val).pushed ≤ (s.me.slot m.val).done)) →
        exec (.barr n) s = s.retires (put fun b => { b with st := .arrived, sw := false, forwarded := false }) ∧
        ((b.st = .idle ∨ (b.sw = false ∧ s.myTh.pend ≠ .asked)) → exec (.bsync n) s =
          s.waits (put fun b => { b with st := .arrived, sw := true, forwarded := false }) .barrier)) ∧
      (b.st = .idle → exec (.bwait n) s = shapeTrap 2) ∧
      (b.st = .arrived → exec (.bwait n) s = s.waits s .barrier ∧ exec (.barr n) s = shapeTrap 2 ∧
        exec (.bsync n) s = s.waits (s.updTh s.cur s.thr fun h => { h with pend := .asked }) .barrier) ∧
      (b.st = .done → exec (.bwait n) s = s.retires (put fun b => { b with st := .idle, sw := false }) ∧
        (b.sw = true ∨ s.myTh.pend = .asked → exec (.bsync n) s = s.retires (put fun b => { b with st := .idle, sw := false })) ∧
        exec (.btest d n) s = s.retires ((put fun b => { b with st := .idle }).putReg d
          (BitVec.ofNat 64 (1 + b.gen.toNat * 2 ^ 16)))) ∧
      (b.st ≠ .done → exec (.btest d n) s = s.retires (s.putReg d (BitVec.ofNat 64 (b.gen.toNat * 2 ^ 16)))))

/-- RQPUSH, NEXT, NEXTW (R383 to R385): a range of work enters the die's task queue, CLOSE closes it; NEXT sends a request whose
answer word it names, NEXTW one that it waits for and whose index it then receives. APPEND, TAKE, TAKE with op 1, TDARM (R391 to
R396) on a record that may be used: an item goes in at TAIL unless the ring is full, the oldest comes out at HEAD and ACTIVE
rises with the core's hold, after the hold that the core had has ended; a terminated list gives all ones and no hold, and on one that
is empty and goes on the TAKE waits in the home's order, unless it has just become one that the detector ends; TAKE with op 1 ends the
hold, and the detector is armed with its tag. RQPUSH to a CLOSED state traps with reason 2; it has nothing of its thread on its way
(R383). -/
def Obligations.RangeTaskAndWorkListResults : Prop :=
  (∀ (s : State) (d a b : Reg) (c : Bool), s.MayIssue aCompute noHint .user →
    let g := s.me.group
    let die := s.cur.die
    let lo := s.me.gr a.val
    let hi := s.me.gr b.val
    let send := fun ans : Option Nat => s.updDie die fun u =>
      { u with arriving := u.arriving ++ [⟨s.cycle, g, s.me.orow, s.me.ocol, (CoreIdx s.cur).val, ans⟩] }
    ((hi.toNat < lo.toNat ∨ 0xFFFFFFFF < hi.toNat) →
      exec (.rqpush c a b) s = s.traps Cause.workProtocol (BitVec.ofNat 64 (1 + hi.toNat % 2 ^ 32 * 2 ^ 32))) ∧
    (lo.toNat ≤ hi.toNat → hi.toNat ≤ 0xFFFFFFFF → (∀ r, (s.die die).stateOf g.ctx g.kid = some r → r.closed = true →
      exec (.rqpush c a b) s = s.traps Cause.workProtocol (BitVec.ofNat 64 (2 + lo.toNat % 2 ^ 32 * 2 ^ 32)))) ∧
    (lo.toNat ≤ hi.toNat → hi.toNat ≤ 0xFFFFFFFF → (∀ r, (s.die die).stateOf g.ctx g.kid = some r → r.closed = false) →
      s.quiet → (lo = hi ∨ ((s.die die).tasks.length < 64 ∧ (s.die die).heldReturns = [])) →
      exec (.rqpush c a b) s = s.retires (s.updDie die fun u =>
        let v := u.upd g.ctx g.kid fun r => { r with closed := r.closed || c }
        if lo = hi then v else { v with tasks := v.tasks ++ [⟨g.ctx, g.kid, lo.toNat, hi.toNat⟩] })) ∧
    (2 ^ 20 ≤ lo.toNat → lo.toNat < 2 ^ 21 → lo.toNat % 8 = 0 → s.nextsOf s.cur < 8 →
      exec (.next a) s = s.retires { send (some (lo.toNat - 2 ^ 20)) with ea := lo }) ∧
    (∀ i, s.myTh.pend = .index i → exec (.nextw d) s = s.retiresG d (i.setWidth 64)) ∧
    (s.myTh.pend = .none →
      exec (.nextw d) s = s.waits ((send none).updTh s.cur s.thr fun h => { h with pend := .asked }) .work)) ∧
  (∀ (s : State) (d a b : Reg), s.fenced → s.myTh.pend = .none →
    let ea := (s.me.gr a.val).toNat
    let item := s.me.gr b.val
    let noted := { s with ea := BitVec.ofNat 64 ea }
    ∀ p, s.ListAt ea p →
      (s.MayIssue aCompute noHint .user →
        ((s.lTerm p = true ∨ item = BitVec.allOnes 64) → exec (.append d a b) s =
          s.traps Cause.workProtocol (BitVec.ofNat 64 (4 + item.toNat % 2 ^ 32 * 2 ^ 32))) ∧
        (s.lTerm p = false → item ≠ BitVec.allOnes 64 →
          exec (.append d a b) s =
            if (s.lTail p - s.lHead p).toNat = s.lCap p then s.retires (noted.mine fun k => k.setG d.val 1)
            else s.retires ((((noted.store (s.lItem p (s.lTail p)) 8 item.toNat).writeLE (p + 12) 4
              (s.lTail p + 1).toNat).listChanged p).mine fun k => k.setG d.val 0)) ∧
        (s.me.hold = none → exec (.takeEndHold d a) s = s.retires (noted.mine fun k => k.setG d.val 0)) ∧
        (∀ held q, s.me.hold = some held → noted.resolve s.cur held true true = (noted, .at_ (.here q)) →
          exec (.takeEndHold d a) s = s.retires (((State.writeLE (noted.mine fun k => { k with hold := none }) (q + 16) 2
            (s.lActive q - 1).toNat).listChanged q).mine fun k => k.setG d.val 0)) ∧
        (∀ u : State, (s.me.hold = none ∧ u = noted) ∨
            (∃ held q, s.me.hold = some held ∧ noted.resolve s.cur held true true = (noted, .at_ (.here q)) ∧
              u = (State.writeLE (noted.mine fun k => { k with hold := none }) (q + 16) 2 (s.lActive q - 1).toNat).listChanged q) →
          Tbl.get [] u.takeq p = [] → u.cur = s.cur →
          let asks := { u.updTh s.cur .a fun h => { h with pend := .asked } with
                        takeq := Tbl.upd [] u.takeq p fun l => l ++ [(s.cur, ea)] }
          let given := fun (t : State) (w : Word) (hold : Option Nat) (m : State) =>
            exec (.take d a) s = s.retires (t.mine fun k => k.setG d.val w) ∧
            t = { u with mem := m.mem, cores := t.cores, takeq := t.takeq } ∧ (∀ q, Tbl.get [] t.takeq q = Tbl.get [] u.takeq q) ∧
            (∀ c, c.index ≠ s.cur.index → t.core c = u.core c) ∧
            t.core s.cur = { u.core s.cur with hold := hold, a := { (u.core s.cur).a with pend := .item w } }
          (u.lHead p ≠ u.lTail p → u.lActive p ≠ 0xFFFF → (∀ g ∈ granules (u.lItem p (u.lHead p)) 8, u.mark g = .ok) →
            ∃ t, given t (u.word (u.lItem p (u.lHead p))) (some ea)
              ((u.writeLE (p + 8) 4 (u.lHead p + 1).toNat).writeLE (p + 16) 2 (u.lActive p + 1).toNat)) ∧
          (u.lHead p = u.lTail p → u.lTerm p = true → ∃ t, given t (BitVec.allOnes 64) none u) ∧
          (u.lHead p = u.lTail p → u.lTerm p = false → (u.lArmed p = false ∨ u.lActive p ≠ 0) →
            exec (.take d a) s = s.waits asks .work) ∧
          (u.lHead p = u.lTail p → u.lTerm p = false → u.lArmed p = true → u.lActive p = 0 →
            ∃ t : State, exec (.take d a) s = s.retires (t.mine fun k => k.setG d.val (BitVec.allOnes 64)) ∧ (t.core s.cur).hold = none))) ∧
      (s.MayIssue ⟨true, false, [.compute, .control]⟩ noHint .user → s.lTerm p = false → s.lArmed p = false → item.toNat < 2 ^ 36 →
        exec (.tdarm a b) s = s.retires (((noted.putWord (p + 24) item).setFlags p (2 ^ 16)).listChanged p)))

/-- EVPOP and EVPUSH (R399, R400): a pop moves the oldest record of the cluster's event queue to own memory, or says that there
is none; a push stores a well-formed record in a cluster's queue if it has room now, or says that it has none. No store or
record of the thread is on its way, for such a one is performed first (R287, R289). -/
def Obligations.EventQueueResults : Prop :=
  ∀ (s : State) (d a b : Reg), s.intact → s.quiet →
    let ea := (s.me.gr a.val).toNat
    let noted := { s with ea := BitVec.ofNat 64 ea }
    let at_ := localBase s.cur + ea
    s.xbOf s.cur ≤ ea → ea + 32 ≤ 2 ^ 16 → ea % 32 = 0 →
      (s.MayIssue aControl noHint .user → ∀ cl, s.cur = .control cl →
        let q := s.cluster cl
        let from_ := localBase s.cur + (q.evBase.toNat * 64 + 32 * q.evHead)
        exec (.evpop d a) s =
          if q.evCount = 0 then s.retires (noted.mine fun k => k.setG d.val 0)
          else s.retires (((noted.storeWords at_ (s.words from_ 4)).updCluster cl fun q =>
            { q with evHead := (q.evHead + 1) % 2 ^ q.evSzl.toNat, evCount := q.evCount - 1 }).mine fun k => k.setG d.val 1)) ∧
      (s.MayIssue aSuper noHint .user →
        let w0 := (s.word at_).toNat
        let kind := bits w0 56 8
        let cl : Fin 16 := Fin.ofNat 16 (s.me.gr b.val).toNat
        let mgmt := s.cur = .management
        let r : CRec := ⟨kind, bits w0 0 36, bits w0 36 12, bits w0 48 8, s.word (at_ + 16), s.timeWord,
          if mgmt then some s.mgmtSeq else none, none⟩
        (s.me.gr b.val).toNat < 16 → kind ≠ 0 → (kind ≤ 10 ∨ 128 ≤ kind) → s.word (at_ + 8) = 0 → s.word (at_ + 24) = 0 →
        exec (.evpush d a b) s =
          if (s.cluster cl).held = [] ∧ noted.canStore cl r = true then
            s.retires (State.mine { (noted.storeRecord cl r) with
              mgmtSeq := if mgmt then s.mgmtSeq + 1 else s.mgmtSeq } fun k => k.setG d.val 0)
          else s.retires (noted.mine fun k => k.setG d.val 1))

/-- LAUNCH (R369, R372): a block that passes its checks becomes a kernel, its id and code in g[d]; an address that is none,
or a block refused, posts a record with the code and gives it; a context with too many kernels makes it wait. LWAIT, CNTRD,
CANCEL (R375, R376): an object that has ended answers with how, one that does not exist with FEH, one that goes on is waited
for, the instance it met, counted, or cancelled; a core that waits for its own kernel, graph or job traps with WORK_PROTOCOL. A LAUNCH and a CANCEL of one that
goes on have nothing of their thread on its way (R292, R372). That a waiting LWAIT answers for the instance it met, and how CANCEL of
an open graph with no kernel left answers, are the model's reading (assumption 21). -/
def Obligations.LaunchAndObjectResults : Prop :=
  (∀ (s : State) (d a b : Reg),
    s.MayIssueIf (fun s => s.thr = .a && (s.cur.kind = .control || (s.cur.kind = .compute && b.val = 0))) noHint .user →
    s.quiet →
    let w := s.me.gr a.val
    let sup := s.cur.kind = .control
    let ctx := if sup then bits (s.me.gr b.val).toNat 0 12 else s.me.ctxid.toNat
    let cl := s.cur.servedBy
    let give := fun (t : State) (kid code : Nat) => s.retires (t.mine fun k => k.setG d.val (launchWord kid code))
    ((2 ^ 60 ≤ w.toNat ∨ w.toNat % 64 ≠ 0 ∨ (sup ∧ ctx = 0)) → exec (.launch d a b) s = give (s.post cl 2 0 ctx 4 w none) 0 4) ∧
    (w.toNat < 2 ^ 60 → w.toNat % 64 = 0 → ¬(sup ∧ ctx = 0) →
      (∀ t code, s.launchCheck cl ctx w.toNat = (t, .refused code) →
        exec (.launch d a b) s = give (t.post cl 2 0 ctx code w none) 0 code) ∧
      (∀ t, s.launchCheck cl ctx w.toNat = (t, .full) → exec (.launch d a b) s = s.waits t .launch) ∧
      (∀ t blk, s.launchCheck cl ctx w.toNat = (t, .good blk) →
        exec (.launch d a b) s = give (t.register ctx blk cl none).1 (t.register ctx blk cl none).2.1 (t.register ctx blk cl none).2.2))) ∧
  (∀ (s : State) (d a : Reg), s.MayIssue aLaunch noHint .user →
    let w := s.me.gr a.val
    let sup := decide (s.cur.kind = .control)
    let ctx := if sup then owCtx w else s.me.ctxid.toNat
    let give := fun v : Word => s.retiresG d v
    let kid := s.me.kernelid.toNat
    let foreign := s.cur.kind = .control ∨ owNowait w = true ∨ (owLevel w = 0 ∧ owId w ≠ bits kid 0 36) ∨
      (owLevel w = 1 ∧ (owId w = 0 ∨ owId w ≠ bits kid 36 24))
    objectOk sup w →
      (foreign → ∀ n, s.myTh.pend = .object n → exec (.lwait d a) s = match s.waited ctx (owLevel w) (owId w) n with
        | .unknown => give 0xFE
        | .ended st => give (BitVec.ofNat 64 st)
        | .going => if owNowait w then give 0xFF else s.waits s .launch) ∧
      ((∀ n, s.myTh.pend ≠ .object n) →
      (¬foreign → exec (.lwait d a) s = s.traps Cause.workProtocol (w ||| BitVec.ofNat 64 (2 ^ 63))) ∧
      (s.object ctx (owLevel w) (owId w) = .unknown →
        (foreign → exec (.lwait d a) s = give 0xFE) ∧ exec (.cancel d a) s = give 0xFE ∧
        exec (.cntrd d a) s = give (BitVec.ofNat 64 (2 ^ 63))) ∧
      (∀ st, s.object ctx (owLevel w) (owId w) = .ended st →
        (foreign → exec (.lwait d a) s = give (BitVec.ofNat 64 st)) ∧ exec (.cancel d a) s = give 1 ∧
        exec (.cntrd d a) s = give 0) ∧
      (s.object ctx (owLevel w) (owId w) = .going →
        (foreign → exec (.lwait d a) s = if owNowait w then give 0xFF else
          s.waits (s.updTh s.cur s.thr fun h => { h with pend := .object (s.instanceOf ctx (owLevel w) (owId w)) }) .launch) ∧
        exec (.cntrd d a) s = give (BitVec.ofNat 64 (match owLevel w with
          | 0 => ((s.kernel? ctx (owId w)).map Kernel.kcount).getD 0
          | 1 => ((s.openGraph ctx (owId w)).map GraphInst.gcount).getD 0
          | _ => s.jcount ctx)) ∧
        (let t := match owLevel w with
           | 0 => s.cancelKernel ctx (owId w) false
           | 1 => s.cancelGraph ctx (owId w) s.cur.servedBy
           | _ => s.cancelJob ctx
         s.quiet → exec (.cancel d a) s =
           if (t.th t.cur t.thr).st = .off then s.retires t .done else s.retires (t.mine fun k => k.setG d.val 0)))))

/-- GINFO and GDONE (R364, R365, R368): GINFO gives an item of the core's group; GDONE, once nothing of the core is
outstanding, ends both of its threads, takes the core out of the group's COUNT and adds the value; an X-thread in STOP stays there,
and its core in COUNT, which is the model's reading (assumption 20). -/
def Obligations.GroupResults : Prop :=
  ∀ (s : State) (d i b : Reg),
    (∀ a : Reg, s.MayIssueIf (fun s => aCompute.legal s && decide (i.val < 10) && (i.val = 8 || a.val = 0)) noHint .user →
      exec (.ginfo d i a) s = s.retiresG d (match s.myGroup with
        | some g => ginfoItem g s.me (CoreIdx s.cur) i.val (s.me.gr a.val)
        | none => 0)) ∧
    (s.MayIssue aCompute noHint .user → s.me.hold = none → s.mxIdle s.cur = true →
      (s.me.outs.any fun e => e.2.staging != []) = false → s.fenced → s.me.slotsDrained = true → s.me.gang.compare = false →
      let v := s.me.gr b.val
      ((s.th s.cur .x).st ≠ .stop → exec (.gdone b) s = s.retires ((s.endCore s.cur).leaveCount s.me.group 1 v) .done) ∧
      ((s.th s.cur .x).st = .stop → exec (.gdone b) s =
        s.retires (((s.endCore s.cur).updTh s.cur .x fun h => { h with st := .stop }).leaveCount s.me.group 0 v) .done))

/-- PINV and PPROBE (R430 to R432): PINV drops a context's cached leaves, writes its root, or ends fault entries, 0, 1 or 2
in g[d]; PPROBE translates for inspection, with the trap of a walk that meets a table entry whose granule is not correct, or puts the oldest queued fault in service; a malformed operand traps with
QUEUE_PROTOCOL, TVAL 17. A removal waits, with reason FENCE, while a request that used what it removes is queued at its object's home.
The trap of such a walk and that wait are the model's choice (assumption 26). -/
def Obligations.PageResults : Prop :=
  ∀ (s : State) (d a b : Reg), s.MayIssue aSuper noHint .user → s.fenced → s.unsent s.cur = false →
    let w := (s.me.gr a.val).toNat
    let v := (s.me.gr b.val).toNat
    let ctx := bits w 2 12
    let give := fun (t : State) (r : Word) => s.retires (t.mine fun k => k.setG d.val r)
    let st := bits w 14 4
    (pinvBad w v = true → exec (.pinv d a b) s = s.traps Cause.queueProtocol 17) ∧
    (pinvBad w v = false →
      (s.resident ctx = false → exec (.pinv d a b) s = give s 2) ∧
      (s.resident ctx = true →
        (bits w 0 2 = 0 → exec (.pinv d a b) s =
          if s.syncUses ctx v (if w.testBit 14 then none else some (2 ^ 16 * bits w 16 32)) then s.waits s .fence
          else give (s.dropLeaves ctx fun t => w.testBit 14 || t.maps v (2 ^ 16 * bits w 16 32)) 0) ∧
        (bits w 0 2 = 3 → exec (.pinv d a b) s =
          if s.syncUses ctx 0 none then s.waits s .fence
          else give ((s.updCtx ctx fun c => { c with root := v }).dropLeaves ctx fun _ => true) 0) ∧
        (bits w 0 2 = 1 ∨ bits w 0 2 = 2 → exec (.pinv d a b) s =
          give (s.endKey ctx (v / 2 ^ 16) (bits w 0 2 = 2)).1 (if (s.endKey ctx (v / 2 ^ 16) (bits w 0 2 = 2)).2 then 0 else 1)))) ∧
    (st ≤ 11 → bits w 18 46 = 0 →
      (bits w 0 2 = 0 → v < 2 ^ 60 → exec (.pprobe d a b) s = match (s.probe st ctx v).2 with
        | .ok r => give (s.probe st ctx v).1 r
        | .error cause => .next (s.trapIssued (s.keep (s.probe st ctx v).1) cause (BitVec.ofNat 64 v))) ∧
      (bits w 0 2 = 1 → ctx = 0 → v = 0 → exec (.pprobe d a b) s =
        match (s.station st).faults.find? fun e => !e.inService with
        | none => give s 0
        | some e => give (s.updStation st fun q => { q with faults := serveOldest q.faults }) e.word)) ∧
    ((1 < bits w 0 2 ∨ 11 < st ∨ bits w 18 46 ≠ 0) → exec (.pprobe d a b) s = s.traps Cause.queueProtocol 17)

/-- PREEMPT, SAVE, CHKPAIR (R405, R410, R415, R416): groups of a context begin to vacate, the mask of their octets (of
PREEMPT, the number of groups too) in g[d]; an octet's checked pairs are read or configured, or a group with a stopped thread
returns to PENDING; a malformed operand traps with QUEUE_PROTOCOL, TVAL 16. RESTORE and HMIGRATE (R360, R411): with PLACE
busy they only read it; else they start from the record in own memory, and g[d] receives PLACE, bit 63 set if the operation
runs on. That PREEMPT's number counts groups is the model's reading (assumption 34). -/
def Obligations.ContextAndPlacementResults : Prop :=
  (∀ (s : State) (d a : Reg) (cl : Fin 16), s.MayIssue aControl noHint .user → s.cur = .control cl →
    let w := (s.me.gr a.val).toNat
    let ctx := bits w 0 12
    let n := bits w 12 5
    let give := fun (t : State) (r : Word) => s.retires (t.mine fun k => k.setG d.val r)
    ((ctx = 0 ∨ n = 0 ∨ 24 < n ∨ bits w 18 46 ≠ 0) → exec (.preempt d a) s = s.traps Cause.queueProtocol 16) ∧
    (ctx ≠ 0 → n ≠ 0 → n ≤ 24 → bits w 18 46 = 0 →
      exec (.preempt d a) s = give (s.choose ctx cl (w.testBit 17) 24 n []).1 (maskWord (s.choose ctx cl (w.testBit 17) 24 n []).2)) ∧
    (ctx ≠ 0 → n ≤ 23 → bits w 19 45 = 0 →
      exec (.save d a) s = match holding (s.eligible ctx cl) n with
        | none => give s 0
        | some g => give (s.vacate g ⟨s.cycle, if w.testBit 18 then 5 else if w.testBit 17 then 2 else 0, w.testBit 18, none,
            w.testBit 17, false⟩) (BitVec.ofNat 64 (octetMask g.octets))) ∧
    (let oct := bits w 2 5
     let k := bits w 7 2
     let o : OctName := ⟨cl, Fin.ofNat 24 oct⟩
     let q := s.octet o
     oct ≤ 23 → bits w 9 11 = 0 → bits w 32 32 = 0 →
      (bits w 0 2 = 0 → k = 0 → bits w 20 12 = 0 →
        exec (.chkpair d a) s = give s (BitVec.ofNat 64 (q.pairConf.toNat + q.pairLive.toNat * 16))) ∧
      (bits w 0 2 = 1 → bits w 20 12 = 0 → exec (.chkpair d a) s =
        give (s.updOctet o fun q => { q with pairConf := q.pairConf ||| BitVec.ofNat 4 (2 ^ k) }) 0) ∧
      (bits w 0 2 = 2 → bits w 20 12 = 0 → exec (.chkpair d a) s =
        give (s.updOctet o fun q => { q with pairConf := q.pairConf &&& ~~~BitVec.ofNat 4 (2 ^ k) }) 0) ∧
      (bits w 0 2 = 3 → k = 0 → bits w 20 12 ≠ 0 →
        match holding (s.groups.filter fun g => g.key.ctx = bits w 20 12 && g.cl = cl && (g.st = .running || g.st = .saved)) oct with
        | none => exec (.chkpair d a) s = give s 1
        | some g =>
          (s.hasStopped g = false → exec (.chkpair d a) s = give s 1) ∧
          (s.hasStopped g = true → g.st = .saved → exec (.chkpair d a) s = give (s.requeue g) 0) ∧
          (s.hasStopped g = true → g.st = .running → (∀ o ∈ g.octets, (s.octet o).cmds = []) →
            exec (.chkpair d a) s = give ((s.endAllBut g).requeue g) 0)))) ∧
  (∀ (s : State) (d a : Reg) (cl : Fin 16), s.MayIssue aControl noHint .user → s.cur = .control cl → s.quiet → s.fenced → s.intact →
    let ea := (s.me.gr a.val).toNat
    let noted := { s with ea := BitVec.ofNat 64 ea }
    let at_ := localBase s.cur + ea
    let r : PlaceRec := ⟨s.word at_, s.word (at_ + 8), s.word (at_ + 16), s.word (at_ + 24)⟩
    s.xbOf s.cur ≤ ea → ea + 32 ≤ 2 ^ 16 → ea % 32 = 0 →
      ∀ (i : Instr) (t : State),
        (i, t) ∈ [(Instr.restore d a, if r.badHere then noted.setPlace cl 3 1 none else noted.tryRestore cl r.ctx r.gid r.po r.s0),
          (.hmigrate d a, noted.migrate cl r)] →
        exec i s =
          if (s.cluster cl).placeStatus = 1 then s.retires (noted.mine fun k => k.setG d.val (s.cluster cl).placeWord)
          else s.retires (t.mine fun k => k.setG d.val ((t.cluster cl).placeWord |||
            if (t.cluster cl).placeStatus = 1 then BitVec.ofNat 64 (2 ^ 63) else 0)))

/-- FRPOP, TIMERD, LSTAT (R436, R447, R454): FRPOP frees, where it is asked to, the slots taken so far, and gives the address
of the next frame of a queue that lands where the core may read it, 0 if there is none; TIMERD reads the time; LSTAT moves a
port, one whose island is stopped left DOWN (R21, R464: that ENABLE does so is the model's reading, assumption 30), and reads it, its count of corrected errors having grown by an amount that the specification leaves open (a free value
of the model). -/
def Obligations.LinkResults : Prop :=
  ∀ (s : State) (d a : Reg),
    let w := s.me.gr a.val
    (s.MayIssue aAll noHint .user →
      (w = 0 → exec (.timerd d a) s = s.retiresG d s.timeWord) ∧
      (w ≠ 0 → s.quiet → s.xbOf s.cur ≤ w.toNat → w.toNat + 16 ≤ 2 ^ 16 → w.toNat % 16 = 0 →
        exec (.timerd d a) s = s.retires ((State.storeWords { s with ea := w } (localBase s.cur + w.toNat)
          [s.time.words.1, s.time.words.2]).mine fun k => k.setG d.val s.timeWord))) ∧
    (s.MayIssue ⟨true, false, [.compute, .memory]⟩ noHint .user → bits w.toNat 9 55 = 0 →
      let n := bits w.toNat 0 8
      let e := s.frameEntry s.frameBank n
      let q := s.frameQ n
      let t := if w.getLsbD 8 then s.updFrameQ n fun q => { q with free := q.head } else s
      (∀ g ∈ granules (frameEntryAt s.frameBank n) 32, s.mark g = .ok) → e.enabled = true → e.ctx = s.me.ctxid.toNat →
        (match s.cur with | .compute o _ => e.qk = false ∧ e.cl = o.cl | _ => e.qk = true) →
        exec (.frpop d a) s =
          if q.head = q.tail then s.retires (t.mine fun k => k.setG d.val 0)
          else s.retires ((t.updFrameQ n fun q => { q with head := q.head + 1 }).mine fun k => k.setG d.val (BitVec.ofNat 64 (
            let at_ := 2 ^ e.ssz * (q.head.toNat % 2 ^ e.nsl)
            match s.cur with
            | .compute o _ =>
              if s.slotMap e.ctx e.cl.val e.slot = .mapped o.oct then 0x100000 + e.off + at_ else 0x80800000 + e.slot * 2 ^ 24 + e.off + at_
            | _ => 2 ^ 63 + e.va + at_)))) ∧
    (∀ (who : Who) (i : Instr) (go : PortName → State),
      (who, i, go) ∈ [(aPort, Instr.lstatRead d a, fun _ => s),
        (aMgmt, .lstatEnable d a, fun p =>
          if (s.port p).st = .down ∧ s.islandRuns (portIsland p) = true then s.setPort p .training 0 else s),
        (aMgmt, .lstatDisable d a, fun p => s.setPort p .down 0),
        (aMgmt, .lstatRetrain d a, fun p => if (s.port p).st = .failed then (s.retrain p).setPort p .training 0 else s)] →
      s.MayIssue who noHint .user →
        (portOf w = none → exec i s = s.traps Cause.queueProtocol 18) ∧
        (∀ p, portOf w = some p → ∃ n : Nat,
          let u := State.updPort { go p with free := (go p).free + 1 } p fun q => { q with errors := satInc q.errors n }
          exec i s = s.retires (u.mine fun k => k.setG d.val (BitVec.ofNat 64 ((u.port p).st.code + (u.port p).lanes * 2 ^ 3 +
            (u.port p).errors.toNat * 2 ^ 16 + (u.port p).retrains.toNat * 2 ^ 32 + u.life.domain % 256 * 2 ^ 56)))))

/-- VCVTR, VDEROT, HSLD, HSRD (R194, R200, R206 to R209): a register group's blocks are rotated into a format, or turned
back, all sources read first; a sign register is loaded from a vector and read back. XEXP24 and XBDOT (R63, R315 to R317):
the kept values of a 2:4 vector take their places among zeros, an invalid metadata field raising NV; XBDOT gives each row's
sum of products with its flags in f[b], nothing written before it retires. -/
def Obligations.RotationAndExpandResults : Prop :=
  (∀ (s : State) (d a : Reg) (t u : Fin 16) (k : Fin 8) (h : Reg) (b : Fin 4),
    let q := s.me.signReg k.val
    let n := convLanes (fmtWidth t.val) (fmtWidth u.val) 1024
    let size := blockOf q.blk.toNat
    let g := max 1 (size / n)
    let lanes := ((groupRegs a g).map fun x => (List.range n).map fun i => numOf t.val (lane (fmtWidth t.val) (s.me.vr x.val).toNat i)).flatten
    let all := fun f : List Machine.Num → List (Nat × Flags) =>
      let out := ((chunks size (g * n / size) lanes).map f).flatten
      s.retires ((((groupRegs d g).zip (chunks n g out)).foldl (fun (x : State) r => x.mine fun c =>
        c.setV r.1.val (BitVec.ofNat 1024 (packLanes (fmtWidth u.val) (r.2.map (·.1))))) s).mine fun c =>
          c.raised (out.foldl (fun fl x => fl ||| x.2) fNone))
    (s.proper (groupRegs a g) → s.proper (groupRegs d g) →
      (s.MayIssue xAll satX .user →
        exec (.vcvtr d a t k u) s = all (rotateBlock q.sign (Nat.log2 size) u.val s.satOn)) ∧
      (s.MayIssue xAll noHint .user →
        exec (.vderot d a t k u) s = all (derotateBlock q.sign (Nat.log2 size) u.val s.me.rm s.satOn))) ∧
    (s.MayIssue xAll noHint .user →
      (s.proper [a] → exec (.hsld h a b) s = s.retires (s.mine fun c =>
        { c with hs := Tbl.set SignReg.init c.hs h.val ⟨(s.me.vr a.val).setWidth 128, BitVec.ofNat 2 b.val⟩ })) ∧
      (s.proper [d] → exec (.hsrd d k) s = s.retiresV d (BitVec.ofNat 1024 (q.sign.toNat + q.blk.toNat * 2 ^ 128))))) ∧
  (∀ (s : State) (d a b n : Reg), s.MayIssue xMemory noHint .user → s.proper [d, a, b] →
    (let w := 4 * 2 ^ n.val
     let out := (List.range (1024 / w / 4)).map (expandField w (s.me.vr a.val).toNat)
     exec (.xexp24 d a n) s = s.retires ((s.mine fun k => k.setV d.val (BitVec.ofNat 1024 (packLanes w (out.flatMap (·.1))))).mine
      fun k => k.raised (if out.any (·.2) then fNV else fNone))) ∧
    (let ea := (s.me.fr a.val).toNat
     let w := s.descWords ea
     let size := dotK w * (fmtWidth (dotXFmt w) / 8)
     let at_ := localBase s.cur + dotX w
     let x := (List.range (dotK w)).map fun k =>
       (numOf (dotXFmt w) (lane (fmtWidth (dotXFmt w)) (s.readLE at_ size) k)).exact
     s.DescAt ea → dotChecks w (s.noted ea) = .ok ((), s.noted ea) → (∀ g ∈ granules at_ size, s.mark g = .ok) →
      ∀ rows t, dotRows w x (s.noted ea) = .ok (rows, t) → t.cur = s.cur → t.me = s.me →
        exec (.xbdot d a b) s = s.retires ((t.mine fun k => k.setV d.val (BitVec.ofNat 1024 (packLanes 32 (rows.map (·.1))))).mine
          fun k => k.setF b.val (BitVec.ofNat 64 (rows.foldl (fun f y => f ||| y.2) fNone).toNat))))

/-- MMA, MMAZ, MMAAD, MSCA, MSCARS (R210, R220, R221, R236, R237, R248 to R250): a command whose descriptors pass the checks
enters the core's queue with them, and the accepted view takes the tag or the generation it leaves. HALLOC, HFREE, HCFG,
HROWLD, HCOLLD, HZERO, HRESCALE (R228, R230, R231, R236): the command is accepted, and the accepted view of its handle
changes at once in the parts the command sets; HALLOC gives the lowest free handle, or all ones. That HZERO of a handle takes any PSN,
and that HFREE keeps GEN and DISC and HRESCALE DISC, are the model's reading (assumption 28). -/
def Obligations.MatrixCommandAndHandleResults : Prop :=
  (∀ (s : State) (d a b : Reg) (o : OctName) (x : Fin 8), s.MayIssue xCompute noHint .user → s.MxReady o x → s.proper [d, a, b] →
    let w := s.me.fr d.val
    let y := s.me.fr a.val
    let z := s.me.fr b.val
    let tp := s.me.tagOf (cPs w)
    let tagged := fun (zero : Bool) (c : MxCmd) =>
      if zero || tp.isNone then
        s.retires ((s.mine fun k => k.setTag (cPs w) (some (BitVec.ofNat 6 (tTag y)))).accepted o x { c with undo := [.tag (cPs w) tp] })
      else s.retires (s.accepted o x c)
    (tilesOk w y z false false tp → exec (.mma d a b) s = tagged false { MxCmd.new .mma with d := w, a := y, b := z }) ∧
    (tilesOk w y z false true tp → exec (.mmaz d a b) s = tagged true { MxCmd.new .mmaz with d := w, a := y, b := z }) ∧
    (tilesOk w y z true (w.getLsbD 63) tp →
      let at_ := scratchBase o + 32 * bits w.toNat 48 15
      (∀ g ∈ granules at_ 32, s.mark g = .ok) →
      ∀ bound, bindRows (s.words at_ 4) w y s.me.adtbase (cRows w) s = .ok (bound, s) →
        exec (.mmaad d a b) s = tagged (w.getLsbD 63) { MxCmd.new .mmaad with d := w, a := y, b := z, bound := bound }) ∧
    (bits w.toNat 8 5 = 0 → bits w.toNat 14 2 = 0 → bits w.toNat 48 16 = 0 → scaleOk y (cRows w) → scaleOk z (cCols w) →
      let h := (s.octet o).handle (sH w)
      let c := tagFactor tp
      h.free = false →
        (h.gen = s.me.mgen → exec (.msca d a b) s =
          s.retires (s.accepted o x { MxCmd.new .msca with d := w, a := y, b := z, c := c, genOld := h.gen })) ∧
        (h.gen ≠ s.me.mgen → exec (.msca d a b) s =
          s.traps Cause.scaleGen (BitVec.ofNat 64 (h.gen.toNat + s.me.mgen.toNat * 2 ^ 8 + sH w * 2 ^ 16))) ∧
        (let set : ViewSet := ⟨none, some s.me.mgen, none⟩
        exec (.mscars d a b) s = s.retires ((s.viewed o (sH w) set).accepted o x
          { MxCmd.new .mscars with d := w, a := y, b := z, c := c, genOld := h.gen, undo := h.undos (sH w) set })))) ∧
  (∀ (s : State) (d a b : Reg) (o : OctName) (x : Fin 8), s.MayIssue xCompute noHint .user → s.MxReady o x → s.proper [d, a, b] →
    let w := s.me.fr a.val
    let y := s.me.fr b.val
    let n := sH w
    let h := (s.octet o).handle n
    (w.toNat < 2 →
      (∀ f, (List.range 256).find? (fun f => ((s.octet o).handle f).free) = some f →
        let set : ViewSet := ⟨some false, some s.me.mgen, some (w.getLsbD 0)⟩
        exec (.halloc d a) s = s.retires (((s.viewed o f set).accepted o x
          { MxCmd.new .halloc with a := w, k := f, undo := ((s.octet o).handle f).undos f set }).mine fun k =>
            k.setF d.val (BitVec.ofNat 64 f))) ∧
      ((List.range 256).find? (fun f => ((s.octet o).handle f).free) = none →
        exec (.halloc d a) s = s.retires ((s.accepted o x { MxCmd.new .halloc with a := w, k := 256 }).mine fun k =>
          k.setF d.val (BitVec.allOnes 64)))) ∧
    (selectorOk w false false false →
      (y.toNat < 2 → let set : ViewSet := ⟨some false, some s.me.mgen, some (y.getLsbD 0)⟩
        exec (.hcfg a b) s = s.retires ((s.viewed o n set).accepted o x
          { MxCmd.new .hcfg with a := w, b := y, undo := h.undos n set })) ∧
      (h.free = true → exec (.hfree a) s = s.traps Cause.handleUnconf (BitVec.ofNat 64 n)) ∧
      (h.free = false →
        (let set : ViewSet := ⟨some true, none, none⟩
        exec (.hfree a) s = s.retires ((s.viewed o n set).accepted o x
          { MxCmd.new .hfree with a := w, undo := h.undos n set })) ∧
        (let set : ViewSet := ⟨none, some s.me.mgen, none⟩
        exec (.hrescale a) s = s.retires ((s.viewed o n set).accepted o x
          { MxCmd.new .hrescale with a := w, genOld := h.gen, undo := h.undos n set })))) ∧
    (selectorOk w true false false → h.free = false →
      exec (.hrowld a b) s = s.retires (s.accepted o x { MxCmd.new .hrowld with a := w, v := [s.me.vr b.val] }) ∧
      exec (.hcolld a b) s = s.retires (s.accepted o x { MxCmd.new .hcolld with a := w, v := [s.me.vr b.val] })) ∧
    (selectorOk w false true false →
      (sPsf w = true → n = 0 → exec (.hzero a) s = s.retires ((s.mine fun k => k.setTag (sPsn w) none).accepted o x
        { MxCmd.new .hzero with a := w, undo := [.tag (sPsn w) (s.me.tagOf (sPsn w))] })) ∧
      (sPsf w = false → h.free = false → exec (.hzero a) s = s.retires (s.accepted o x { MxCmd.new .hzero with a := w }))))

/-- PSRD, HROWST, HCOLST, HDRAIN, HSTAT, REDA, REDX, ASTAT (R211, R223 to R226, R231 to R233, R262): the first issue gives
the unit a command and waits; once it is done, the instruction writes its results and retires, and if it failed it traps. That REDA's
step and the reads of HSTAT and ASTAT take effect at that retirement is the model's reading of R211 (assumption 28). A group of
registers goes on from v31 to v0, and its first register may be a stream alias (R223, R152): REDA then takes the head entry of a read
slot, which leaves its queue when REDA retires, and PSRD adds its first register to a write slot.
MSYNC waits for every command of its core, GEOM gives a tile's masks (R211, R219). ADTBL, AINV, APREF (R245, R259 to R261):
ADTBL puts a table of valid entries in the octet's directory and empties every other slot of their identifiers; all three are
accepted as commands. -/
def Obligations.MatrixWaitAndAdapterResults : Prop :=
  (∀ (s : State) (d a b k : Reg) (ok : Hints) (o : OctName) (x : Fin 8), ok ∈ [noHint, ⟨false, 1⟩] →
    s.MayIssue xCompute ok .user → s.MxReady o x → s.proper (groupRegs d 4 ++ groupRegs a 2 ++ [b]) →
    let w := s.me.fr a.val
    let y := s.me.fr b.val
    let asks := fun c : MxCmd =>
      s.waits ((s.accepted o x c).updTh s.cur s.thr fun h => { h with mx := .asked (s.octet o).nextCmd }) .matrix
    let plain := ok = noHint
    (∀ (i : Instr) (f : State → MxCmd → State),
      (i, f) ∈ [(Instr.psrd d k b, fun t c => t.putRegs d c.vres), (.hrowst d a, fun t c => t.mine fun q => q.setV d.val (c.vres.headD 0)),
        (.hcolst d a, fun t c => t.mine fun q => q.setV d.val (c.vres.headD 0)), (.hdrain a, fun t _ => t),
        (.hstat d a, fun t c => t.mine fun q => q.setF d.val (c.f.getD 0)), (.reda k a b, fun t c => t.mine fun q => q.raised c.flags),
        (.astat d a, fun t c => t.mine fun q => q.setF d.val (c.f.getD 0)),
        (.redx d k b, fun t c => (t.putRegs d c.vres).mine fun q => q.raised c.flags)] →
      (plain ∨ i = .redx d k b) →
        (∀ c, s.myTh.mx = .done c → c.vres.length ≤ 4 →
          exec i s = (let r := if c.late then s.runLate o c else (s, c)
                      s.retires (f r.1 r.2))) ∧
        (∀ cause tval, s.myTh.mx = .failed cause tval → exec i s = s.traps cause tval) ∧
        (∀ id, s.myTh.mx = .asked id → exec i s = s.waits s .matrix)) ∧
    (s.myTh.mx = .none → plain →
      (y.toNat < 16 → exec (.psrd d k b) s = asks { MxCmd.new .psrd with b := y, k := k.val }) ∧
      (selectorOk w true false false → ((s.octet o).handle (sH w)).free = false →
        exec (.hrowst d a) s = asks { MxCmd.new .hrowst with a := w } ∧ exec (.hcolst d a) s = asks { MxCmd.new .hcolst with a := w }) ∧
      (selectorOk w false false false → ((s.octet o).handle (sH w)).free = false →
        exec (.hdrain a) s = asks { MxCmd.new .hdrain with a := w }) ∧
      (selectorOk w false false true → sWhat w ≠ 3 → (sWhat w ≠ 0 → sH w = 0) →
        exec (.hstat d a) s = asks { MxCmd.new .hstat with a := w }) ∧
      (bits w.toNat 0 2 ≠ 3 → bits w.toNat 3 13 = 0 → w.toNat < 2 ^ 32 → exec (.astat d a) s = asks { MxCmd.new .astat with a := w }) ∧
      (y.toNat < 16 → (let v := (groupRegs a 2).map fun r => s.me.vr r.val
        (∀ q ∈ v, ∀ j < 8, bits q.toNat (128 * j + 99) 29 = 0) →
        exec (.reda k a b) s = asks { MxCmd.new .reda with b := y, v := v, k := k.val }))) ∧
    (s.myTh.mx = .none → y.toNat < 256 → 5 ≤ bits y.toNat 4 4 → bits y.toNat 4 4 ≤ 7 →
      exec (.redx d k b) s = asks { MxCmd.new .redx with b := y, k := k.val, rm := BitVec.ofNat 3 s.me.rm, sat := s.satOn }) ∧
    (plain →
      exec .msync s = (if (s.octet o).cmds.any fun c => c.core = x then s.waits s .matrix else s.retires s) ∧
      exec (.geom d a) s = s.retiresF d (BitVec.ofNat 64 (geomMasks (bits s.me.gauge.toNat 0 28) (bits s.me.gauge.toNat 28 28)
        (bits w.toNat 0 32) (bits w.toNat 32 32))))) ∧
  (∀ (s : State) (n : Fin 4) (k b : Reg) (o : OctName) (x : Fin 8), s.MayIssue xCompute noHint .user → s.MxReady o x →
    let al : Reg := Fin.ofNat 32 (28 + n.val)
    let after : Reg := Fin.ofNat 32 (29 + n.val)
    let q := s.me.slot n.val
    let y := s.me.fr b.val
    s.proper [after, b] → q.state = .active → q.serves = none → q.cur.own.esize = 4 →
      (q.cur.own.write = false → ∀ e j v rest, q.queue = ⟨e, j, .value v⟩ :: rest →
        (s.myTh.mx = .none → y.toNat < 16 → let msgs := [v, s.me.vr after.val]
          (∀ z ∈ msgs, ∀ i < 8, bits z.toNat (128 * i + 99) 29 = 0) →
          exec (.reda k al b) s = s.waits ((s.accepted o x { MxCmd.new .reda with b := y, v := msgs, k := k.val }).updTh s.cur s.thr
            fun h => { h with mx := .asked (s.octet o).nextCmd }) .matrix) ∧
        (∀ c, s.myTh.mx = .done c → ∃ t, exec (.reda k al b) s = s.retires t ∧ (t.me.slot n.val).queue = rest)) ∧
      (q.cur.own.write = true → q.late = none → q.queue = [] → q.store.length < 16 →
        ∀ c u z, s.myTh.mx = .done c → c.late = false → c.vres = [u, z] →
          ∃ t, exec (.psrd al k b) s = s.retires t ∧ t.me.vr after.val = z ∧
            (t.me.slot n.val).store = q.store ++ [⟨u, BitVec.allOnes 128⟩])) ∧
  (∀ (s : State) (a b : Reg) (o : OctName) (x : Fin 8), s.MayIssue xCompute noHint .user → s.MxReady o x → s.proper [a, b] →
    let w := s.me.fr a.val
    let y := s.me.fr b.val
    (let first := bits y.toNat 0 6
     let n := bits y.toNat 6 7
     let at_ := scratchBase o + w.toNat
     let es := entriesOf (s.words at_ (4 * n))
     let q := s.octet o
     let changed := (List.range 64).filter fun i => q.loaded first es i != q.entry i
     w.toNat % 32 = 0 → w.toNat + 32 * n ≤ 2 ^ 20 → y.toNat < 2 ^ 13 → n ≠ 0 → first + n ≤ 64 →
     (∀ g ∈ granules at_ (32 * n), s.mark g = .ok) →
      (∀ slot, tableFault first es = some slot → exec (.adtbl a b) s =
        s.traps Cause.adapterTable (BitVec.ofNat 64 (3 + slot * 2 ^ 8))) ∧
      (tableFault first es = none → exec (.adtbl a b) s =
        s.retires ((s.updOctet o fun r => changed.foldl (fun r i =>
          { r.setEntry i (q.loaded first es i) with dirBy := Tbl.set 0 r.dirBy i (q.nextCmd + 1) }) r).accepted o x
          { MxCmd.new .adtbl with
              bound := ((changed.flatMap fun i => [(q.entry i).id, (q.loaded first es i).id]).filter fun i => i != 0).map fun i =>
                (i, AdEntry.init),
              undo := changed.map fun i => .slot i (q.entry i) (Tbl.get 0 q.dirBy i) }))) ∧
    (w.toNat < 2 ^ 16 →
      exec (.ainv a) s = s.retires (s.accepted o x { MxCmd.new .ainv with a := w }) ∧
      (y.toNat < 2 ^ 13 → y ≠ 0 → ∀ slot e, (s.octet o).lookup w.toNat = some (slot, e) →
        128 * adKB s.me.adtbase + y.toNat ≤ 64 * e.klim → 16 * adNB s.me.adtbase + 16 ≤ 64 * e.nlim → ceilDiv y.toNat 64 ≤ 63 →
        exec (.apref a b) s = s.retires (s.accepted o x { MxCmd.new .apref with a := w, b := y, bound := [(0, e)] }))))

/-- The synchronous external instructions (R295, R302, R308): one whose descriptor passes its checks waits with reason
EXTERNAL while its elements are performed; XGATH, XSCAT and XRED clear their missing-element map first where PROG is 0 (R306). At the
last it retires with its status and PROG cleared; an element that fails ends it with status FAULT, PROG.K kept. XPROG reads and writes
PROG (R309); that the flags gathered by the elements of the run go with it is the model's choice (assumption 27). -/
def Obligations.ExternalResults : Prop :=
  ∀ (s : State) (d a : Reg), (s.th s.cur .a).relaxed = [] →
    let h := s.myTh
    let ea := (s.me.gr a.val).toNat
    (s.MayIssue aMemory noHint .user → (s.me.gr a.val).toNat < 2 ^ 25 → exec (.xprog d a) s =
      s.retires ((s.mine fun k => k.setG d.val (BitVec.ofNat 64 h.prog)).updTh s.cur s.thr fun h =>
        h.setProg ((s.me.gr a.val).setWidth 25))) ∧
    ∀ (op : ExtOp) (ok : Hints) (i : Instr),
      (op, ok, i) ∈ [(ExtOp.xld, ntHint, Instr.xld d a), (.xst, ntHint, .xst d a), (.xldcol, ntHint, .xldcol d a),
        (.xstcol, ntHint, .xstcol d a), (.xgath, ntHint, .xgath d a), (.xscat, ntHint, .xscat d a), (.xred, noHint, .xred d a)] →
      s.MayIssue aMemory ok .user →
        (∀ w, h.pend = .external op w true → exec i s =
          s.retires ((s.mine fun k => k.setG d.val (BitVec.ofNat 64 (2 + h.progFl.toNat * 2 ^ 8))).updTh s.cur s.thr fun h =>
            { h with progFl := 0 })) ∧
        (∀ w, h.pend = .external op w false →
          (h.progK.toNat < extCount op w → exec i s = s.waits s .external) ∧
          (extCount op w ≤ h.progK.toNat → h.progMiss = false → exec i s =
            s.retires ((s.mine fun k => k.setG d.val (BitVec.ofNat 64 (h.progFl.toNat * 2 ^ 8))).updTh s.cur s.thr fun h =>
              { h with progK := 0, progMiss := false, progFl := 0 })) ∧
          (extCount op w ≤ h.progK.toNat → h.progMiss = true → op.mapped = true →
            ∀ b t, extRead false (mapAddr w) (mapLen w) s = .ok (some b, t) → exec i s =
              s.retires ((t.mine fun k => k.setG d.val (BitVec.ofNat 64 (1 + popBytes b * 2 ^ 24 + h.progFl.toNat * 2 ^ 8))).updTh
                t.cur t.thr fun h => { h with progK := 0, progMiss := false, progFl := 0 }))) ∧
        (h.pend = .none → s.DescAt ea → (op.mapped = false ∨ h.progK ≠ 0 ∨ h.progMiss = true) →
          let w := s.descWords ea
          (if op.mapped then gatherChecks op w else copyChecks op w) (s.noted ea) = .ok ((), s.noted ea) →
          h.progK.toNat < extCount op w → exec i s =
            s.waits ((s.noted ea).updTh s.cur s.thr fun h =>
              { h with pend := .external op w false, progFl := if h.progK = 0 && !h.progMiss then 0 else h.progFl }) .external) ∧
        (h.pend = .none → s.DescAt ea → op.mapped = true → h.progK = 0 → h.progMiss = false →
          let w := s.descWords ea
          let fresh := (s.noted ea).updTh s.cur s.thr fun h => { h with progFl := 0 }
          gatherChecks op w (s.noted ea) = .ok ((), s.noted ea) → 0 < extCount op w → ∀ b t,
            extWrite false (mapAddr w) (List.replicate (mapLen w) 0) fresh = .ok (b, t) → exec i s =
              s.waits (t.updTh t.cur t.thr fun h => { h with pend := .external op w false }) .external)

/-- XPUSH, XPULL, XWAIT, XSECT (R310 to R314): a transfer is started with the next ticket, at most sixteen at a time; XWAIT
waits for one and gives its status, FEH of one that is forgotten, FFH of one never given out; XSECT changes a sector and
reads it. -/
def Obligations.TransferResults : Prop :=
  ∀ (s : State) (d a b : Reg), (s.th s.cur .a).relaxed = [] →
    let ea := (s.me.gr a.val).toNat
    (s.MayIssue aMemory ntHint .user → ∀ (push : Bool) (i : Instr), (push, i) ∈ [(true, Instr.xpush d a b), (false, .xpull d a b)] →
      let open_ := (s.me.xfers.filter fun x => !x.past).length
      (16 ≤ open_ → exec i s = s.waits s .external) ∧
      (open_ < 16 → s.DescAt ea →
        let w := s.descWords ea
        let sign := if psTag' w = 0 then 0 else (s.me.signReg (tagReg (psTag' w))).sign
        pushChecks push w (s.noted ea) = .ok ((), s.noted ea) →
        (∀ cause, s.resolveSlot s.cur (psCl w) (psSlot w) ≠ .error (.fails cause)) →
        exec i s = s.retires (((s.noted ea).mine fun k =>
          { k with tickets := k.tickets + 1, xferNo := k.xferNo + 1,
                   xfers := k.xfers ++ [⟨k.xferNo, k.ctxid.toNat, false, k.tickets, push, w, sign, s.me.gr b.val,
                     List.range (psNR w * psNC w), 0, none⟩] }).mine
          fun k => k.setG d.val (s.me.tickets.setWidth 64)))) ∧
    (s.MayIssue aMemory noHint .user →
      let t : BitVec 32 := (s.me.gr a.val).setWidth 32
      ((s.me.xfers.any fun x => !x.past && x.ticket = t) = true → exec (.xwait d a) s = s.waits s .external) ∧
      ((s.me.xfers.any fun x => !x.past && x.ticket = t) = false → exec (.xwait d a) s =
        s.retiresG d (match s.me.ended.find? fun e => e.1 = t with
          | some e => e.2
          | none => if t < s.me.tickets then 0xFE else 0xFF)) ∧
      (let kind := (s.me.gr b.val).toNat
       kind ≤ 4 → s.mapOk s.cur ea = true → ∀ u p, State.resolve (s.noted ea) s.cur ea true false = (u, .at_ (.here p)) →
        (∀ g ∈ granules p 1, u.mark g = .ok) →
        let key := u.sectorTag (u.sectorKey u.cur.station (u.ctxOf u.cur) (ea % 2 ^ 60) p) (u.ctxOf u.cur)
        let q := if p < 12 * 2 ^ 36 then u.sector key else Sector.init
        let twoD := (u.cachedLeaf u.cur.station (u.ctxOf u.cur) (ea % 2 ^ 60)).any fun t => pteTwoD t.pte
        exec (.xsect d a b) s = s.retires ((u.mine fun k => k.setG d.val (BitVec.ofNat 64 (
          if kind = 0 then (if q.present then 1 else 0) + (if q.o then 2 else 0) + (if q.dirty then 4 else 0) +
            (if twoD && isExt ea then 8 else 0) else 0))).updSector key fun _ => q.sect kind)))

/-- The steps by which a thread goes on and a register is written from outside its program (R96, R97, R100, R138, R139, R210,
R214, R266, R272, R338, R397): a write that R101 allows takes effect; a waiting instruction is tried again and the outcome
taken, if it is the one that the step stands for; the home of a relaxed store before which no store or record to the same bytes is
older acknowledges it, an open choice which (assumption 8). The steps of streams of a core in no checked pair,
of external instructions and of transfers (R143 to R162, R297, R302, R311 to R313): an address is generated, an element
arrives or is written, or the failure at it is marked; an element of an external instruction or of a transfer is performed,
and a transfer whose elements are done ends with its status word. That EVQSTAT.HEAD is kept modulo the new size (assumption 15), that
a transfer that its thread has left goes on and posts no end, and the context in which a line named by its physical address is accessed
(assumption 27) are the model's choices. -/
def Obligations.ThreadAndMemoryEvents : Prop :=
  (∀ (s : State) (c : CoreName) (t : Thread) (n : BitVec 12) (w : Word) (cl : Fin 16) (o : OctName) (x : Fin 8),
    (csrLegal n.toNat true { s with cur := c, thr := t } = true → ¬((s.th c t).priv = .user ∧ csrWriteNeed n.toNat = .handler) →
      exec (.registerWrite c t n w) s = .next ((s.writeCsr c t n.toNat w).updCore c fun k =>
        k.noteFlags s.cycle ((s.core c).fcsr.setWidth 5))) ∧
    (23 < bits w.toNat 0 5 → exec (.arbwWrite cl w) s = .next s) ∧
    (bits w.toNat 0 5 ≤ 23 → exec (.arbwWrite cl w) s = .next ((s.updCluster cl fun q =>
      { q with arbwOct := BitVec.ofNat 5 (bits w.toNat 0 5) }).updOctet ⟨cl, Fin.ofNat 24 (bits w.toNat 0 5)⟩ fun o =>
        { o with weights := mergeWeights o.weights w.toNat })) ∧
    (let q := s.cluster cl
     let szl := bits w.toNat 0 4
     let base := bits w.toNat 6 10
     4 ≤ szl → szl ≤ 10 → base * 64 + 32 * 2 ^ szl ≤ 0x10000 → s.xbOf (.control cl) ≤ base * 64 →
     (q.evCount = 0 ∨ (szl = q.evSzl.toNat ∧ base = q.evBase.toNat)) →
      exec (.evqbaseWrite cl w) s = .next ((s.updCluster cl fun q =>
        { q with evSzl := BitVec.ofNat 4 szl, evBase := BitVec.ofNat 10 base, evEn := w.toNat.testBit 16, evHead := q.evHead % 2 ^ szl }).storeHeld cl)) ∧
    (s.canIssue c t = true → (s.th c t).live = true → ∀ r, s.again c t = some r →
      ((r.th c t).live = false → exec (.waitReasonClears c t) s = .next r) ∧
      ((r.th c t).live = true → exec (.waitReasonClears c t) s = .next s) ∧
      ((r.th c t).live = false → (s.th c t).wreason = .event → ∀ u, State.nextWord { s with cur := c, thr := t } = .word u →
        fld u.ir.toNat 26 6 = 2 → fld u.ir.toNat 12 4 = 2 → fld u.ir.toNat 11 1 = 1 →
        BitVec.ofNat 4 u.ir.toNat &&& s.eventBits c t = 0 → exec (.waitDeadline c t) s = .next r) ∧
      ((r.th c t).live = false → t = .a → (s.th c t).wreason = .channel → ∀ at_, (s.th c t).since = some at_ →
        exec (.channelWaitExpiry c) s = .next (if at_ + 2048 ≤ s.cycle then r else s)) ∧
      (c = .compute o x → t = .x → (s.th c t).wreason = .matrix → (s.th c t).mx = .none →
        ((r.th c t).live = false ∨ (r.th c t).mx ≠ .none) → exec (.matrixAccept o x) s = .next r)) ∧
    (s.canIssue c t = true → (s.th c t).live = true → ∀ u, State.nextWord { s with cur := c, thr := t } = .word u →
      u.leads = false → u.follows = false →
      let back := fun r : State => (.next { r with cur := s.cur, thr := s.thr, ir := s.ir } : Host.Outcome State Fault Refusal)
      (∀ d v rest, encode (.qget d) = some u.ir → u.MayIssue axStream noHint .user →
        (t = .x → u.proper [d] → u.me.axq = v :: rest → exec (.waitReasonClears c t) s =
          back (u.retire ((u.mine fun k => { k with axq := rest }).mine fun k => k.setF d.val v) .seq)) ∧
        (t = .a → u.me.xaq = v :: rest → exec (.waitReasonClears c t) s =
          back (u.retire ((u.mine fun k => ({ k with xaq := rest, xaqTags := k.xaqTags.drop 1 }).coverTags
            (u.me.xaqTags.headD [])).mine fun k => k.setG d.val v) .seq))) ∧
      (∀ d a e, encode (.wait d a true e) = some u.ir → u.MayIssueIf (fun s => axAll.legal s && waitLegal e s) noHint .user →
        (t = .x → u.proper [d, a]) → (s.th c t).wreason = .event → (u.reg a).toNat ≤ s.timeWord.toNat →
        ∀ hit, hit = e &&& u.eventBits c t → hit = 0 → exec (.waitDeadline c t) s =
          back (u.retire ((u.putReg d 256).updTh c t fun h =>
            { h with wchan := h.wchan && !hit.getLsbD 1, wkick := h.wkick && !hit.getLsbD 2 }) .seq)) ∧
      (∀ a, c = .compute o x → t = .x → encode (.hzero a) = some u.ir → u.MayIssue xCompute noHint .user → u.MxReady o x →
        u.proper [a] → (s.th c t).wreason = .matrix → (s.th c t).mx = .none →
        let w := u.me.fr a.val
        selectorOk w false true false → sPsf w = false → ((u.octet o).handle (sH w)).free = false →
          exec (.matrixAccept o x) s = back (u.retire (u.accepted o x { MxCmd.new .hzero with a := w }) .seq)) ∧
      (∀ d a b at_, t = .a → encode (.sendm d a b) = some u.ir → u.MayIssue aAll sendHints .user → (s.th c .a).priv = .user →
        (u.th c .a).relaxed = [] → (s.th c .a).wreason = .channel → (u.th c .a).since = some at_ → at_ + 2048 ≤ s.cycle →
        let e := u.me.outEp (Fin.ofNat 16 d.val)
        let n := if b.val = 0 then 2 else 3
        e.decl.mode = 1 → e.st ≠ .closed → (e.st = .connecting ∨ e.place n = none) →
          exec (.channelWaitExpiry c) s = back (u.takeTrap c .a u.myTh.pcOf Cause.channelOverflow
            (BitVec.ofNat 64 ((Fin.ofNat 16 d.val).val + (if e.st = .connecting then 256 else 0) + e.mfree % 2 ^ 16 * 2 ^ 16 +
              e.sfree % 2 ^ 16 * 2 ^ 32 + n * 2 ^ 48))))) ∧
    (∀ ea, (s.th c t).pend = .held ea → exec (.accessPerformed c t) s =
      .next (if s.nearHome c ea.toNat = .held then s
        else s.updTh c t fun h => { h with st := if h.st = .wait then .run else h.st, pend := .none })) ∧
    (let l := (s.th c .a).relaxed
     let able := fun (i : Nat) (r : RStore) => l[i]? = some r ∧ r.stuck s c (l.take i) = false
     ((∀ i r, ¬ able i r) → exec (.relaxedStoreAck c) s = .next s) ∧
     ((∃ i r, able i r) → ∃ i r, able i r ∧ exec (.relaxedStoreAck c) s =
       .next ((State.performRelaxed { s with free := s.free + 1 } c r).updTh c .a fun h => { h with relaxed := h.relaxed.erase r })))) ∧
  (∀ (s : State) (c : CoreName) (n : Fin 4), (s.core c).pairFollows = false → s.pairOf c = none →
    let q := (s.core c).slot n.val
    (q.generates = false → exec (.streamRequest c n) s = .next s) ∧
    (q.generates = true → q.cur.own.idx = none →
      let r := s.request c q.cur.own (q.cur.own.addr q.next)
      exec (.streamRequest c n) s = .next (r.1.updCore c fun k => k.moveSlot n fun q => q.enqueue r.2)) ∧
    (∀ e addr, firstRequested q.queue = some (e, addr) → e.desc.own.write = false →
      let put := fun (u : State) (x : Elem) => u.updCore c fun k => k.updSlot n.val fun q => { q with queue := arrive x q.queue }
      (∀ u v, s.attempt c .x (streamRead addr e.desc.own.bytes e.desc.own.align) = (u, .ok v) →
        exec (.streamElementArrival c n) s = .next (put u (.value (BitVec.ofNat 1024 v)))) ∧
      (∀ u f, s.attempt c .x (streamRead addr e.desc.own.bytes e.desc.own.align) = (u, .error (some f)) →
        exec (.streamElementArrival c n) s = .next (put u (.mark f.1 (int64 addr) false)))) ∧
    (∀ d k addr rest p more, q.late = none → q.queue = ⟨d, k, .requested addr⟩ :: rest → q.store = p :: more → d.own.write = true →
      let lanes := if d.own.maskw then p.lanes else BitVec.allOnes 128
      let write := s.attempt c .x (streamWrite addr d.own.bytes d.own.align lanes p.v.toNat)
      let pop := fun (u : State) late => u.updCore c fun k => k.moveSlot n fun q =>
        { q with queue := q.queue.drop 1, store := q.store.drop 1, done := q.done + 1, late := late }
      (∀ u, write = (u, .ok ()) → exec (.streamWritePerform c n) s = .next (pop u none)) ∧
      (∀ u f, write = (u, .error (some f)) → exec (.streamWritePerform c n) s = .next (pop u (some (f.1, int64 addr, d, k)))))) ∧
  (∀ (s : State) (c : CoreName) (t : Thread),
    (∀ op w, (s.th c t).pend = .external op w false →
      let k := (s.th c t).progK
      (extCount op w ≤ k.toNat → exec (.externalElement c t) s = .next s) ∧
      (k.toNat < extCount op w →
        (∀ u f, s.attempt c t (extElem op w k.toNat) = (u, .ok (.done f)) → exec (.externalElement c t) s =
          .next (u.updTh c t fun h => { h with progK := h.progK + 1, progFl := h.progFl ||| f })) ∧
        (∀ u, s.attempt c t (extElem op w k.toNat) = (u, .ok .missing) → exec (.externalElement c t) s =
          .next (u.updTh c t fun h => { h with progK := h.progK + 1, progMiss := true })) ∧
        (∀ u, s.attempt c t (extElem op w k.toNat) = (u, .ok .failed) → exec (.externalElement c t) s =
          .next (u.updTh c t fun h => { h with pend := .external op w true })) ∧
        (∀ u f, s.attempt c t (extElem op w k.toNat) = (u, .error (some f)) → exec (.externalElement c t) s =
          .next (u.takeTrap c t (s.th c t).pcOf f.1 f.2)))) ∧
    (∀ (id : Nat) (x : Xfer), (s.core c).xfers.find? (fun y => y.id = id) = some x →
      (∀ i, i ∈ x.todo → x.fail = none → ∀ u p, s.xferValue c x (i / psNC x.desc) (i % psNC x.desc) = (u, .ok p) →
        let put := if x.push then u.xferPutLocal x (i / psNC x.desc) (i % psNC x.desc) p.1
          else u.xferPutDev c x (i / psNC x.desc) (i % psNC x.desc) p.1
        (∀ z v, put = (z, .ok v) → exec (.transferElement c id i) s = .next (z.updCore c fun k => k.updXfer id fun x =>
          { x with todo := x.todo.filter fun j => j != i, flags := x.flags ||| p.2 })) ∧
        (∀ z cause, put = (z, .fails cause) → exec (.transferElement c id i) s = .next (z.updCore c fun k => k.updXfer id fun x =>
          { x with fail := some cause }))) ∧
      (x.todo ≠ [] → x.fail = none → exec (.transferEnd c id) s = .next s) ∧
      ((x.todo = [] ∨ x.fail ≠ none) → psMben x.desc = false →
        let status := BitVec.ofNat 64 ((match x.fail with | some f => 2 + f.toNat * 2 ^ 16 | none => 0) + x.flags.toNat * 2 ^ 8)
        exec (.transferEnd c id) s = .next (s.updCore c fun k =>
          let l := if x.past then k.ended else k.ended ++ [(x.ticket, status)]
          { k with xfers := k.xfers.filter fun y => y.id != id, ended := l.drop (l.length - 64) }))) ∧
    (∀ (st : Fin 12) (addr : BitVec 36) (col write : Bool), exec (.sectorLineAccess st addr col write) s =
      .next (match s.leafTo st.val (st.val * 2 ^ 36 + addr.toNat) with
        | some t => s.touch st.val t.ctx (t.page * 2 ^ levelLo t.level + (st.val * 2 ^ 36 + addr.toNat - ptePA t.pte))
            (st.val * 2 ^ 36 + addr.toNat) 1 col write
        | none => s.lineAccess ((st.val * 2 ^ 36 + addr.toNat) / 1024) 0 col write 1)))

/-- The steps of the matrix unit (R211, R213, R232, R242, R252 to R256): the arbiter takes the command whose turn it is, the
oldest command taken is executed unless an earlier one on its operand is not complete, an executed one with no row deferred
completes and its thread's results stand, and a line that arrives serves the rows that wait for it. The steps of channels and
barriers (R325, R328, R333, R342, R343, R347, R352, R355): the first staged record of an open output lands at the input of its connection,
behind the sender's relaxed stores, credit returns, a delivery held by a restore goes on; arrivals combine toward the corner, which releases every participant,
and a release ends a wait; an arrival of another shape breaks the generation. These rest on readings of the model: a record stays staged
where its connection does not answer, and credit of another connection or outside OPEN and PENDING is dropped (assumption 18); a broken
notice reaches every corner in one turn, and a corner that has had one fires no more (assumption 19); an HDRAIN image is written
whole at its acknowledgement, and a command keeps what it found until it completes (assumption 28). -/
def Obligations.MatrixAndChannelEvents : Prop :=
  (∀ (s : State) (o : OctName) (id : Nat),
    let q := s.octet o
    ((q.cmds.any fun c => c.stage = .taken) = true → exec (.arbiterTake o) s = .next s) ∧
    (q.nextVisit = none → exec (.arbiterTake o) s = .next s) ∧
    (∀ v c, (q.cmds.any fun c => c.stage = .taken) = false → q.nextVisit = some v →
      q.cmds.find? (fun c => c.core.val = v % 8 && c.stage = .queued) = some c → c.op ≠ .mmaad →
        exec (.arbiterTake o) s = .next (s.updOctet o fun _ =>
          { q with
              pass := (v + 1) % 120 / 8, visit := (v + 1) % 120 % 8,
              cmds := (q.cmds.filter fun d => d.stage != .queued) ++ [{ c with stage := .taken, rows := [] }] ++
                q.cmds.filter fun d => d.stage = .queued && d.id != c.id })) ∧
    (∀ c, q.cmds.find? (fun c => c.stage = .taken) = some c →
      exec (.matrixExecute o) s = .next (if q.blocked c then s else (s.runCmd o c).keepOld s o c)) ∧
    (∀ c, q.cmds.find? (fun c => c.id = id) = some c →
      ((c.stage ≠ .executed ∨ c.rows ≠ []) → exec (.matrixComplete o id) s = .next s) ∧
      (c.op.waits = true → q.replaysBefore c = true → exec (.matrixComplete o id) s = .next s) ∧
      (c.stage = .executed → c.rows = [] → (c.op.waits = false ∨ q.replaysBefore c = false) →
        exec (.matrixComplete o id) s = .next ((s.updOctet o fun q => q.dropCmd id).updTh (c.name o) .x fun h =>
          if h.mx = .asked id then { h with mx := .done c } else h))) ∧
    (∀ c, q.cmds.find? (fun c => c.id = id && c.stage = .draining) = some c →
      let bytes := (List.range 256).flatMap fun i => bytesOf 4 ((q.handle (sH c.a)).at_ i).toNat
      let va := s.imageVA q.owner o (sH c.a)
      let w := s.microWrite (clusterStation o.cl) q.owner va bytes (.drain o id)
      (w.2 = .wait → exec (.hdrainImageAck o id) s = .next w.1) ∧
      (∀ b, w.2 = .ok b → exec (.hdrainImageAck o id) s =
        .next ((w.1.updOctet o fun q => q.updHandle (sH c.a) fun x => { x with st := .live }).finish o c))) ∧
    (∀ key, (q.fills.find? fun f => f.key = key) = none → exec (.adapterFillArrival o key) s = .next s) ∧
    (∀ key f, q.fills.find? (fun f => f.key = key) = some f → ∀ u bytes, s.readLine o f = (u, .ok bytes) →
      exec (.adapterFillArrival o key) s = .next ((((u.updOctet o fun q => { q with fills := q.fills.filter fun x => x != f }).updOctet o
        fun q => (q.install ⟨f.key, f.entry, bytes, false, []⟩).serve)).updCore (.compute o f.core) fun k =>
          { k with cnt := { k.cnt with fills := bump true k.cnt.fills } })) ∧
    (q.turn? = none → exec (.rowReplay o) s = .next s) ∧
    (∀ c r, q.turn? = some (c, r) → ((c.needs r).any fun n => (q.line? c.id n.1 n.2).isNone) = true → exec (.rowReplay o) s = .next s) ∧
    (∀ c r, q.turn? = some (c, r) → ((c.needs r).any fun n => (q.line? c.id n.1 n.2).isNone) = false →
      let rows := r :: (c.rows.drop 1).filter fun r => (c.needs r).all fun n => (q.line? c.id n.1 n.2).isSome
      ∀ u, s.checkParts o (c.tileParts rows) = (u, none) →
        let t := (rows.foldl (fun (x : State) r => x.runRow o c r) u).updCore (c.name o) fun k =>
          { k with cnt := { k.cnt with replays := rows.foldl (fun n _ => bump true n) k.cnt.replays } }
        let more := (t.core (c.name o)).cnt.minus (s.core (c.name o)).cnt
        exec (.rowReplay o) s = .next (t.updOctet o fun q => (((rows.flatMap c.needs).foldl (Octet.touch c.id) q).updCmd c.id fun x =>
          { x with
              rows := x.rows.filter fun r => !rows.contains r,
              old := x.old.map fun w => { w with counted := w.counted.plus more } }).serve))) ∧
  (∀ (s : State) (c : CoreName) (ch : Fin 16) (k : Fin 4),
    (∀ (i : Instr) (st : EpState), (i, st) ∈ [(Instr.recordDelivery c ch, EpState.opened), (.deliveryResume c ch, .pending)] →
      let e := (s.core c).outEp ch
      (e.st ≠ st → exec i s = .next s) ∧
      (e.st = st → (s.vacating c).any (fun v => v.saving) = false → ∀ r rest, e.staging = r :: rest →
        (s.targetOf c e.decl.peer = .held → exec i s = .next (s.updOut c ch fun e => { e with st := .pending })) ∧
        (∀ t, s.targetOf c e.decl.peer = .core t →
          let p := (s.core t).inEp e.decl.peerch
          exec i s = .next (if p.st = .opened ∧ p.conn = e.conn then
            if (s.ackAll c).storeBefore c ch e r then s.ackAll c
            else ((s.ackAll c).updOut c ch fun e => { e with st := .opened, staging := rest }).landRecord t e.decl.peerch r
          else s)))) ∧
    (∀ m, s.router.find? (fun m => m.ch = ch && s.goesTo m = .core c && match m.what with | .credit _ _ => true | _ => false) = some m →
      ∀ r sp, m.what = .credit r sp → exec (.creditReturn c ch) s =
        .next (State.updOut { s with router := s.router.erase m } c ch fun e =>
          if (e.st = .opened ∨ e.st = .pending) ∧ e.conn = m.conn then { e with mfree := e.mfree + r, sfree := e.sfree + sp, sout := e.sout - sp } else e)) ∧
    (let b := (s.core c).bar k
     let p := (s.core c).cell (CoreIdx c)
     (s.groupOf c = none → ∀ i ∈ [Instr.barrierArrivalCombine c k, .barrierCornerFire c k, .barrierBrokenNotice c k], exec i s = .next s) ∧
     (∀ g, s.groupOf c = some g →
      (b.complete p.1 p.2 = true → ∀ n, g.nextHop b.shape p.1 p.2 = some n → exec (.barrierArrivalCombine c k) s =
        .next ((s.updBar c k Bar.combined).updBar n.1 k fun q => { q with inbox := q.inbox ++ [⟨b.shape, b.gen, n.2⟩] })) ∧
      (b.complete p.1 p.2 = true → g.nextHop b.shape p.1 p.2 = none → b.fired = false → exec (.barrierCornerFire c k) s =
        .next ((s.updBar c k fun b => { b.combined with fired := true }).sendRelease g k b.shape false)) ∧
      (∀ m, b.inbox.find? b.breaks = some m → exec (.barrierBrokenNotice c k) s =
        (let t := (s.updBar c k fun b => { b with inbox := b.inbox.erase m }).notice g k b.shape b.gen
         .next (if m.shape = b.shape ∧ m.gen = b.gen then t else t.notice g k m.shape m.gen)))) ∧
     (∀ rest, (s.core c).pairFollows = false → s.pairOf c = none → b.releases = false :: rest → exec (.barrierReleaseReceipt c k) s = .next (s.updBar c k fun b =>
       if b.st = .arrived then { b with releases := rest, st := .done, gen := b.gen + 1, fired := false, forwarded := false }
       else { b with releases := rest })) ∧
     (∀ rest, (s.core c).pairFollows = false → s.pairOf c = none → b.releases = true :: rest → b.forwarded = false → exec (.barrierBrokenRelease c k) s =
       .next (if b.st = .arrived ∨ b.st = .idle then
         (s.updBar c k fun b => { b with releases := rest }).updBar c k fun b => { b with st := .broken, forwarded := false, fired := false }
         else s.updBar c k fun b => { b with releases := rest }))))

/-- The steps of placement and of the context engines (R360 to R364, R373, R403 to R406, R411, R412): a write of PLACE starts a
cast-on; an octet is loaded, and with the last one the group starts; a failed image read cancels the group; a first group that
does not fit is kept, and nothing is placed in its cluster until there is room; a vacating group is stopped, saved and restored;
the window maps and the isolation settings are written. The steps of the queues, the stations, the ports and the host (R386 to
R390, R399, R424 to R427, R434, R439 to R454): a range request is served or waits, a walk ends, a fault is posted, a port
changes its state, a frame is classified, a host command is taken. These rest on readings of the model: a blocked group is kept while it is
PENDING (assumption 20), which of the waiting records arrives next is open and a bind-off ends with its record (assumption 22), a walk
that meets a bad table entry fails its requests (assumption 26), and a frame that bad rules or a bad entry would classify is counted as a
drop (assumption 29). -/
def Obligations.PlacementAndOutsideEvents : Prop :=
  (∀ (s : State) (cl : Fin 16) (o : OctName) (w : Word) (key : GroupKey) (ctx kid : Nat),
    (((s.cluster cl).stopped = true ∨ (s.cluster cl).placeStatus = 1) → exec (.placeCastOn cl w) s = .next s) ∧
    ((s.cluster cl).stopped = false → (s.cluster cl).placeStatus ≠ 1 →
      let t := s.updCluster cl fun q => { q with placeRec := BitVec.ofNat 11 (bits w.toNat 5 11) }
      let at_ := localBase (.control cl) + 32 * bits w.toNat 5 11
      (bits w.toNat 0 2 ≠ 1 → exec (.placeCastOn cl w) s = .next t) ∧
      (bits w.toNat 0 2 = 1 → s.intact → exec (.placeCastOn cl w) s = .next (t.castOn cl (PlaceRec.ofWords (s.words at_ 4))))) ∧
    (s.castingAt o = none → exec (.castOnOctetLoaded o) s = .next s) ∧
    (∀ g k, s.castingAt o = some (g, k) → g.loaded.contains o.oct.val = false → s.octetRuns o = true → s.mayLoad g = true →
      ∀ u b, s.loadImage g k o = (u, .ok b) →
        let v := ((List.range 8).foldl (fun (s : State) x => s.updCore (.compute o (Fin.ofNat 8 x)) fun c =>
          c.loaded s.cycle g k o (Fin.ofNat 8 x)) u).updGroup g.key fun g => { g with loaded := g.loaded ++ [o.oct.val] }
        exec (.castOnOctetLoaded o) s = .next (if g.loaded.length + 1 = g.h * g.w then v.startGroup g k else v)) ∧
    ((s.groups.find? fun g => g.st = .casting && g.cl = cl) = none → exec (.castOnImageFailure cl) s = .next s) ∧
    (∀ g k, s.groups.find? (fun g => g.st = .casting && g.cl = cl) = some g → s.kernel? g.key.ctx g.key.kid = some k →
      ∀ x rest, (g.octets.filter fun o => !g.loaded.contains o.oct.val && s.octetRuns o && s.mayLoad g) = x :: rest →
        ∀ t cause, s.loadImage g k x = (t, .fails cause) →
          exec (.castOnImageFailure cl) s = .next ((t.bindOff g.key true true).setPlace cl 3 5 none)) ∧
    exec (.priorityAging ctx kid) s = .next (s.updKernel ctx kid fun k =>
      if k.st = .ready ∨ k.st = .running then { k with eprio := min 3 (k.prio + (s.cycle - k.readyAt) / 80000) } else k) ∧
    (((s.cluster cl).stopped = true ∨ (s.cluster cl).placeStatus = 1 ∨ s.life.powerLimit = true) →
      exec (.groupPlacement cl) s = .next s) ∧
    (∀ b k, (s.cluster cl).blocked = some b → s.kernel? b.ctx b.kid = some k → s.groupPending b.ctx k b.gid = true →
      exec (.groupPlacement cl) s = .next s) ∧
    ((s.cluster cl).stopped = false → (s.cluster cl).placeStatus ≠ 1 → s.life.powerLimit = false → s.blockedAt cl = false →
      let t := s.ctxs.foldl (fun (s : State) c => c.2.kernels.foldl (fun (s : State) k => s.age c.1 k.kid) s) s
      (t.firstGroup cl = none → exec (.groupPlacement cl) s = .next t) ∧
      (∀ e, t.firstGroup cl = some e → t.fit cl e.1.1 e.1.2 = none → exec (.groupPlacement cl) s =
        .next (t.updCluster cl fun q => { q with blocked := some ⟨e.1.1, e.1.2.kid, e.2⟩ })) ∧
      (∀ e p, t.firstGroup cl = some e → t.fit cl e.1.1 e.1.2 = some p → exec (.groupPlacement cl) s =
        .next (t.castOn cl ⟨BitVec.ofNat 64 (e.2 + e.1.1 * 2 ^ 24), BitVec.ofNat 64 e.1.2.block,
          BitVec.ofNat 64 (p.1 + p.2 * 2 ^ 8), 0⟩))) ∧
    exec (.vacateDeadline key) s = .next (s.updGroup key fun g => { g with vac := g.vac.map fun v =>
      if v.at_ + 160000 ≤ s.cycle ∧ v.saving = false then { v with deadline := true, status := if v.status = 0 then 1 else v.status }
      else v }) ∧
    (∀ g v, s.group? key = some g → g.vac = some v →
      (v.saving = false → g.st = .running → (g.cores.all s.stopped) = true → exec (.contextSaveBegin key) s =
        .next (g.cores.foldl State.withdraw (s.updGroup key fun g => { g with vac := some { v with saving := true } }))) ∧
      ((g.cores.all s.stopped) = false → exec (.contextSaveBegin key) s = .next s) ∧
      (v.saving = false → exec (.contextSaveComplete key) s = .next s) ∧
      (v.saving = true → g.st = .running → s.saveReady g = true →
        let t := g.cores.foldl (fun (s : State) c => s.ackAll c) s
        (t.acked g = false → exec (.contextSaveComplete key) s = .next t) ∧
        (t.acked g = true → ∀ u b, runAll ((List.range (g.h * g.w)).map fun i => fun s : State => s.writeSkein g v.status i) t = (u, .ok b) →
          exec (.contextSaveComplete key) s = .next (u.saved g v)))) ∧
    ((s.cluster cl).placeOp = none → exec (.restoreComplete cl) s = .next s) ∧
    (∀ gid po s0, (s.cluster cl).placeOp = some (.check ctx gid po s0) →
      exec (.restoreComplete cl) s = .next (if (s.cluster cl).stopped then s else s.tryRestore cl ctx gid po s0)) ∧
    (∀ po g, (s.cluster cl).placeOp = some (.restore key po) → s.group? key = some g → ((rectOctets cl po g.h g.w).all s.octetRuns) = true →
      ∀ u b, runAll ((List.range (g.h * g.w)).map fun i => fun s : State => s.readSkein g po i) s = (u, .ok b) →
        exec (.restoreComplete cl) s = .next (u.restored g po)) ∧
    (let v := w.toNat
     let c := bits v 2 12
     let sel := s.updCluster cl fun q => { q with ctxmapCtx := BitVec.ofNat 12 c, ctxmapSlot := BitVec.ofNat 5 (bits v 14 5) }
     (s.ctxmapKeeps cl v = true → ∀ i ∈ [Instr.ctxmapSelect cl w, .ctxmapWriteSlot cl w, .ctxmapWriteSab cl w], exec i s = .next s) ∧
     (s.ctxmapKeeps cl v = false →
      (bits v 0 2 = 0 → exec (.ctxmapSelect cl w) s = .next sel) ∧
      (bits v 0 2 = 1 → exec (.ctxmapWriteSlot cl w) s = .next (((sel.setSlots c cl (bits v 14 5)
        [if bits v 19 5 = 31 then .empty else .mapped (Fin.ofNat 24 (bits v 19 5))]).updCluster cl
          fun q => { q with blocked := if bits v 19 5 = 31 then none else q.blocked }).connectAll)) ∧
      (bits v 0 2 = 2 → exec (.ctxmapWriteSab cl w) s = .next (sel.updCtx c fun x => { x with sab := BitVec.ofNat 38 (bits v 26 38) })))) ∧
    (let v := w.toNat
     let sel := s.updCluster cl fun q => { q with isoCtx := BitVec.ofNat 12 (bits v 0 12) }
     (w.getLsbD 12 = false → exec (.isocfgSelect cl w) s = .next sel ∧ exec (.isocfgSet cl w) s = .next s) ∧
     (w.getLsbD 12 = true → exec (.isocfgSelect cl w) s = .next s ∧
      exec (.isocfgSet cl w) s = .next (if s.isocfgKeeps v then s else (sel.updCtx (bits v 0 12) fun c =>
        { c with iso := v.testBit 13, sc := BitVec.ofNat 6 (bits v 14 6), tc := BitVec.ofNat 6 (bits v 20 6),
                 bw := BitVec.ofNat 7 (bits v 26 7), fix := v.testBit 33 }).fitShares)))) ∧
  (∀ (s : State) (die : Fin 4) (st : Fin 12) (cl : Fin 16) (p : PortName) (lanes : Nat) (ctx : BitVec 12),
    (nextArrival (s.die die.val).arriving = none → exec (.rangeRequestArrival die) s = .next s) ∧
    (∀ r, nextArrival (s.die die.val).arriving = some r → exec (.rangeRequestArrival die) s =
      .next (((s.updDie die.val fun u => { u with arriving := u.arriving.erase r }).updDie die.val fun u =>
        u.upd r.g.ctx r.g.kid fun q => { q with waiting := q.waiting ++ [r] }).serveGroup die.val r.g.ctx r.g.kid r.g.gid)) ∧
    ((∀ r ∈ (s.die die.val).states, r.waiting = []) → exec (.rangeStep die) s = .next s) ∧
    (∀ r, (s.die die.val).states = [r] → r.waiting ≠ [] → exec (.rangeStep die) s = .next (s.rangeStepOf die.val r.ctx r.kid)) ∧
    (let held := (s.die die.val).heldReturns
     let tasks := (s.die die.val).tasks
     exec (.rangeReturnHeld die) s = .next (s.updDie die.val fun u =>
       { u with tasks := tasks ++ held.take (64 - tasks.length), heldReturns := held.drop (64 - tasks.length) })) ∧
    exec (.eventHeldStore cl) s = .next ((s.takeComing cl).storeHeld cl).settleBinds ∧
    ((s.station st.val).walks = [] → exec (.stationWalkEnd st) s = .next s) ∧
    (∀ w rest, (s.station st.val).walks = w :: rest →
      let same := fun x : Walk => x.ctx = w.ctx && x.va / 2 ^ 16 = w.va / 2 ^ 16
      let e := s.walk st.val w.ctx w.va
      let l := (s.station st.val).walks.filter same
      let served := fun t : State => t.updStation st.val fun q => { q with walks := q.walks.filter fun x => !same x }
      let u := served (s.fillTlb st.val w.ctx w.va e)
      ((s.resident w.ctx = false ∨ (s.cachedLeaf st.val w.ctx w.va).isSome = true) → exec (.stationWalkEnd st) s = .next (served s)) ∧
      (s.resident w.ctx = true → s.cachedLeaf st.val w.ctx w.va = none →
      (e.code = 0 → exec (.stationWalkEnd st) s = .next u) ∧
      (e.code ≠ 0 → ∀ cause, e.eccCause = some cause → exec (.stationWalkEnd st) s =
        .next (u.updStation st.val fun q => { q with failed := q.failed ++ l.map fun x => (x.req, cause) })) ∧
      (e.code ≠ 0 → e.eccCause = none → exec (.stationWalkEnd st) s =
        .next (l.foldl (fun (s : State) x => s.waitFault st.val x.ctx x.va e.code x.wr x.req) u)))) ∧
    (∀ e rest, (s.station st.val).full = e :: rest →
      (64 ≤ (s.station st.val).faults.length → exec (.faultQueueRoom st) s = .next s) ∧
      ((s.station st.val).faults.length < 64 → exec (.faultQueueRoom st) s = .next (match joinFault (s.station st.val).faults e with
        | some l => s.updStation st.val fun q => { q with faults := l, full := rest }
        | none => ((s.updStation st.val fun q => { q with faults := q.faults ++ [e], full := [] }).kickService st.val).updStation st.val
            fun q => { q with full := rest }))) ∧
    (∀ (va : BitVec 60) (n : Nat) (data : List Byte),
      exec (.remoteRequest ctx va (.read n)) s = .next (s.microRead 0 ctx.toNat va.toNat n (.remote ctx.toNat va.toNat)).1 ∧
      exec (.remoteRequest ctx va (.write data)) s = .next (s.microWrite 0 ctx.toNat va.toNat data (.remote ctx.toNat va.toNat)).1) ∧
    (let q := s.port p
     (q.st = .training → p.real = true →
       exec (.portTrainingEnd p lanes) s = .next (if p.lanes ≤ lanes then s.setPort p .up p.lanes
         else if p.lanes ≤ 2 * lanes ∧ p.kind ≠ .frame then s.setPort p .degraded lanes else s.setPort p .failed 0)) ∧
     (q.st = .training → exec (.portTrainingTimeout p) s = .next (s.setPort p .failed 0)) ∧
     (q.live = true → lanes < q.lanes →
       exec (.portLaneLoss p lanes) s = .next (if p.lanes ≤ 2 * lanes ∧ p.kind ≠ .frame then (s.retrain p).setPort p .degraded lanes
         else s.setPort p .failed 0)) ∧
     (q.live = true → exec (.portFailure p) s = .next (s.setPort p .failed 0)) ∧
     (q.live = false → exec (.portLaneLoss p lanes) s = .next s ∧ exec (.portFailure p) s = .next s)) ∧
    (∀ (sec : BitVec 48) (ns : BitVec 32) (frac : BitVec 16) (lock : Bool), s.life.mstop = false → 7 ≤ s.life.bootStep →
      let new := sec.toNat * 1000000000 + ns.toNat
      exec (.ptpMessage sec ns frac lock) s =
        .next (if (s.ctxs.any fun c => c.1 != 0 && c.2.resident) = true ∨ 1000000000 ≤ ns.toNat ∨ new < s.nowNs ∨
            (new = s.nowNs ∧ frac.toNat < s.time.frac) then { s with time := { s.time with locked := lock } }
          else { s with time := ⟨sec, ns.toNat, frac.toNat, lock⟩ })) ∧
    (∀ (f : Fin 4) (frame : List Byte),
      ((s.port ⟨.frame, Fin.ofNat 18 f.val⟩).st ≠ .up → ∀ good, exec (.frameIngress f frame good) s = .next s) ∧
      ((s.port ⟨.frame, Fin.ofNat 18 f.val⟩).st = .up →
        exec (.frameIngress f frame false) s = .next { s with badFrames := s.badFrames + 1 } ∧
        (s.badRules = true → ∃ t, exec (.frameIngress f frame true) s = .next t ∧ t.ruleDrops = s.ruleDrops + 1 ∧ t.mem = s.mem) ∧
        (s.badRules = false → s.ruleOf f frame = none → exec (.frameIngress f frame true) s = .next s) ∧
        (∀ c, s.badRules = false → s.ruleOf f frame = some c →
          (c.getLsbD 28 = true → exec (.frameIngress f frame true) s = .next { s with ruleDrops := s.ruleDrops + 1 }) ∧
          (c.getLsbD 28 = false → (∀ g ∈ granules (frameEntryAt s.frameBank (bits c.toNat 20 8)) 32, s.mark g = .ok) →
            let n := bits c.toNat 20 8
            let e := s.frameEntry s.frameBank n
            let found := s.frameSlot f e (s.frameQ n) (64 + e.cap frame)
            (∀ t l, found = (t, .ok l) →
              exec (.frameIngress f frame true) s = .next (t.frameLand f n e l (bits c.toNat 4 16) s.time frame)) ∧
            (∀ t why, found = (t, .error why) →
              exec (.frameIngress f frame true) s = .next (t.frameDrop f n e why (bits c.toNat 4 16) frame.length)))))) ∧
    (∀ w : Word, s.memOk → s.intact → ∃ t, exec (.frameBankFlip w) s = .next t ∧ t.frameBank = w.getLsbD 0 ∧
      t.mem = (s.store 0x3FF000 8 w.toNat).mem ∧ ∀ q < 256, t.frameQ q =
        if s.frameBank ≠ w.getLsbD 0 ∧ s.frameEntry false q ≠ s.frameEntry true q ∧
            ((s.frameEntry false q).enabled || (s.frameEntry true q).enabled) = true then FrameQ.init
        else s.frameQ q) ∧
    (∀ b (tail : BitVec 32), (s.ctx ctx.toNat).hostBlock = some b →
      exec (.hostTailKick ctx tail) s = .next ((s.storePA b 4 tail.toNat).ring (s.hostCore ctx.toNat) 1 none 0)) ∧
    (s.hostEntry ctx.toNat = none → exec (.hostCmdLaunch ctx) s = .next s ∧ exec (.hostCmdCancel ctx) s = .next s) ∧
    (∀ ws, s.hostEntry ctx.toNat = some ws → (∀ p ∈ s.hostPlaces ctx.toNat, ∀ g ∈ granules p.1 p.2, s.mark g = .ok) →
      let w := ws.getD 1 0
      let tag := ws.getD 2 0
      let op := bits (ws.getD 0 0).toNat 0 8
      (hostBad ctx.toNat ws = true → ∀ i ∈ [Instr.hostCmdLaunch ctx, .hostCmdCancel ctx],
        exec i s = .next (s.hostTaken ctx.toNat tag (BitVec.ofNat 64 (4 * 2 ^ 40)))) ∧
      (hostBad ctx.toNat ws = false → op = 1 → ctx ≠ 0 → w.toNat < 2 ^ 60 → w.toNat % 64 = 0 →
        let host := (s.ctx ctx.toNat).hostCl
        (∀ t code, s.launchCheck host ctx.toNat w.toNat = (t, .refused code) → exec (.hostCmdLaunch ctx) s =
          .next ((t.post host 2 0 ctx.toNat code w none).hostTaken ctx.toNat tag (launchWord 0 code))) ∧
        (∀ t k, s.launchCheck host ctx.toNat w.toNat = (t, .good k) →
          let r := t.register ctx.toNat k host none
          let u := r.1.hostTaken ctx.toNat tag (launchWord r.2.1 r.2.2)
          exec (.hostCmdLaunch ctx) s =
            .next (if r.2.2 = 0 then u.updKernel ctx.toNat r.2.1 fun k => { k with hostTag := some tag } else u))) ∧
      (hostBad ctx.toNat ws = false → op = 2 →
        (s.object ctx.toNat (owLevel w) (owId w) = .unknown → exec (.hostCmdCancel ctx) s = .next (s.hostTaken ctx.toNat tag 0xFE)) ∧
        (∀ e, s.object ctx.toNat (owLevel w) (owId w) = .ended e → exec (.hostCmdCancel ctx) s = .next (s.hostTaken ctx.toNat tag 1)) ∧
        (s.object ctx.toNat (owLevel w) (owId w) = .going → owLevel w = 0 →
          exec (.hostCmdCancel ctx) s = .next ((s.cancelKernel ctx.toNat (owId w) false).hostTaken ctx.toNat tag 0)))) ∧
    (∀ ws (block ring cpl : BitVec 52) (szl : BitVec 4), s.hostEntry 0 = some ws → hostBad 0 ws = false →
      (∀ p ∈ s.hostPlaces 0, ∀ g ∈ granules p.1 p.2, s.mark g = .ok) →
      let new := bits (ws.getD 1 0).toNat 0 12
      let tag := ws.getD 2 0
      (bits (ws.getD 0 0).toNat 0 8 = 3 → new ≠ 0 → s.resident new = false →
        (s.ctxs.filter fun c => c.1 != 0 && c.2.resident).length < 64 → hostPlaceOk block ring cpl szl = true →
          exec (.hostCmdAdmit block ring cpl szl cl) s =
            .next ((s.admitCtx new (ws.getD 3 0).toNat block.toNat cl (hostBlockWords new ring cpl szl cl)).hostTaken 0 tag
              (BitVec.ofNat 64 block.toNat))) ∧
      (bits (ws.getD 0 0).toNat 0 8 = 4 → exec .hostCmdRelease s =
        .next (if new = 0 ∨ (s.ctx new).resident = false ∨ s.contextBusy new = true then s.hostTaken 0 tag 1
          else (s.releaseCtx new).hostTaken 0 tag 0))))

/-- The life of the device (R16, R20, R414, R438, R457 to R465): power-on tries the active slot and then the other and halts
with neither accepted; power loss keeps flash, selector, fuses and the host's and the expanders' memories; attestation, update,
islands, faults of parts and the power limit act only under a running management core. A host store to a queue block, by whichever name
of its bytes, keeps every field that the host may not write and kicks for a TAIL that it covers (R439). What a power loss keeps, how parts
and islands are numbered, in which order a failed update goes back and when an island counts as idle are the model's choices
(assumption 30). -/
def Obligations.DeviceEvents : Prop :=
  ∀ (s : State) (bo bc : List Nat) (n : Fin 1024) (part : Fin 592) (cl : Fin 16),
    (s.life.powered = true → exec (.powerOn bo bc) s = .next s) ∧
    (s.life.powered = false →
      let on := sharedCores.foldl (fun (s : State) c => s.updCore c fun k => { k with islandStart := s.cycle })
        { s with life := { s.life with powered := true } }
      let a := s.life.selectB
      (∀ im, s.life.slot a = some im → exec (.powerOn bo bc) s = .next (State.bootWith { on with life := { on.life with slotB := a } } im bo bc)) ∧
      (s.life.slot a = none → ∀ im, s.life.slot (!a) = some im →
        exec (.powerOn bo bc) s = .next (State.bootWith { on with life := { on.life with slotB := !a } } im bo bc)) ∧
      (s.life.slot a = none → s.life.slot (!a) = none → exec (.powerOn bo bc) s = .next { on with life := { on.life with status := 2 } })) ∧
    (∃ t, exec .powerLoss s = .next t ∧
      t.life = { Life.init with
        flashA := s.life.flashA, flashB := s.life.flashB, selectB := s.life.selectB, minVersion := s.life.minVersion } ∧
      t.cores = State.reset.cores ∧ t.mem = s.mem.filter fun m => decide (2 * 2 ^ 48 ≤ m.1 ∧ m.1 < 4 * 2 ^ 48)) ∧
    (s.managed = true →
      (∀ w : I3cWrite,
        let l := { s.life with nonce := nonceAfter s.life.nonce w.off w.data }
        let asks := w.off ≤ 0x30 ∧ w.data[0x30 - w.off]? = some 1 ∧ s.life.attreq ≠ 1
        (asks → exec (.attestationRequest w) s = .next { s with life := { l with attreq := 1, asked := l.nonce } }) ∧
        (¬asks → exec (.attestationRequest w) s = .next { s with life := l })) ∧
      (s.life.attreq = 1 → ∃ sig : List Byte, exec .attestationReport s =
        .next { s with life := { s.life with report := s.reportBody ++ padTo 16608 sig, attreq := 2 } }) ∧
      (∀ im, s.life.updating = false →
        let put := fun (l : Life) v => if s.life.selectB then { l with flashA := v } else { l with flashB := v }
        (s.life.accepts im = true → exec (.updateImageWrite im) s =
          .next { s with life := { put s.life (some im) with updating := true, upfail := false, next := some im } }) ∧
        (s.life.accepts im = false → exec (.updateImageWrite im) s = .next { s with life := put s.life none })) ∧
      (s.life.updating = true → (s.cluster cl).placeStatus ≠ 1 → (s.th (.control cl) .a).superTrap = false → (s.cluster cl).stopped = false →
        (∀ ok, s.life.rolling = true → (∀ c ∈ allClusters, (s.cluster c).newFw = decide (c.val ≤ cl.val)) →
          exec (.updateClusterSwitch cl ok) s = .next (s.rollBack cl)) ∧
        (s.life.rolling = false → (∀ c ∈ allClusters, (s.cluster c).newFw = decide (c.val < cl.val)) →
          exec (.updateClusterSwitch cl false) s = .next (s.rollBack cl) ∧
          (let t := (s.updCluster cl fun q => { q with newFw := true }).bootControl cl
           exec (.updateClusterSwitch cl true) s = .next (if cl.val = 15 then t.commitUpdate else t)))) ∧
      (s.islandRetired n.val = false → s.islandRuns n.val = false → exec (.islandStart n) s =
        .next ((islandCores n.val).foldl (fun (s : State) c => s.updCore c fun k => { k with islandStart := s.cycle })
          (s.setIsland n.val true))) ∧
      (s.islandRuns n.val = true → s.islandIdle n.val = true → exec (.islandStopRequest n) s = .next (s.islandOff n.val)) ∧
      (∀ o half, islandOf n.val = .octet o half → s.islandRuns n.val = true → (s.octet o).owner = 0 → s.standing o = none →
        ((s.octet o).retired = true ∨ (s.octet o).freeSince + 800000 ≤ s.cycle) →
          exec (.islandIdleStop n) s = .next (s.islandOff n.val)) ∧
      (Tbl.get false s.life.retiredParts part.val = false →
        (part.val < 400 →
          (∀ o, s.octetOf part.val = some o → exec (.partFault part) s = .next ((s.retirePart part.val).evacuate o)) ∧
          (s.octetOf part.val = none → exec (.partFault part) s = .next (s.retirePart part.val))) ∧
        (400 ≤ part.val → exec (.partFault part) s =
          .next (((s.endCore (.memory (Fin.ofNat 12 ((part.val - 400) / 16)) (Fin.ofNat 16 (part.val - 400)))).retirePart part.val).islandOff
            (768 + (part.val - 400))))) ∧
      ((s.cluster cl).stopped = true → exec (.controlCoreReset cl) s =
        .next (((s.updCluster cl fun q => { q with stopped := false }).bootControl cl).storeHeld cl).settleBinds) ∧
      (∀ r, exec (.packagePowerLimit r) s = .next { s with life := { s.life with powerLimit := r } })) ∧
    (s.life.powered = true → s.managed = false → ∀ w : I3cWrite, exec (.attestationRequest w) s =
      .next { s with life := { s.life with nonce := nonceAfter s.life.nonce w.off w.data } }) ∧
    (s.managed = false → ∀ i ∈ [Instr.attestationReport, .islandStart n, .islandIdleStop n, .islandStopRequest n, .partFault part,
        .controlCoreReset cl, .packagePowerLimit true], exec i s = .next s) ∧
    (∀ pa, exec (.hostMemoryAccess pa none) s = .next s) ∧
    (∀ pa data, s.portUp .umval = true →
      (∀ i < data.length, s.blockAt (pa.toNat + i) = none) → exec (.hostMemoryAccess pa (some data)) s =
        (let t := s.writePA (pageParts (data.length / 1024 + 2) pa.toNat data.length) data
         .next (t.ctxs.foldl (fun (t : State) c => t.flushHost c.1 c.2.hostDone.length) t).followBank)) ∧
    (∀ (pa : BitVec 52) (data : List Byte), s.portUp .umval = true →
      let t := s.writePA (pageParts (data.length / 1024 + 2) pa.toNat data.length) (s.hostBytes pa.toNat data)
      let u := (s.tailsIn pa.toNat data.length).foldl (fun (s : State) ctx => s.ring (s.hostCore ctx) 1 none 0) t
      exec (.hostMemoryAccess pa (some data)) s =
        .next (u.ctxs.foldl (fun (t : State) c => t.flushHost c.1 c.2.hostDone.length) u).followBank) ∧
    (∀ (pa : Nat) (data : List Byte) (i : Nat) (ctx off : Nat), i < data.length → s.blockAt (pa + i) = some (ctx, off) →
      (s.hostBytes pa data)[i]? = some (if off < 8 ∨ (36 ≤ off ∧ off < 40) then data.getD i 0
        else s.byte ((homePA (pa + i)).getD (pa + i))))
end

