-- ==== Sys2Proof/Laws/Decode.lean ====
section
/-! SUPPORT. The decoder by major opcode: which checks and which row a word's upper six bits select (R32, R40). -/

namespace Sys2Proof

theorem decode_ok {w : BitVec 32} (h : checkWord w.toNat = none) : decode w = .ok (build w.toNat) := by unfold decode; rw [h]
theorem decode_error {w : BitVec 32} {e : BadWord} (h : checkWord w.toNat = some e) : decode w = .error e := by unfold decode; rw [h]

theorem checkWord_01 {w : Nat} (h : fld w 26 6 = 1) : checkWord w = check01 w := by unfold checkWord; rw [h]; rfl
theorem build_01 {w : Nat} (h : fld w 26 6 = 1) : build w = build01 w := by unfold build; rw [h]; rfl
theorem checkWord_02 {w : Nat} (h : fld w 26 6 = 2) : checkWord w = check02 w := by unfold checkWord; rw [h]; rfl
theorem build_02 {w : Nat} (h : fld w 26 6 = 2) : build w = build02 w := by unfold build; rw [h]; rfl
theorem checkWord_03 {w : Nat} (h : fld w 26 6 = 3) : checkWord w = check03 w := by unfold checkWord; rw [h]; rfl
theorem build_03 {w : Nat} (h : fld w 26 6 = 3) : build w = build03 w := by unfold build; rw [h]; rfl
theorem checkWord_04 {w : Nat} (h : fld w 26 6 = 4) : checkWord w = check04 w := by unfold checkWord; rw [h]; rfl
theorem build_04 {w : Nat} (h : fld w 26 6 = 4) : build w = build04 w := by unfold build; rw [h]; rfl
theorem checkWord_05 {w : Nat} (h : fld w 26 6 = 5) : checkWord w = check05 w := by unfold checkWord; rw [h]; rfl
theorem build_05 {w : Nat} (h : fld w 26 6 = 5) : build w = build05 w := by unfold build; rw [h]; rfl
theorem checkWord_06 {w : Nat} (h : fld w 26 6 = 6) : checkWord w = check06 w := by unfold checkWord; rw [h]; rfl
theorem build_06 {w : Nat} (h : fld w 26 6 = 6) : build w = build06 w := by unfold build; rw [h]; rfl
theorem checkWord_08 {w : Nat} (h : fld w 26 6 = 8) : checkWord w = check08 w := by unfold checkWord; rw [h]; rfl
theorem build_08 {w : Nat} (h : fld w 26 6 = 8) : build w = build08 w := by unfold build; rw [h]; rfl
theorem checkWord_09 {w : Nat} (h : fld w 26 6 = 9) : checkWord w = check09 w := by unfold checkWord; rw [h]; rfl
theorem build_09 {w : Nat} (h : fld w 26 6 = 9) : build w = build09 w := by unfold build; rw [h]; rfl
theorem checkWord_0A {w : Nat} (h : fld w 26 6 = 10) : checkWord w = check0A w := by unfold checkWord; rw [h]; rfl
theorem build_0A {w : Nat} (h : fld w 26 6 = 10) : build w = build0A w := by unfold build; rw [h]; rfl
theorem checkWord_0B {w : Nat} (h : fld w 26 6 = 11) : checkWord w = check0B w := by unfold checkWord; rw [h]; rfl
theorem build_0B {w : Nat} (h : fld w 26 6 = 11) : build w = build0B w := by unfold build; rw [h]; rfl
theorem checkWord_10 {w : Nat} (h : fld w 26 6 = 16) : checkWord w = check10 w := by unfold checkWord; rw [h]; rfl
theorem build_10 {w : Nat} (h : fld w 26 6 = 16) : build w = build10 w := by unfold build; rw [h]; rfl
theorem checkWord_11 {w : Nat} (h : fld w 26 6 = 17) : checkWord w = check11 w := by unfold checkWord; rw [h]; rfl
theorem build_11 {w : Nat} (h : fld w 26 6 = 17) : build w = build11 w := by unfold build; rw [h]; rfl
theorem checkWord_12 {w : Nat} (h : fld w 26 6 = 18) : checkWord w = check12 w := by unfold checkWord; rw [h]; rfl
theorem build_12 {w : Nat} (h : fld w 26 6 = 18) : build w = build12 w := by unfold build; rw [h]; rfl
theorem checkWord_13 {w : Nat} (h : fld w 26 6 = 19) : checkWord w = check13 w := by unfold checkWord; rw [h]; rfl
theorem build_13 {w : Nat} (h : fld w 26 6 = 19) : build w = build13 w := by unfold build; rw [h]; rfl
theorem checkWord_14 {w : Nat} (h : fld w 26 6 = 20) : checkWord w = check14 w := by unfold checkWord; rw [h]; rfl
theorem build_14 {w : Nat} (h : fld w 26 6 = 20) : build w = build14 w := by unfold build; rw [h]; rfl
theorem checkWord_15 {w : Nat} (h : fld w 26 6 = 21) : checkWord w = check15 w := by unfold checkWord; rw [h]; rfl
theorem build_15 {w : Nat} (h : fld w 26 6 = 21) : build w = build15 w := by unfold build; rw [h]; rfl
theorem checkWord_16 {w : Nat} (h : fld w 26 6 = 22) : checkWord w = check16 w := by unfold checkWord; rw [h]; rfl
theorem build_16 {w : Nat} (h : fld w 26 6 = 22) : build w = build16 w := by unfold build; rw [h]; rfl
theorem checkWord_18 {w : Nat} (h : fld w 26 6 = 24) : checkWord w = check18 w := by unfold checkWord; rw [h]; rfl
theorem build_18 {w : Nat} (h : fld w 26 6 = 24) : build w = build18 w := by unfold build; rw [h]; rfl
theorem checkWord_19 {w : Nat} (h : fld w 26 6 = 25) : checkWord w = check19 w := by unfold checkWord; rw [h]; rfl
theorem build_19 {w : Nat} (h : fld w 26 6 = 25) : build w = build19 w := by unfold build; rw [h]; rfl
theorem checkWord_1A {w : Nat} (h : fld w 26 6 = 26) : checkWord w = check1A w := by unfold checkWord; rw [h]; rfl
theorem build_1A {w : Nat} (h : fld w 26 6 = 26) : build w = build1A w := by unfold build; rw [h]; rfl
theorem checkWord_1B {w : Nat} (h : fld w 26 6 = 27) : checkWord w = check1B w := by unfold checkWord; rw [h]; rfl
theorem build_1B {w : Nat} (h : fld w 26 6 = 27) : build w = build1B w := by unfold build; rw [h]; rfl
theorem checkWord_1C {w : Nat} (h : fld w 26 6 = 28) : checkWord w = check1C w := by unfold checkWord; rw [h]; rfl
theorem build_1C {w : Nat} (h : fld w 26 6 = 28) : build w = build1C w := by unfold build; rw [h]; rfl
theorem checkWord_1D {w : Nat} (h : fld w 26 6 = 29) : checkWord w = check1D w := by unfold checkWord; rw [h]; rfl
theorem build_1D {w : Nat} (h : fld w 26 6 = 29) : build w = build1D w := by unfold build; rw [h]; rfl
theorem checkWord_20 {w : Nat} (h : fld w 26 6 = 32) : checkWord w = check20 w := by unfold checkWord; rw [h]; rfl
theorem build_20 {w : Nat} (h : fld w 26 6 = 32) : build w = build20 w := by unfold build; rw [h]; rfl
theorem checkWord_21 {w : Nat} (h : fld w 26 6 = 33) : checkWord w = check21 w := by unfold checkWord; rw [h]; rfl
theorem build_21 {w : Nat} (h : fld w 26 6 = 33) : build w = build21 w := by unfold build; rw [h]; rfl
theorem checkWord_22 {w : Nat} (h : fld w 26 6 = 34) : checkWord w = check22 w := by unfold checkWord; rw [h]; rfl
theorem build_22 {w : Nat} (h : fld w 26 6 = 34) : build w = build22 w := by unfold build; rw [h]; rfl
theorem checkWord_23 {w : Nat} (h : fld w 26 6 = 35) : checkWord w = check23 w := by unfold checkWord; rw [h]; rfl
theorem build_23 {w : Nat} (h : fld w 26 6 = 35) : build w = build23 w := by unfold build; rw [h]; rfl
theorem checkWord_28 {w : Nat} (h : fld w 26 6 = 40) : checkWord w = check28 w := by unfold checkWord; rw [h]; rfl
theorem build_28 {w : Nat} (h : fld w 26 6 = 40) : build w = build28 w := by unfold build; rw [h]; rfl
theorem checkWord_29 {w : Nat} (h : fld w 26 6 = 41) : checkWord w = check29 w := by unfold checkWord; rw [h]; rfl
theorem build_29 {w : Nat} (h : fld w 26 6 = 41) : build w = build29 w := by unfold build; rw [h]; rfl
theorem checkWord_2A {w : Nat} (h : fld w 26 6 = 42) : checkWord w = check2A w := by unfold checkWord; rw [h]; rfl
theorem build_2A {w : Nat} (h : fld w 26 6 = 42) : build w = build2A w := by unfold build; rw [h]; rfl
theorem checkWord_2B {w : Nat} (h : fld w 26 6 = 43) : checkWord w = check2B w := by unfold checkWord; rw [h]; rfl
theorem build_2B {w : Nat} (h : fld w 26 6 = 43) : build w = build2B w := by unfold build; rw [h]; rfl
theorem checkWord_2C {w : Nat} (h : fld w 26 6 = 44) : checkWord w = check2C w := by unfold checkWord; rw [h]; rfl
theorem build_2C {w : Nat} (h : fld w 26 6 = 44) : build w = build2C w := by unfold build; rw [h]; rfl
theorem checkWord_2D {w : Nat} (h : fld w 26 6 = 45) : checkWord w = check2D w := by unfold checkWord; rw [h]; rfl
theorem build_2D {w : Nat} (h : fld w 26 6 = 45) : build w = build2D w := by unfold build; rw [h]; rfl
theorem checkWord_2E {w : Nat} (h : fld w 26 6 = 46) : checkWord w = check2E w := by unfold checkWord; rw [h]; rfl
theorem build_2E {w : Nat} (h : fld w 26 6 = 46) : build w = build2E w := by unfold build; rw [h]; rfl
theorem checkWord_30 {w : Nat} (h : fld w 26 6 = 48) : checkWord w = check30 w := by unfold checkWord; rw [h]; rfl
theorem build_30 {w : Nat} (h : fld w 26 6 = 48) : build w = build30 w := by unfold build; rw [h]; rfl
theorem checkWord_31 {w : Nat} (h : fld w 26 6 = 49) : checkWord w = check31 w := by unfold checkWord; rw [h]; rfl
theorem build_31 {w : Nat} (h : fld w 26 6 = 49) : build w = build31 w := by unfold build; rw [h]; rfl
theorem checkWord_32 {w : Nat} (h : fld w 26 6 = 50) : checkWord w = check32 w := by unfold checkWord; rw [h]; rfl
theorem build_32 {w : Nat} (h : fld w 26 6 = 50) : build w = build32 w := by unfold build; rw [h]; rfl
theorem checkWord_38 {w : Nat} (h : fld w 26 6 = 56) : checkWord w = check38 w := by unfold checkWord; rw [h]; rfl
theorem build_38 {w : Nat} (h : fld w 26 6 = 56) : build w = build38 w := by unfold build; rw [h]; rfl
theorem checkWord_39 {w : Nat} (h : fld w 26 6 = 57) : checkWord w = check39 w := by unfold checkWord; rw [h]; rfl
theorem build_39 {w : Nat} (h : fld w 26 6 = 57) : build w = build39 w := by unfold build; rw [h]; rfl
theorem checkWord_3A {w : Nat} (h : fld w 26 6 = 58) : checkWord w = check3A w := by unfold checkWord; rw [h]; rfl
theorem build_3A {w : Nat} (h : fld w 26 6 = 58) : build w = build3A w := by unfold build; rw [h]; rfl
theorem checkWord_3B {w : Nat} (h : fld w 26 6 = 59) : checkWord w = check3B w := by unfold checkWord; rw [h]; rfl
theorem build_3B {w : Nat} (h : fld w 26 6 = 59) : build w = build3B w := by unfold build; rw [h]; rfl

end Sys2Proof
end

