-- ==== Sys2Proof/Laws/Exec.lean ====
section
/-! SUPPORT. What exec is on each constructor, so that no later proof unfolds the dispatch. -/

namespace Sys2Proof.Machine

theorem exec_hintImm (d : _) (s : State) : exec (.hintImm d) s = execHintImm d s := rfl
theorem exec_hintMod (m : _) (s : State) : exec (.hintMod m) s = execHintMod m s := rfl
theorem exec_hintBr (b : _) (s : State) : exec (.hintBr b) s = execHintBr b s := rfl
theorem exec_trap (c : _) (s : State) : exec (.trap c) s = execTrap c s := rfl
theorem exec_hret (s : State) : exec .hret s = execHret s := rfl
theorem exec_wait (d a l e : _) (s : State) : exec (.wait d a l e) s = execWait d a l e s := rfl
theorem exec_csrr (d c : _) (s : State) : exec (.csrr d c) s = execCsrr d c s := rfl
theorem exec_csrw (d a c : _) (s : State) : exec (.csrw d a c) s = execCsrw d a c s := rfl
theorem exec_csrs (d a c : _) (s : State) : exec (.csrs d a c) s = execCsrs d a c s := rfl
theorem exec_csrc (d a c : _) (s : State) : exec (.csrc d a c) s = execCsrc d a c s := rfl
theorem exec_setxb (d a : _) (s : State) : exec (.setxb d a) s = execSetxb d a s := rfl
theorem exec_gangForm (d n : _) (s : State) : exec (.gangForm d n) s = execGangForm d n s := rfl
theorem exec_gangJoin (d : _) (s : State) : exec (.gangJoin d) s = execGangJoin d s := rfl
theorem exec_gangEnd (d : _) (s : State) : exec (.gangEnd d) s = execGangEnd d s := rfl
theorem exec_nop (s : State) : exec .nop s = execNop s := rfl
theorem exec_beq (a b o : _) (s : State) : exec (.beq a b o) s = execBeq a b o s := rfl
theorem exec_bne (a b o : _) (s : State) : exec (.bne a b o) s = execBne a b o s := rfl
theorem exec_blt (a b o : _) (s : State) : exec (.blt a b o) s = execBlt a b o s := rfl
theorem exec_bge (a b o : _) (s : State) : exec (.bge a b o) s = execBge a b o s := rfl
theorem exec_bltu (a b o : _) (s : State) : exec (.bltu a b o) s = execBltu a b o s := rfl
theorem exec_bgeu (a b o : _) (s : State) : exec (.bgeu a b o) s = execBgeu a b o s := rfl
theorem exec_jal (d o : _) (s : State) : exec (.jal d o) s = execJal d o s := rfl
theorem exec_call (d o : _) (s : State) : exec (.call d o) s = execCall d o s := rfl
theorem exec_jalr (d a i1 : _) (s : State) : exec (.jalr d a i1) s = execJalr d a i1 s := rfl
theorem exec_ret (a : _) (s : State) : exec (.ret a) s = execRet a s := rfl
theorem exec_bpany (p o : _) (s : State) : exec (.bpany p o) s = execBpany p o s := rfl
theorem exec_bpnone (p o : _) (s : State) : exec (.bpnone p o) s = execBpnone p o s := rfl
theorem exec_bpall (p o : _) (s : State) : exec (.bpall p o) s = execBpall p o s := rfl
theorem exec_bpnall (p o : _) (s : State) : exec (.bpnall p o) s = execBpnall p o s := rfl
theorem exec_bfz (f o : _) (s : State) : exec (.bfz f o) s = execBfz f o s := rfl
theorem exec_bfnz (f o : _) (s : State) : exec (.bfnz f o) s = execBfnz f o s := rfl
theorem exec_bfltz (f o : _) (s : State) : exec (.bfltz f o) s = execBfltz f o s := rfl
theorem exec_bfgez (f o : _) (s : State) : exec (.bfgez f o) s = execBfgez f o s := rfl
theorem exec_pushmG (d a : _) (s : State) : exec (.pushmG d a) s = execPushmG d a s := rfl
theorem exec_pushmF (d a : _) (s : State) : exec (.pushmF d a) s = execPushmF d a s := rfl
theorem exec_pushmV (d a : _) (s : State) : exec (.pushmV d a) s = execPushmV d a s := rfl
theorem exec_popmG (d a : _) (s : State) : exec (.popmG d a) s = execPopmG d a s := rfl
theorem exec_popmF (d a : _) (s : State) : exec (.popmF d a) s = execPopmF d a s := rfl
theorem exec_popmV (d a : _) (s : State) : exec (.popmV d a) s = execPopmV d a s := rfl
theorem exec_add (d a b : _) (s : State) : exec (.add d a b) s = execAdd d a b s := rfl
theorem exec_sub (d a b : _) (s : State) : exec (.sub d a b) s = execSub d a b s := rfl
theorem exec_and (d a b : _) (s : State) : exec (.and d a b) s = execAnd d a b s := rfl
theorem exec_or (d a b : _) (s : State) : exec (.or d a b) s = execOr d a b s := rfl
theorem exec_xor (d a b : _) (s : State) : exec (.xor d a b) s = execXor d a b s := rfl
theorem exec_sll (d a b : _) (s : State) : exec (.sll d a b) s = execSll d a b s := rfl
theorem exec_srl (d a b : _) (s : State) : exec (.srl d a b) s = execSrl d a b s := rfl
theorem exec_sra (d a b : _) (s : State) : exec (.sra d a b) s = execSra d a b s := rfl
theorem exec_slt (d a b : _) (s : State) : exec (.slt d a b) s = execSlt d a b s := rfl
theorem exec_sltu (d a b : _) (s : State) : exec (.sltu d a b) s = execSltu d a b s := rfl
theorem exec_min (d a b : _) (s : State) : exec (.min d a b) s = execMin d a b s := rfl
theorem exec_max (d a b : _) (s : State) : exec (.max d a b) s = execMax d a b s := rfl
theorem exec_minu (d a b : _) (s : State) : exec (.minu d a b) s = execMinu d a b s := rfl
theorem exec_maxu (d a b : _) (s : State) : exec (.maxu d a b) s = execMaxu d a b s := rfl
theorem exec_rol (d a b : _) (s : State) : exec (.rol d a b) s = execRol d a b s := rfl
theorem exec_ror (d a b : _) (s : State) : exec (.ror d a b) s = execRor d a b s := rfl
theorem exec_clz (d a : _) (s : State) : exec (.clz d a) s = execClz d a s := rfl
theorem exec_ctz (d a : _) (s : State) : exec (.ctz d a) s = execCtz d a s := rfl
theorem exec_popc (d a : _) (s : State) : exec (.popc d a) s = execPopc d a s := rfl
theorem exec_addi (d a i1 : _) (s : State) : exec (.addi d a i1) s = execAddi d a i1 s := rfl
theorem exec_andi (d a i1 : _) (s : State) : exec (.andi d a i1) s = execAndi d a i1 s := rfl
theorem exec_ori (d a i1 : _) (s : State) : exec (.ori d a i1) s = execOri d a i1 s := rfl
theorem exec_xori (d a i1 : _) (s : State) : exec (.xori d a i1) s = execXori d a i1 s := rfl
theorem exec_slti (d a i1 : _) (s : State) : exec (.slti d a i1) s = execSlti d a i1 s := rfl
theorem exec_sltiu (d a i1 : _) (s : State) : exec (.sltiu d a i1) s = execSltiu d a i1 s := rfl
theorem exec_slli (d a r1 : _) (s : State) : exec (.slli d a r1) s = execSlli d a r1 s := rfl
theorem exec_srli (d a r1 : _) (s : State) : exec (.srli d a r1) s = execSrli d a r1 s := rfl
theorem exec_srai (d a r1 : _) (s : State) : exec (.srai d a r1) s = execSrai d a r1 s := rfl
theorem exec_rori (d a r1 : _) (s : State) : exec (.rori d a r1) s = execRori d a r1 s := rfl
theorem exec_lui (d i1 : _) (s : State) : exec (.lui d i1) s = execLui d i1 s := rfl
theorem exec_luih (d i1 : _) (s : State) : exec (.luih d i1) s = execLuih d i1 s := rfl
theorem exec_luit (d i1 : _) (s : State) : exec (.luit d i1) s = execLuit d i1 s := rfl
theorem exec_addpc (d i1 : _) (s : State) : exec (.addpc d i1) s = execAddpc d i1 s := rfl
theorem exec_mul (d a b : _) (s : State) : exec (.mul d a b) s = execMul d a b s := rfl
theorem exec_mulh (d a b : _) (s : State) : exec (.mulh d a b) s = execMulh d a b s := rfl
theorem exec_mulhu (d a b : _) (s : State) : exec (.mulhu d a b) s = execMulhu d a b s := rfl
theorem exec_div (d a b : _) (s : State) : exec (.div d a b) s = execDiv d a b s := rfl
theorem exec_divu (d a b : _) (s : State) : exec (.divu d a b) s = execDivu d a b s := rfl
theorem exec_rem (d a b : _) (s : State) : exec (.rem d a b) s = execRem d a b s := rfl
theorem exec_remu (d a b : _) (s : State) : exec (.remu d a b) s = execRemu d a b s := rfl
theorem exec_ldb (d a i1 : _) (s : State) : exec (.ldb d a i1) s = execLdb d a i1 s := rfl
theorem exec_ldbu (d a i1 : _) (s : State) : exec (.ldbu d a i1) s = execLdbu d a i1 s := rfl
theorem exec_ldh (d a i1 : _) (s : State) : exec (.ldh d a i1) s = execLdh d a i1 s := rfl
theorem exec_ldhu (d a i1 : _) (s : State) : exec (.ldhu d a i1) s = execLdhu d a i1 s := rfl
theorem exec_ldw (d a i1 : _) (s : State) : exec (.ldw d a i1) s = execLdw d a i1 s := rfl
theorem exec_ldwu (d a i1 : _) (s : State) : exec (.ldwu d a i1) s = execLdwu d a i1 s := rfl
theorem exec_ldd (d a i1 : _) (s : State) : exec (.ldd d a i1) s = execLdd d a i1 s := rfl
theorem exec_xpref (a i1 : _) (s : State) : exec (.xpref a i1) s = execXpref a i1 s := rfl
theorem exec_stb (r1 b i1 : _) (s : State) : exec (.stb r1 b i1) s = execStb r1 b i1 s := rfl
theorem exec_sth (r1 b i1 : _) (s : State) : exec (.sth r1 b i1) s = execSth r1 b i1 s := rfl
theorem exec_stw (r1 b i1 : _) (s : State) : exec (.stw r1 b i1) s = execStw r1 b i1 s := rfl
theorem exec_std (r1 b i1 : _) (s : State) : exec (.std r1 b i1) s = execStd r1 b i1 s := rfl
theorem exec_stn (r1 b i1 : _) (s : State) : exec (.stn r1 b i1) s = execStn r1 b i1 s := rfl
theorem exec_amoadd (d a b w : _) (s : State) : exec (.amoadd d a b w) s = execAmoadd d a b w s := rfl
theorem exec_amoand (d a b w : _) (s : State) : exec (.amoand d a b w) s = execAmoand d a b w s := rfl
theorem exec_amoor (d a b w : _) (s : State) : exec (.amoor d a b w) s = execAmoor d a b w s := rfl
theorem exec_amoxor (d a b w : _) (s : State) : exec (.amoxor d a b w) s = execAmoxor d a b w s := rfl
theorem exec_amomin (d a b w : _) (s : State) : exec (.amomin d a b w) s = execAmomin d a b w s := rfl
theorem exec_amomax (d a b w : _) (s : State) : exec (.amomax d a b w) s = execAmomax d a b w s := rfl
theorem exec_amominu (d a b w : _) (s : State) : exec (.amominu d a b w) s = execAmominu d a b w s := rfl
theorem exec_amomaxu (d a b w : _) (s : State) : exec (.amomaxu d a b w) s = execAmomaxu d a b w s := rfl
theorem exec_amoswap (d a b w : _) (s : State) : exec (.amoswap d a b w) s = execAmoswap d a b w s := rfl
theorem exec_amocas (d a b w : _) (s : State) : exec (.amocas d a b w) s = execAmocas d a b w s := rfl
theorem exec_bind (r1 a b : _) (s : State) : exec (.bind r1 a b) s = execBind r1 a b s := rfl
theorem exec_acq (a : _) (s : State) : exec (.acq a) s = execAcq a s := rfl
theorem exec_acqr (a : _) (s : State) : exec (.acqr a) s = execAcqr a s := rfl
theorem exec_rel (a : _) (s : State) : exec (.rel a) s = execRel a s := rfl
theorem exec_fence (r1 : _) (s : State) : exec (.fence r1) s = execFence r1 s := rfl
theorem exec_discard (m a b : _) (s : State) : exec (.discard m a b) s = execDiscard m a b s := rfl
theorem exec_scfg (n a b : _) (s : State) : exec (.scfg n a b) s = execScfg n a b s := rfl
theorem exec_sdim (k n a b : _) (s : State) : exec (.sdim k n a b) s = execSdim k n a b s := rfl
theorem exec_sind (n m b : _) (s : State) : exec (.sind n m b) s = execSind n m b s := rfl
theorem exec_sman (n b : _) (s : State) : exec (.sman n b) s = execSman n b s := rfl
theorem exec_sen (n : _) (s : State) : exec (.sen n) s = execSen n s := rfl
theorem exec_sdis (n : _) (s : State) : exec (.sdis n) s = execSdis n s := rfl
theorem exec_sflush (n : _) (s : State) : exec (.sflush n) s = execSflush n s := rfl
theorem exec_ldq (n a : _) (s : State) : exec (.ldq n a) s = execLdq n a s := rfl
theorem exec_stq (n a : _) (s : State) : exec (.stq n a) s = execStq n a s := rfl
theorem exec_qput (a : _) (s : State) : exec (.qput a) s = execQput a s := rfl
theorem exec_qget (d : _) (s : State) : exec (.qget d) s = execQget d s := rfl
theorem exec_rpt (a m p l : _) (s : State) : exec (.rpt a m p l) s = execRpt a m p l s := rfl
theorem exec_send (c a b : _) (s : State) : exec (.send c a b) s = execSend c a b s := rfl
theorem exec_sendm (c a b : _) (s : State) : exec (.sendm c a b) s = execSendm c a b s := rfl
theorem exec_recv (d a b : _) (s : State) : exec (.recv d a b) s = execRecv d a b s := rfl
theorem exec_recvm (d a b : _) (s : State) : exec (.recvm d a b) s = execRecvm d a b s := rfl
theorem exec_mark (s : State) : exec .mark s = execMark s := rfl
theorem exec_radv (d : _) (s : State) : exec (.radv d) s = execRadv d s := rfl
theorem exec_chstatState (d a : _) (s : State) : exec (.chstatState d a) s = execChstatState d a s := rfl
theorem exec_chstatDecl (d a : _) (s : State) : exec (.chstatDecl d a) s = execChstatDecl d a s := rfl
theorem exec_chstatClose (d a : _) (s : State) : exec (.chstatClose d a) s = execChstatClose d a s := rfl
theorem exec_chstatKword (d : _) (s : State) : exec (.chstatKword d) s = execChstatKword d s := rfl
theorem exec_chstatRound (d : _) (s : State) : exec (.chstatRound d) s = execChstatRound d s := rfl
theorem exec_chstatSeq (d a : _) (s : State) : exec (.chstatSeq d a) s = execChstatSeq d a s := rfl
theorem exec_kickRing (a b : _) (s : State) : exec (.kickRing a b) s = execKickRing a b s := rfl
theorem exec_kickMbox (a b : _) (s : State) : exec (.kickMbox a b) s = execKickMbox a b s := rfl
theorem exec_kickDone (a b : _) (s : State) : exec (.kickDone a b) s = execKickDone a b s := rfl
theorem exec_kickDonerec (a b : _) (s : State) : exec (.kickDonerec a b) s = execKickDonerec a b s := rfl
theorem exec_bcfg (a k : _) (s : State) : exec (.bcfg a k) s = execBcfg a k s := rfl
theorem exec_barr (k : _) (s : State) : exec (.barr k) s = execBarr k s := rfl
theorem exec_bwait (k : _) (s : State) : exec (.bwait k) s = execBwait k s := rfl
theorem exec_bsync (k : _) (s : State) : exec (.bsync k) s = execBsync k s := rfl
theorem exec_btest (d k : _) (s : State) : exec (.btest d k) s = execBtest d k s := rfl
theorem exec_rqpush (c a b : _) (s : State) : exec (.rqpush c a b) s = execRqpush c a b s := rfl
theorem exec_next (a : _) (s : State) : exec (.next a) s = execNext a s := rfl
theorem exec_nextw (d : _) (s : State) : exec (.nextw d) s = execNextw d s := rfl
theorem exec_append (d a b : _) (s : State) : exec (.append d a b) s = execAppend d a b s := rfl
theorem exec_take (d a : _) (s : State) : exec (.take d a) s = execTake d a s := rfl
theorem exec_takeEndHold (d a : _) (s : State) : exec (.takeEndHold d a) s = execTakeEndHold d a s := rfl
theorem exec_tdarm (a b : _) (s : State) : exec (.tdarm a b) s = execTdarm a b s := rfl
theorem exec_launch (d a b : _) (s : State) : exec (.launch d a b) s = execLaunch d a b s := rfl
theorem exec_lwait (d a : _) (s : State) : exec (.lwait d a) s = execLwait d a s := rfl
theorem exec_cancel (d a : _) (s : State) : exec (.cancel d a) s = execCancel d a s := rfl
theorem exec_cntrd (d a : _) (s : State) : exec (.cntrd d a) s = execCntrd d a s := rfl
theorem exec_ginfo (d i1 b : _) (s : State) : exec (.ginfo d i1 b) s = execGinfo d i1 b s := rfl
theorem exec_gdone (a : _) (s : State) : exec (.gdone a) s = execGdone a s := rfl
theorem exec_evpop (d a : _) (s : State) : exec (.evpop d a) s = execEvpop d a s := rfl
theorem exec_evpush (d a b : _) (s : State) : exec (.evpush d a b) s = execEvpush d a b s := rfl
theorem exec_preempt (d a : _) (s : State) : exec (.preempt d a) s = execPreempt d a s := rfl
theorem exec_save (d a : _) (s : State) : exec (.save d a) s = execSave d a s := rfl
theorem exec_restore (d a : _) (s : State) : exec (.restore d a) s = execRestore d a s := rfl
theorem exec_pinv (d a b : _) (s : State) : exec (.pinv d a b) s = execPinv d a b s := rfl
theorem exec_pprobe (d a b : _) (s : State) : exec (.pprobe d a b) s = execPprobe d a b s := rfl
theorem exec_chkpair (d a : _) (s : State) : exec (.chkpair d a) s = execChkpair d a s := rfl
theorem exec_hmigrate (d a : _) (s : State) : exec (.hmigrate d a) s = execHmigrate d a s := rfl
theorem exec_frpop (d a : _) (s : State) : exec (.frpop d a) s = execFrpop d a s := rfl
theorem exec_timerd (d a : _) (s : State) : exec (.timerd d a) s = execTimerd d a s := rfl
theorem exec_lstatRead (d a : _) (s : State) : exec (.lstatRead d a) s = execLstatRead d a s := rfl
theorem exec_lstatEnable (d a : _) (s : State) : exec (.lstatEnable d a) s = execLstatEnable d a s := rfl
theorem exec_lstatDisable (d a : _) (s : State) : exec (.lstatDisable d a) s = execLstatDisable d a s := rfl
theorem exec_lstatRetrain (d a : _) (s : State) : exec (.lstatRetrain d a) s = execLstatRetrain d a s := rfl
theorem exec_fadd (d a b p t : _) (s : State) : exec (.fadd d a b p t) s = execFadd d a b p t s := rfl
theorem exec_fsub (d a b p t : _) (s : State) : exec (.fsub d a b p t) s = execFsub d a b p t s := rfl
theorem exec_fmul (d a b p t : _) (s : State) : exec (.fmul d a b p t) s = execFmul d a b p t s := rfl
theorem exec_fdiv (d a b p t : _) (s : State) : exec (.fdiv d a b p t) s = execFdiv d a b p t s := rfl
theorem exec_fsqrt (d a p t : _) (s : State) : exec (.fsqrt d a p t) s = execFsqrt d a p t s := rfl
theorem exec_fmin (d a b p t : _) (s : State) : exec (.fmin d a b p t) s = execFmin d a b p t s := rfl
theorem exec_fmax (d a b p t : _) (s : State) : exec (.fmax d a b p t) s = execFmax d a b p t s := rfl
theorem exec_fsgnj (d a b p t : _) (s : State) : exec (.fsgnj d a b p t) s = execFsgnj d a b p t s := rfl
theorem exec_fsgnjn (d a b p t : _) (s : State) : exec (.fsgnjn d a b p t) s = execFsgnjn d a b p t s := rfl
theorem exec_fsgnjx (d a b p t : _) (s : State) : exec (.fsgnjx d a b p t) s = execFsgnjx d a b p t s := rfl
theorem exec_fclass (d a p t : _) (s : State) : exec (.fclass d a p t) s = execFclass d a p t s := rfl
theorem exec_fmov (d a p t : _) (s : State) : exec (.fmov d a p t) s = execFmov d a p t s := rfl
theorem exec_fmadd (d a b c t : _) (s : State) : exec (.fmadd d a b c t) s = execFmadd d a b c t s := rfl
theorem exec_fmsub (d a b c t : _) (s : State) : exec (.fmsub d a b c t) s = execFmsub d a b c t s := rfl
theorem exec_fnmadd (d a b c t : _) (s : State) : exec (.fnmadd d a b c t) s = execFnmadd d a b c t s := rfl
theorem exec_fnmsub (d a b c t : _) (s : State) : exec (.fnmsub d a b c t) s = execFnmsub d a b c t s := rfl
theorem exec_fcvt (d a r1 p t : _) (s : State) : exec (.fcvt d a r1 p t) s = execFcvt d a r1 p t s := rfl
theorem exec_feq (d a b p t : _) (s : State) : exec (.feq d a b p t) s = execFeq d a b p t s := rfl
theorem exec_flt (d a b p t : _) (s : State) : exec (.flt d a b p t) s = execFlt d a b p t s := rfl
theorem exec_fle (d a b p t : _) (s : State) : exec (.fle d a b p t) s = execFle d a b p t s := rfl
theorem exec_funord (d a b p t : _) (s : State) : exec (.funord d a b p t) s = execFunord d a b p t s := rfl
theorem exec_fcvtfl (d a p t : _) (s : State) : exec (.fcvtfl d a p t) s = execFcvtfl d a p t s := rfl
theorem exec_fcvtlf (d a p t : _) (s : State) : exec (.fcvtlf d a p t) s = execFcvtlf d a p t s := rfl
theorem exec_iadd (d a b p : _) (s : State) : exec (.iadd d a b p) s = execIadd d a b p s := rfl
theorem exec_isub (d a b p : _) (s : State) : exec (.isub d a b p) s = execIsub d a b p s := rfl
theorem exec_imul (d a b p : _) (s : State) : exec (.imul d a b p) s = execImul d a b p s := rfl
theorem exec_iand (d a b p : _) (s : State) : exec (.iand d a b p) s = execIand d a b p s := rfl
theorem exec_ior (d a b p : _) (s : State) : exec (.ior d a b p) s = execIor d a b p s := rfl
theorem exec_ixor (d a b p : _) (s : State) : exec (.ixor d a b p) s = execIxor d a b p s := rfl
theorem exec_isll (d a b p : _) (s : State) : exec (.isll d a b p) s = execIsll d a b p s := rfl
theorem exec_isrl (d a b p : _) (s : State) : exec (.isrl d a b p) s = execIsrl d a b p s := rfl
theorem exec_isra (d a b p : _) (s : State) : exec (.isra d a b p) s = execIsra d a b p s := rfl
theorem exec_imin (d a b p : _) (s : State) : exec (.imin d a b p) s = execImin d a b p s := rfl
theorem exec_imax (d a b p : _) (s : State) : exec (.imax d a b p) s = execImax d a b p s := rfl
theorem exec_iminu (d a b p : _) (s : State) : exec (.iminu d a b p) s = execIminu d a b p s := rfl
theorem exec_imaxu (d a b p : _) (s : State) : exec (.imaxu d a b p) s = execImaxu d a b p s := rfl
theorem exec_islt (d a b p : _) (s : State) : exec (.islt d a b p) s = execIslt d a b p s := rfl
theorem exec_isltu (d a b p : _) (s : State) : exec (.isltu d a b p) s = execIsltu d a b p s := rfl
theorem exec_imovi (d i1 p : _) (s : State) : exec (.imovi d i1 p) s = execImovi d i1 p s := rfl
theorem exec_vadd (d a b p t : _) (s : State) : exec (.vadd d a b p t) s = execVadd d a b p t s := rfl
theorem exec_vsub (d a b p t : _) (s : State) : exec (.vsub d a b p t) s = execVsub d a b p t s := rfl
theorem exec_vmul (d a b p t : _) (s : State) : exec (.vmul d a b p t) s = execVmul d a b p t s := rfl
theorem exec_vmin (d a b p t : _) (s : State) : exec (.vmin d a b p t) s = execVmin d a b p t s := rfl
theorem exec_vmax (d a b p t : _) (s : State) : exec (.vmax d a b p t) s = execVmax d a b p t s := rfl
theorem exec_vminu (d a b p t : _) (s : State) : exec (.vminu d a b p t) s = execVminu d a b p t s := rfl
theorem exec_vmaxu (d a b p t : _) (s : State) : exec (.vmaxu d a b p t) s = execVmaxu d a b p t s := rfl
theorem exec_vand (d a b p t : _) (s : State) : exec (.vand d a b p t) s = execVand d a b p t s := rfl
theorem exec_vor (d a b p t : _) (s : State) : exec (.vor d a b p t) s = execVor d a b p t s := rfl
theorem exec_vxor (d a b p t : _) (s : State) : exec (.vxor d a b p t) s = execVxor d a b p t s := rfl
theorem exec_vsll (d a b p t : _) (s : State) : exec (.vsll d a b p t) s = execVsll d a b p t s := rfl
theorem exec_vsrl (d a b p t : _) (s : State) : exec (.vsrl d a b p t) s = execVsrl d a b p t s := rfl
theorem exec_vsra (d a b p t : _) (s : State) : exec (.vsra d a b p t) s = execVsra d a b p t s := rfl
theorem exec_vmulh (d a b p t : _) (s : State) : exec (.vmulh d a b p t) s = execVmulh d a b p t s := rfl
theorem exec_vmulhu (d a b p t : _) (s : State) : exec (.vmulhu d a b p t) s = execVmulhu d a b p t s := rfl
theorem exec_vabsd (d a b p t : _) (s : State) : exec (.vabsd d a b p t) s = execVabsd d a b p t s := rfl
theorem exec_vfadd (d a b p t : _) (s : State) : exec (.vfadd d a b p t) s = execVfadd d a b p t s := rfl
theorem exec_vfsub (d a b p t : _) (s : State) : exec (.vfsub d a b p t) s = execVfsub d a b p t s := rfl
theorem exec_vfmul (d a b p t : _) (s : State) : exec (.vfmul d a b p t) s = execVfmul d a b p t s := rfl
theorem exec_vfdiv (d a b p t : _) (s : State) : exec (.vfdiv d a b p t) s = execVfdiv d a b p t s := rfl
theorem exec_vfsqrt (d a p t : _) (s : State) : exec (.vfsqrt d a p t) s = execVfsqrt d a p t s := rfl
theorem exec_vfmin (d a b p t : _) (s : State) : exec (.vfmin d a b p t) s = execVfmin d a b p t s := rfl
theorem exec_vfmax (d a b p t : _) (s : State) : exec (.vfmax d a b p t) s = execVfmax d a b p t s := rfl
theorem exec_vfabs (d a p t : _) (s : State) : exec (.vfabs d a p t) s = execVfabs d a p t s := rfl
theorem exec_vfneg (d a p t : _) (s : State) : exec (.vfneg d a p t) s = execVfneg d a p t s := rfl
theorem exec_vfeq (d a b p t : _) (s : State) : exec (.vfeq d a b p t) s = execVfeq d a b p t s := rfl
theorem exec_vflt (d a b p t : _) (s : State) : exec (.vflt d a b p t) s = execVflt d a b p t s := rfl
theorem exec_vfle (d a b p t : _) (s : State) : exec (.vfle d a b p t) s = execVfle d a b p t s := rfl
theorem exec_vsel (d a b p t : _) (s : State) : exec (.vsel d a b p t) s = execVsel d a b p t s := rfl
theorem exec_vfmadd (d a b c p t : _) (s : State) : exec (.vfmadd d a b c p t) s = execVfmadd d a b c p t s := rfl
theorem exec_vfmsub (d a b c p t : _) (s : State) : exec (.vfmsub d a b c p t) s = execVfmsub d a b c p t s := rfl
theorem exec_vfnmadd (d a b c p t : _) (s : State) : exec (.vfnmadd d a b c p t) s = execVfnmadd d a b c p t s := rfl
theorem exec_vfnmsub (d a b c p t : _) (s : State) : exec (.vfnmsub d a b c p t) s = execVfnmsub d a b c p t s := rfl
theorem exec_vperm (d a b p t : _) (s : State) : exec (.vperm d a b p t) s = execVperm d a b p t s := rfl
theorem exec_vbcast (d a p t : _) (s : State) : exec (.vbcast d a p t) s = execVbcast d a p t s := rfl
theorem exec_vslup (d a b p t : _) (s : State) : exec (.vslup d a b p t) s = execVslup d a b p t s := rfl
theorem exec_vsldn (d a b p t : _) (s : State) : exec (.vsldn d a b p t) s = execVsldn d a b p t s := rfl
theorem exec_vcompr (d a p t : _) (s : State) : exec (.vcompr d a p t) s = execVcompr d a p t s := rfl
theorem exec_vexpnd (d a p t : _) (s : State) : exec (.vexpnd d a p t) s = execVexpnd d a p t s := rfl
theorem exec_vrsum (d a p t : _) (s : State) : exec (.vrsum d a p t) s = execVrsum d a p t s := rfl
theorem exec_vrmax (d a p t : _) (s : State) : exec (.vrmax d a p t) s = execVrmax d a p t s := rfl
theorem exec_vrmin (d a p t : _) (s : State) : exec (.vrmin d a p t) s = execVrmin d a p t s := rfl
theorem exec_vtopk (d a b p t : _) (s : State) : exec (.vtopk d a b p t) s = execVtopk d a b p t s := rfl
theorem exec_vzip (d a b p t : _) (s : State) : exec (.vzip d a b p t) s = execVzip d a b p t s := rfl
theorem exec_vunzip (d a b p t : _) (s : State) : exec (.vunzip d a b p t) s = execVunzip d a b p t s := rfl
theorem exec_vrev (d a p t : _) (s : State) : exec (.vrev d a p t) s = execVrev d a p t s := rfl
theorem exec_pand (d a b p : _) (s : State) : exec (.pand d a b p) s = execPand d a b p s := rfl
theorem exec_por (d a b p : _) (s : State) : exec (.por d a b p) s = execPor d a b p s := rfl
theorem exec_pxor (d a b p : _) (s : State) : exec (.pxor d a b p) s = execPxor d a b p s := rfl
theorem exec_pnot (d a p : _) (s : State) : exec (.pnot d a p) s = execPnot d a p s := rfl
theorem exec_loopp (d a b p t : _) (s : State) : exec (.loopp d a b p t) s = execLoopp d a b p t s := rfl
theorem exec_vcmpeq (d a b p t : _) (s : State) : exec (.vcmpeq d a b p t) s = execVcmpeq d a b p t s := rfl
theorem exec_vcmplt (d a b p t : _) (s : State) : exec (.vcmplt d a b p t) s = execVcmplt d a b p t s := rfl
theorem exec_vcmpltu (d a b p t : _) (s : State) : exec (.vcmpltu d a b p t) s = execVcmpltu d a b p t s := rfl
theorem exec_vcmple (d a b p t : _) (s : State) : exec (.vcmple d a b p t) s = execVcmple d a b p t s := rfl
theorem exec_vcmpleu (d a b p t : _) (s : State) : exec (.vcmpleu d a b p t) s = execVcmpleu d a b p t s := rfl
theorem exec_pcnt (d a p t : _) (s : State) : exec (.pcnt d a p t) s = execPcnt d a p t s := rfl
theorem exec_pfirst (d a p t : _) (s : State) : exec (.pfirst d a p t) s = execPfirst d a p t s := rfl
theorem exec_vcvt (d a r1 p t : _) (s : State) : exec (.vcvt d a r1 p t) s = execVcvt d a r1 p t s := rfl
theorem exec_vcvtr (d a r1 k t : _) (s : State) : exec (.vcvtr d a r1 k t) s = execVcvtr d a r1 k t s := rfl
theorem exec_vderot (d a r1 k t : _) (s : State) : exec (.vderot d a r1 k t) s = execVderot d a r1 k t s := rfl
theorem exec_hsld (k a b : _) (s : State) : exec (.hsld k a b) s = execHsld k a b s := rfl
theorem exec_hsrd (d k : _) (s : State) : exec (.hsrd d k) s = execHsrd d k s := rfl
theorem exec_vppe (d a t p : _) (s : State) : exec (.vppe d a t p) s = execVppe d a t p s := rfl
theorem exec_ppld (t a b p : _) (s : State) : exec (.ppld t a b p) s = execPpld t a b p s := rfl
theorem exec_vrng (d a b p t : _) (s : State) : exec (.vrng d a b p t) s = execVrng d a b p t s := rfl
theorem exec_vlq (d : _) (s : State) : exec (.vlq d) s = execVlq d s := rfl
theorem exec_vmovf (d a b t : _) (s : State) : exec (.vmovf d a b t) s = execVmovf d a b t s := rfl
theorem exec_mma (d a b : _) (s : State) : exec (.mma d a b) s = execMma d a b s := rfl
theorem exec_mmaz (d a b : _) (s : State) : exec (.mmaz d a b) s = execMmaz d a b s := rfl
theorem exec_mmaad (d a b : _) (s : State) : exec (.mmaad d a b) s = execMmaad d a b s := rfl
theorem exec_msca (d a b : _) (s : State) : exec (.msca d a b) s = execMsca d a b s := rfl
theorem exec_mscars (d a b : _) (s : State) : exec (.mscars d a b) s = execMscars d a b s := rfl
theorem exec_geom (d a : _) (s : State) : exec (.geom d a) s = execGeom d a s := rfl
theorem exec_msync (s : State) : exec .msync s = execMsync s := rfl
theorem exec_psrd (d k b : _) (s : State) : exec (.psrd d k b) s = execPsrd d k b s := rfl
theorem exec_halloc (d a : _) (s : State) : exec (.halloc d a) s = execHalloc d a s := rfl
theorem exec_hfree (a : _) (s : State) : exec (.hfree a) s = execHfree a s := rfl
theorem exec_hcfg (a b : _) (s : State) : exec (.hcfg a b) s = execHcfg a b s := rfl
theorem exec_hrowld (a b : _) (s : State) : exec (.hrowld a b) s = execHrowld a b s := rfl
theorem exec_hrowst (d a : _) (s : State) : exec (.hrowst d a) s = execHrowst d a s := rfl
theorem exec_hcolld (a b : _) (s : State) : exec (.hcolld a b) s = execHcolld a b s := rfl
theorem exec_hcolst (d a : _) (s : State) : exec (.hcolst d a) s = execHcolst d a s := rfl
theorem exec_hzero (a : _) (s : State) : exec (.hzero a) s = execHzero a s := rfl
theorem exec_hdrain (a : _) (s : State) : exec (.hdrain a) s = execHdrain a s := rfl
theorem exec_hrescale (a : _) (s : State) : exec (.hrescale a) s = execHrescale a s := rfl
theorem exec_hstat (d a : _) (s : State) : exec (.hstat d a) s = execHstat d a s := rfl
theorem exec_reda (k a b : _) (s : State) : exec (.reda k a b) s = execReda k a b s := rfl
theorem exec_redx (d k b : _) (s : State) : exec (.redx d k b) s = execRedx d k b s := rfl
theorem exec_adtbl (a b : _) (s : State) : exec (.adtbl a b) s = execAdtbl a b s := rfl
theorem exec_ainv (a : _) (s : State) : exec (.ainv a) s = execAinv a s := rfl
theorem exec_apref (a b : _) (s : State) : exec (.apref a b) s = execApref a b s := rfl
theorem exec_astat (d a : _) (s : State) : exec (.astat d a) s = execAstat d a s := rfl
theorem exec_xld (d a : _) (s : State) : exec (.xld d a) s = execXld d a s := rfl
theorem exec_xst (d a : _) (s : State) : exec (.xst d a) s = execXst d a s := rfl
theorem exec_xldcol (d a : _) (s : State) : exec (.xldcol d a) s = execXldcol d a s := rfl
theorem exec_xstcol (d a : _) (s : State) : exec (.xstcol d a) s = execXstcol d a s := rfl
theorem exec_xgath (d a : _) (s : State) : exec (.xgath d a) s = execXgath d a s := rfl
theorem exec_xscat (d a : _) (s : State) : exec (.xscat d a) s = execXscat d a s := rfl
theorem exec_xred (d a : _) (s : State) : exec (.xred d a) s = execXred d a s := rfl
theorem exec_xprog (d a : _) (s : State) : exec (.xprog d a) s = execXprog d a s := rfl
theorem exec_xpush (d a b : _) (s : State) : exec (.xpush d a b) s = execXpush d a b s := rfl
theorem exec_xpull (d a b : _) (s : State) : exec (.xpull d a b) s = execXpull d a b s := rfl
theorem exec_xwait (d a : _) (s : State) : exec (.xwait d a) s = execXwait d a s := rfl
theorem exec_xsect (d a b : _) (s : State) : exec (.xsect d a b) s = execXsect d a b s := rfl
theorem exec_xexp24 (d a w : _) (s : State) : exec (.xexp24 d a w) s = execXexp24 d a w s := rfl
theorem exec_xbdot (d a b : _) (s : State) : exec (.xbdot d a b) s = execXbdot d a b s := rfl
theorem exec_placeCastOn (cl w : _) (s : State) : exec (.placeCastOn cl w) s = execPlaceCastOn cl w s := rfl
theorem exec_ctxmapSelect (cl w : _) (s : State) : exec (.ctxmapSelect cl w) s = execCtxmapSelect cl w s := rfl
theorem exec_ctxmapWriteSlot (cl w : _) (s : State) : exec (.ctxmapWriteSlot cl w) s = execCtxmapWriteSlot cl w s := rfl
theorem exec_ctxmapWriteSab (cl w : _) (s : State) : exec (.ctxmapWriteSab cl w) s = execCtxmapWriteSab cl w s := rfl
theorem exec_isocfgSelect (cl w : _) (s : State) : exec (.isocfgSelect cl w) s = execIsocfgSelect cl w s := rfl
theorem exec_isocfgSet (cl w : _) (s : State) : exec (.isocfgSet cl w) s = execIsocfgSet cl w s := rfl
theorem exec_arbwWrite (cl w : _) (s : State) : exec (.arbwWrite cl w) s = execArbwWrite cl w s := rfl
theorem exec_evqbaseWrite (cl w : _) (s : State) : exec (.evqbaseWrite cl w) s = execEvqbaseWrite cl w s := rfl
theorem exec_registerWrite (c t n w : _) (s : State) : exec (.registerWrite c t n w) s = execRegisterWrite c t n w s := rfl
theorem exec_waitReasonClears (c t : _) (s : State) : exec (.waitReasonClears c t) s = execWaitReasonClears c t s := rfl
theorem exec_waitDeadline (c t : _) (s : State) : exec (.waitDeadline c t) s = execWaitDeadline c t s := rfl
theorem exec_streamRequest (c n : _) (s : State) : exec (.streamRequest c n) s = execStreamRequest c n s := rfl
theorem exec_streamElementArrival (c n : _) (s : State) : exec (.streamElementArrival c n) s = execStreamElementArrival c n s := rfl
theorem exec_streamWritePerform (c n : _) (s : State) : exec (.streamWritePerform c n) s = execStreamWritePerform c n s := rfl
theorem exec_accessPerformed (c t : _) (s : State) : exec (.accessPerformed c t) s = execAccessPerformed c t s := rfl
theorem exec_relaxedStoreAck (c : _) (s : State) : exec (.relaxedStoreAck c) s = execRelaxedStoreAck c s := rfl
theorem exec_matrixAccept (o x : _) (s : State) : exec (.matrixAccept o x) s = execMatrixAccept o x s := rfl
theorem exec_arbiterTake (o : _) (s : State) : exec (.arbiterTake o) s = execArbiterTake o s := rfl
theorem exec_matrixExecute (o : _) (s : State) : exec (.matrixExecute o) s = execMatrixExecute o s := rfl
theorem exec_matrixComplete (o id : _) (s : State) : exec (.matrixComplete o id) s = execMatrixComplete o id s := rfl
theorem exec_hdrainImageAck (o id : _) (s : State) : exec (.hdrainImageAck o id) s = execHdrainImageAck o id s := rfl
theorem exec_adapterFillArrival (o line : _) (s : State) : exec (.adapterFillArrival o line) s = execAdapterFillArrival o line s := rfl
theorem exec_rowReplay (o : _) (s : State) : exec (.rowReplay o) s = execRowReplay o s := rfl
theorem exec_externalElement (c t : _) (s : State) : exec (.externalElement c t) s = execExternalElement c t s := rfl
theorem exec_transferElement (c id i1 : _) (s : State) : exec (.transferElement c id i1) s = execTransferElement c id i1 s := rfl
theorem exec_transferEnd (c id : _) (s : State) : exec (.transferEnd c id) s = execTransferEnd c id s := rfl
theorem exec_sectorLineAccess (r1 addr col write : _) (s : State) : exec (.sectorLineAccess r1 addr col write) s = execSectorLineAccess r1 addr col write s := rfl
theorem exec_stationWalkEnd (r1 : _) (s : State) : exec (.stationWalkEnd r1) s = execStationWalkEnd r1 s := rfl
theorem exec_faultQueueRoom (r1 : _) (s : State) : exec (.faultQueueRoom r1) s = execFaultQueueRoom r1 s := rfl
theorem exec_remoteRequest (ctx va r : _) (s : State) : exec (.remoteRequest ctx va r) s = execRemoteRequest ctx va r s := rfl
theorem exec_recordDelivery (c ch : _) (s : State) : exec (.recordDelivery c ch) s = execRecordDelivery c ch s := rfl
theorem exec_creditReturn (c ch : _) (s : State) : exec (.creditReturn c ch) s = execCreditReturn c ch s := rfl
theorem exec_deliveryResume (c ch : _) (s : State) : exec (.deliveryResume c ch) s = execDeliveryResume c ch s := rfl
theorem exec_channelWaitExpiry (c : _) (s : State) : exec (.channelWaitExpiry c) s = execChannelWaitExpiry c s := rfl
theorem exec_barrierArrivalCombine (c k : _) (s : State) : exec (.barrierArrivalCombine c k) s = execBarrierArrivalCombine c k s := rfl
theorem exec_barrierCornerFire (c k : _) (s : State) : exec (.barrierCornerFire c k) s = execBarrierCornerFire c k s := rfl
theorem exec_barrierReleaseReceipt (c k : _) (s : State) : exec (.barrierReleaseReceipt c k) s = execBarrierReleaseReceipt c k s := rfl
theorem exec_barrierBrokenNotice (c k : _) (s : State) : exec (.barrierBrokenNotice c k) s = execBarrierBrokenNotice c k s := rfl
theorem exec_barrierBrokenRelease (c k : _) (s : State) : exec (.barrierBrokenRelease c k) s = execBarrierBrokenRelease c k s := rfl
theorem exec_castOnOctetLoaded (o : _) (s : State) : exec (.castOnOctetLoaded o) s = execCastOnOctetLoaded o s := rfl
theorem exec_castOnImageFailure (cl : _) (s : State) : exec (.castOnImageFailure cl) s = execCastOnImageFailure cl s := rfl
theorem exec_priorityAging (ctx kid : _) (s : State) : exec (.priorityAging ctx kid) s = execPriorityAging ctx kid s := rfl
theorem exec_groupPlacement (cl : _) (s : State) : exec (.groupPlacement cl) s = execGroupPlacement cl s := rfl
theorem exec_rangeRequestArrival (die : _) (s : State) : exec (.rangeRequestArrival die) s = execRangeRequestArrival die s := rfl
theorem exec_rangeStep (die : _) (s : State) : exec (.rangeStep die) s = execRangeStep die s := rfl
theorem exec_rangeReturnHeld (die : _) (s : State) : exec (.rangeReturnHeld die) s = execRangeReturnHeld die s := rfl
theorem exec_eventHeldStore (cl : _) (s : State) : exec (.eventHeldStore cl) s = execEventHeldStore cl s := rfl
theorem exec_vacateDeadline (g : _) (s : State) : exec (.vacateDeadline g) s = execVacateDeadline g s := rfl
theorem exec_contextSaveBegin (g : _) (s : State) : exec (.contextSaveBegin g) s = execContextSaveBegin g s := rfl
theorem exec_contextSaveComplete (g : _) (s : State) : exec (.contextSaveComplete g) s = execContextSaveComplete g s := rfl
theorem exec_restoreComplete (cl : _) (s : State) : exec (.restoreComplete cl) s = execRestoreComplete cl s := rfl
theorem exec_portTrainingEnd (p lanes : _) (s : State) : exec (.portTrainingEnd p lanes) s = execPortTrainingEnd p lanes s := rfl
theorem exec_portTrainingTimeout (p : _) (s : State) : exec (.portTrainingTimeout p) s = execPortTrainingTimeout p s := rfl
theorem exec_portLaneLoss (p lanes : _) (s : State) : exec (.portLaneLoss p lanes) s = execPortLaneLoss p lanes s := rfl
theorem exec_portFailure (p : _) (s : State) : exec (.portFailure p) s = execPortFailure p s := rfl
theorem exec_ptpMessage (sec ns frac locked : _) (s : State) : exec (.ptpMessage sec ns frac locked) s = execPtpMessage sec ns frac locked s := rfl
theorem exec_frameIngress (p frame fcsOk : _) (s : State) : exec (.frameIngress p frame fcsOk) s = execFrameIngress p frame fcsOk s := rfl
theorem exec_frameBankFlip (w : _) (s : State) : exec (.frameBankFlip w) s = execFrameBankFlip w s := rfl
theorem exec_hostTailKick (ctx tail : _) (s : State) : exec (.hostTailKick ctx tail) s = execHostTailKick ctx tail s := rfl
theorem exec_hostCmdLaunch (ctx : _) (s : State) : exec (.hostCmdLaunch ctx) s = execHostCmdLaunch ctx s := rfl
theorem exec_hostCmdCancel (ctx : _) (s : State) : exec (.hostCmdCancel ctx) s = execHostCmdCancel ctx s := rfl
theorem exec_hostCmdAdmit (block ring cplRing szl cl : _) (s : State) : exec (.hostCmdAdmit block ring cplRing szl cl) s = execHostCmdAdmit block ring cplRing szl cl s := rfl
theorem exec_hostCmdRelease (s : State) : exec .hostCmdRelease s = execHostCmdRelease s := rfl
theorem exec_powerOn (badOctets badCores : _) (s : State) : exec (.powerOn badOctets badCores) s = execPowerOn badOctets badCores s := rfl
theorem exec_attestationRequest (w : _) (s : State) : exec (.attestationRequest w) s = execAttestationRequest w s := rfl
theorem exec_attestationReport (s : State) : exec .attestationReport s = execAttestationReport s := rfl
theorem exec_updateImageWrite (img : _) (s : State) : exec (.updateImageWrite img) s = execUpdateImageWrite img s := rfl
theorem exec_updateClusterSwitch (cl selfCheck : _) (s : State) : exec (.updateClusterSwitch cl selfCheck) s = execUpdateClusterSwitch cl selfCheck s := rfl
theorem exec_islandStart (n : _) (s : State) : exec (.islandStart n) s = execIslandStart n s := rfl
theorem exec_islandIdleStop (n : _) (s : State) : exec (.islandIdleStop n) s = execIslandIdleStop n s := rfl
theorem exec_islandStopRequest (n : _) (s : State) : exec (.islandStopRequest n) s = execIslandStopRequest n s := rfl
theorem exec_partFault (n : _) (s : State) : exec (.partFault n) s = execPartFault n s := rfl
theorem exec_controlCoreReset (cl : _) (s : State) : exec (.controlCoreReset cl) s = execControlCoreReset cl s := rfl
theorem exec_illegalInstr (s : State) : exec .illegalInstr s = execIllegalInstr s := rfl
theorem exec_fetchBoundary (s : State) : exec .fetchBoundary s = execFetchBoundary s := rfl
theorem exec_fetchEccFailure (s : State) : exec .fetchEccFailure s = execFetchEccFailure s := rfl
theorem exec_packagePowerLimit (reached : _) (s : State) : exec (.packagePowerLimit reached) s = execPackagePowerLimit reached s := rfl
theorem exec_powerLoss (s : State) : exec .powerLoss s = execPowerLoss s := rfl
theorem exec_hostMemoryAccess (pa data : _) (s : State) : exec (.hostMemoryAccess pa data) s = execHostMemoryAccess pa data s := rfl

end Sys2Proof.Machine
end

