-- ==== Sys2Proof/Laws/Issue.lean ====
section
/-! SUPPORT. What issuing an instruction comes to: one lemma per shared operation of an effect, for callers to cite
instead of unfolding it. -/

namespace Sys2Proof.Machine

/-! ## Issuing -/

theorem issueIf_settles {s : State} {legal ok need body} (h : s.MayIssueIf legal ok need) :
    issueIf legal ok need body s = .next (s.settle (body s)) := by
  have hp : ¬(need = .handler ∧ (s.th s.cur s.thr).priv = .user) := fun x => h.priv x.1 x.2
  simp [issueIf, State.issuePair, h.unpaired, State.issuePlain, h.room, h.legal, h.hint, h.whole, hp]

theorem issueIf_retires {s s' : State} {legal ok need body n} (h : s.MayIssueIf legal ok need)
    (hb : body s = .ok (n, s')) : issueIf legal ok need body s = s.retires s' n := by
  rw [issueIf_settles h, hb]; rfl

theorem issueIf_traps {s : State} {legal ok need body cause v edit} (h : s.MayIssueIf legal ok need)
    (hb : body s = .error (.trap cause v edit)) :
    issueIf legal ok need body s = .next (s.trapIssued (edit s) cause v) := by
  rw [issueIf_settles h, hb]; rfl

theorem issueIf_waits {s : State} {legal ok need body r edit} (h : s.MayIssueIf legal ok need)
    (hb : body s = .error (.wait r edit)) : issueIf legal ok need body s = .next ((s.sendWaiting (edit s)).waitFor r) := by
  rw [issueIf_settles h, hb]; rfl

/-- Outside a gang's lead nothing is forwarded: a trap is the one operation of R111, a wait changes nothing more (R125). -/
theorem State.trapIssued_plain {s t : State} (h : s.leads = false) (cause : BitVec 8) (v : Word) :
    s.trapIssued t cause v = t.takeTrap s.cur s.thr s.myTh.pcOf cause v := by
  simp [State.trapIssued, State.sendWord, h, State.myTh]

theorem State.sendWaiting_plain {s t : State} (h : s.leads = false) : s.sendWaiting t = t := by simp [State.sendWaiting, h]

/-- Only an A-thread leads a gang (R125). -/
theorem State.leads_x {s : State} (h : s.thr = .x) : s.leads = false := by simp [State.leads, h]

/-! ## Running an effect -/

theorem M.bind_ok {α β : Type} {m : M α} {f : α → M β} {s s' : State} {a : α} (h : m s = .ok (a, s')) :
    (m >>= f) s = f a s' := by
  show (StateT.bind m f) s = _
  simp [StateT.bind, h, bind, Except.bind]

theorem M.bind_error {α β : Type} {m : M α} {f : α → M β} {s : State} {e : Stop} (h : m s = .error e) :
    (m >>= f) s = .error e := by
  show (StateT.bind m f) s = _
  simp [StateT.bind, h, bind, Except.bind]

theorem M.seq_ok {m : M Unit} {s s' : State} (h : m s = .ok ((), s')) : seq m s = .ok (.seq, s') := by
  show (m >>= fun _ => pure Next.seq) s = _
  rw [M.bind_ok h]; rfl

theorem M.seq_error {m : M Unit} {s : State} {e : Stop} (h : m s = .error e) : seq m s = .error e := M.bind_error h

theorem M.bind_run {α β : Type} (m : M α) (f : α → M β) (s : State) :
    (m >>= f) s = match m s with | .ok r => f r.1 r.2 | .error e => .error e := by
  show (StateT.bind m f) s = _
  unfold StateT.bind
  cases m s <;> rfl

theorem M.map_run {α β : Type} (f : α → β) (m : M α) (s : State) :
    (f <$> m) s = match m s with | .ok r => .ok (f r.1, r.2) | .error e => .error e := by
  show (StateT.map f m) s = _
  unfold StateT.map
  show (m s >>= _) = _
  cases m s <;> rfl

theorem M.ite_run {α : Type} (c : Prop) [Decidable c] (m k : M α) (s : State) :
    (if c then m else k) s = if c then m s else k s := by split <;> rfl

theorem M.pure_run {α : Type} (a : α) (s : State) : (pure a : M α) s = .ok (a, s) := rfl
theorem get_ok (s : State) : (get : M State) s = .ok (s, s) := rfl
theorem set_ok (s t : State) : (set t : M Unit) s = .ok ((), t) := rfl
theorem updMyTh_ok (f : ThreadState → ThreadState) (s : State) : updMyTh f s = .ok ((), s.updTh s.cur s.thr f) := rfl
theorem modBit_ok (n : Nat) (s : State) : modBit n s = .ok (s.hintBit n, s) := rfl

theorem ask_ok {α : Type} (f : State → α) (s : State) : ask f s = .ok (f s, s) := rfl
theorem act_ok (f : State → State) (s : State) : act f s = .ok ((), f s) := rfl
theorem myCore_ok (s : State) : myCore s = .ok (s.me, s) := rfl
theorem myThread_ok (s : State) : myThread s = .ok (s.myTh, s) := rfl
theorem updMy_ok (f : Core → Core) (s : State) : updMy f s = .ok ((), s.mine f) := rfl
theorem satHint_ok (s : State) : satHint s = .ok (s.hintBit 0, s) := rfl
theorem satMode_ok (s : State) : satMode s = .ok (s.satOn, s) := rfl
theorem roundMode_ok (s : State) : roundMode s = .ok (s.me.rm, s) := rfl
theorem raise_ok (fl : Flags) (s : State) : raise fl s = .ok ((), s.mine fun k => k.raised fl) := rfl
theorem rdG_ok (r : Reg) (s : State) : rdG r s = .ok (s.me.gr r.val, s) := rfl
theorem wrG_ok (r : Reg) (w : Word) (s : State) : wrG r w s = .ok ((), s.mine fun k => k.setG r.val w) := rfl
theorem rdP_ok (n : Nat) (s : State) : rdP n s = .ok (s.me.pr n, s) := rfl
theorem wrP_ok (n : Nat) (w : PWord) (s : State) : wrP n w s = .ok ((), s.mine fun k => k.setP n w) := rfl
theorem myPc_ok (s : State) : myPc s = .ok (s.myTh.pc, s) := rfl
theorem immediate_ok (w f : Nat) (s : State) : immediate w f s = .ok (s.immOf w f, s) := by
  unfold immediate
  rw [M.bind_ok (myThread_ok s)]; rfl

/-! ## Memory without poison -/

theorem examine_ok {s : State} (a : Nat) (l : List Nat) (h : ∀ g ∈ l, s.mark g = .ok) : s.examine a l = (s, none) := by
  induction l with
  | nil => rfl
  | cons g gs ih => simp [State.examine, h g (by simp), ih fun x hx => h x (by simp [hx])]

theorem checkRead_ok {s : State} {a n : Nat} (h : ∀ g ∈ granules a n, s.mark g = .ok) : s.checkRead a n = (s, none) :=
  examine_ok a _ h

theorem checkWrite_ok {s : State} {a n : Nat} (h : ∀ g ∈ granules a n, s.mark g = .ok) : s.checkWrite a n = (s, none) :=
  examine_ok a _ fun g hg => h g (List.mem_filter.1 hg).1

theorem granuleTrap_ok (ea base : Nat) (s t : State) : granuleTrap ea base (t, none) s = .ok ((), t) := rfl

theorem fenced_settles {s : State} (h : s.fenced) : settleRelaxed s = .ok ((), s) := by
  have h2 : s.myTh.relaxFail = none := h.2
  unfold settleRelaxed
  simp only [M.bind_run, myThread_ok]
  simp [h.1, h2, M.pure_run]

/-- A thread with no relaxed store on its way performs none. -/
theorem State.ackAll_none {s : State} {c : CoreName} (h : (s.th c .a).relaxed = []) :
    s.ackAll c = s := by simp [State.ackAll, h]

/-- A release or an access behind no relaxed store and no record on its way waits for nothing (R289, R292, R293). -/
theorem coverStores_none {s : State} (h : (s.th s.cur .a).relaxed = []) : coverStores s = .ok ((), s) := by
  unfold coverStores
  simp only [M.bind_run, act_ok, ask_ok, State.ackAll_none h]
  simp [h, M.pure_run]

theorem settleSent_none {s : State} (h : s.unsent s.cur = false) : settleSent s = .ok ((), s) := by
  unfold settleSent
  simp only [M.bind_run, ask_ok, h]
  rfl

theorem orderRelaxed_none {s : State} {p n : Nat} (h : (s.th s.cur .a).relaxed = []) (hl : s.landsIn s.cur p n = false) :
    orderRelaxed (.here p) n s = .ok ((), s) := by
  unfold orderRelaxed
  simp only [M.bind_run, ask_ok, h, State.landsAt, hl, List.any_nil, Bool.false_eq_true, reduceIte]
  rfl

/-- With nothing on its way an access of the A-thread waits for nothing. -/
theorem State.quiet.lands {s : State} (h : s.quiet) (a n : Nat) : s.landsIn s.cur a n = false := by
  have hr := h.records
  simp only [State.unsent, State.landsIn, List.any_eq_false] at hr ⊢
  intro e he
  simp [hr e he]

theorem State.quiet.orders {s : State} (h : s.quiet) (p n : Nat) : orderRelaxed (.here p) n s = .ok ((), s) :=
  orderRelaxed_none h.stores (h.lands p n)

/-! ## Registers that are no stream aliases -/

theorem checkAliases_proper {s : State} (l : List Opnd) (h : ∀ o ∈ l, s.me.alias? o.reg = none) :
    checkAliases l s = .ok ((), s) := by
  have e : (l.findSome? fun o => (s.me.alias? o.reg).bind fun n => aliasMisuse (s.me.slot n.val) o.vec o.write) = none := by
    rw [List.findSome?_eq_none_iff]; intro o ho; simp [h o ho]
  unfold checkAliases
  rw [M.bind_ok (myCore_ok s), e]; rfl

theorem rdF_proper {s : State} {r : Reg} (h : s.me.alias? r.val = none) : rdF r s = .ok (s.me.fr r.val, s) := by
  unfold rdF
  rw [M.bind_ok (myCore_ok s), h]; rfl

theorem rdV_proper {s : State} {r : Reg} (h : s.me.alias? r.val = none) : rdV r s = .ok (s.me.vr r.val, s) := by
  unfold rdV
  rw [M.bind_ok (myCore_ok s), h]; rfl

theorem wrF_proper {s : State} {r : Reg} (w : Word) (h : s.me.alias? r.val = none) :
    wrF r w s = .ok ((), s.mine fun k => k.setF r.val w) := by
  unfold wrF
  rw [M.bind_ok (myCore_ok s), h]; rfl

theorem wrV_proper {s : State} {r : Reg} (w : VWord) (l : PWord) (h : s.me.alias? r.val = none) :
    wrV r w l s = .ok ((), s.mine fun k => k.setV r.val w) := by
  unfold wrV
  rw [M.bind_ok (myCore_ok s), h]; rfl

theorem oldF_proper {s : State} {r : Reg} (h : s.me.alias? r.val = none) : oldF r s = .ok ((s.me.fr r.val).toNat, s) := by
  unfold oldF
  rw [M.bind_ok (myCore_ok s)]; simp [h]; rfl

theorem oldV_proper {s : State} {r : Reg} (h : s.me.alias? r.val = none) : oldV r s = .ok ((s.me.vr r.val).toNat, s) := by
  unfold oldV
  rw [M.bind_ok (myCore_ok s)]; simp [h]; rfl

theorem xIssue_retires {s s' : State} {ok ops body} (h : s.MayIssue xAll ok .user)
    (ha : ∀ o ∈ ops, s.me.alias? o.reg = none) (hb : body s = .ok ((), s')) : xIssue ok ops body s = s.retires s' := by
  apply issueIf_retires h
  apply M.seq_ok
  rw [M.bind_ok (checkAliases_proper ops ha)]; exact hb

theorem putLanesF_proper {s : State} {d : Reg} (w : Nat) (on : Nat → Bool) (f : Nat → Nat × Flags)
    (h : s.me.alias? d.val = none) : putLanesF d w (64 / w) on f s = .ok ((), s.lanesF w on d f) := by
  unfold putLanesF
  rw [M.bind_ok (oldF_proper h), M.bind_ok (wrF_proper _ h)]; rfl

theorem putLanesV_proper {s : State} {d : Reg} (w : Nat) (g : PWord) (f : Nat → Nat × Flags)
    (h : s.me.alias? d.val = none) : putLanesV d w g f s = .ok ((), s.lanesV w g d f) := by
  unfold putLanesV
  rw [M.bind_ok (oldV_proper h), M.bind_ok (wrV_proper _ _ h)]; rfl

/-! ## Jumps -/

theorem jumpTo_ok {target : Int} (h : ¬(target < 0 ∨ 0x10000 < target)) (s : State) :
    jumpTo target s = .ok (.to target.toNat, s) := by
  unfold jumpTo; rw [if_neg h]; rfl

theorem jumpTo_trap {target : Int} (h : target < 0 ∨ 0x10000 < target) (s : State) :
    jumpTo target s = .error (.trap Cause.fetchBoundary (int64 target) id) := by
  unfold jumpTo; rw [if_pos h]; rfl

theorem branchTo_taken {o : BitVec 13} (s : State) : branchTo true o s = jumpTo (s.myTh.pc + 4 * s.immOf 13 o.toNat) s := by
  unfold branchTo
  simp only [if_true]
  rw [M.bind_ok (immediate_ok 13 o.toNat s), M.bind_ok (myPc_ok s)]

theorem branchTo_not {o : BitVec 13} (s : State) : branchTo false o s = .ok (.seq, s) := rfl

end Sys2Proof.Machine
end

