-- ==== Sys2Proof/Laws/PerInstr.lean ====
section
/-! SUPPORT. Per instruction: a word fits 32 bits, and an event of the device has none. -/

namespace Sys2Proof.Laws.Encoding

/-- The number that encodes an instruction is a word of 32 bits (R31). -/
def Statement (i : Instr) : Prop := ∀ n, encodeNat i = some n → n < 2 ^ 32

theorem add (d : Reg) (a : Reg) (b : Reg) : Statement (.add d a b) := fun wd h => by
  cases (show some (put3 0x20000000 d.val 21 a.val 16 b.val 11) = some wd from h)
  have b_d := d.isLt
  have b_a := a.isLt
  have b_b := b.isLt
  simp only [put1, put2, put3]; omega
theorem acq (a : Reg) : Statement (.acq a) := fun wd h => by
  cases (show some (put1 0x4C000001 a.val 16) = some wd from h)
  have b_a := a.isLt
  simp only [put1]; omega
theorem rel (a : Reg) : Statement (.rel a) := fun wd h => by
  cases (show some (put1 0x4C000003 a.val 16) = some wd from h)
  have b_a := a.isLt
  simp only [put1]; omega
theorem hintImm (d : BitVec 22) : Statement (.hintImm d) := fun wd h => by
  cases (show some (put1 0x04000000 d.toNat 0) = some wd from h)
  have b_d := d.isLt
  simp only [put1]; omega
theorem hintMod (m : BitVec 4) : Statement (.hintMod m) := fun wd h => by
  cases (show some (put1 0x04400000 m.toNat 0) = some wd from h)
  have b_m := m.isLt
  simp only [put1]; omega
theorem hintBr (b : BitVec 2) : Statement (.hintBr b) := fun wd h => by
  cases (show some (put1 0x04800000 b.toNat 0) = some wd from h)
  have b_b := b.isLt
  simp only [put1]; omega
theorem trap (c : BitVec 12) : Statement (.trap c) := fun wd h => by
  cases (show some (put1 0x08000000 c.toNat 0) = some wd from h)
  have b_c := c.isLt
  simp only [put1]; omega
theorem hret : Statement (.hret) := fun wd h => by
  cases (show some (0x08001000) = some wd from h)
  decide
theorem wait (d : Reg) (a : Reg) (l : Bool) (e : BitVec 4) : Statement (.wait d a l e) := fun wd h => by
  cases (show some (put4 0x08002000 d.val 21 a.val 16 (bit l) 11 e.toNat 0) = some wd from h)
  have b_d := d.isLt
  have b_a := a.isLt
  have b_l := (show bit l < 2 by cases l <;> decide)
  have b_e := e.isLt
  simp only [put1, put2, put3, put4]; omega
theorem csrr (d : Reg) (c : BitVec 12) : Statement (.csrr d c) := fun wd h => by
  cases (show some (put2 0x08003000 d.val 21 c.toNat 0) = some wd from h)
  have b_d := d.isLt
  have b_c := c.isLt
  simp only [put1, put2]; omega
theorem csrw (d : Reg) (a : Reg) (c : BitVec 12) : Statement (.csrw d a c) := fun wd h => by
  cases (show some (put3 0x08004000 d.val 21 a.val 16 c.toNat 0) = some wd from h)
  have b_d := d.isLt
  have b_a := a.isLt
  have b_c := c.isLt
  simp only [put1, put2, put3]; omega
theorem csrs (d : Reg) (a : Reg) (c : BitVec 12) : Statement (.csrs d a c) := fun wd h => by
  cases (show some (put3 0x08005000 d.val 21 a.val 16 c.toNat 0) = some wd from h)
  have b_d := d.isLt
  have b_a := a.isLt
  have b_c := c.isLt
  simp only [put1, put2, put3]; omega
theorem csrc (d : Reg) (a : Reg) (c : BitVec 12) : Statement (.csrc d a c) := fun wd h => by
  cases (show some (put3 0x08006000 d.val 21 a.val 16 c.toNat 0) = some wd from h)
  have b_d := d.isLt
  have b_a := a.isLt
  have b_c := c.isLt
  simp only [put1, put2, put3]; omega
theorem setxb (d : Reg) (a : Reg) : Statement (.setxb d a) := fun wd h => by
  cases (show some (put2 0x08007000 d.val 21 a.val 16) = some wd from h)
  have b_d := d.isLt
  have b_a := a.isLt
  simp only [put1, put2]; omega
theorem gangForm (d : Reg) (n : Fin 8) : Statement (.gangForm d n) := fun wd h => by
  cases (show some (put2 0x08008000 d.val 21 n.val 0) = some wd from h)
  have b_d := d.isLt
  have b_n := n.isLt
  simp only [put1, put2]; omega
theorem gangJoin (d : Reg) : Statement (.gangJoin d) := fun wd h => by
  cases (show some (put1 0x08008100 d.val 21) = some wd from h)
  have b_d := d.isLt
  simp only [put1]; omega
theorem gangEnd (d : Reg) : Statement (.gangEnd d) := fun wd h => by
  cases (show some (put1 0x08008200 d.val 21) = some wd from h)
  have b_d := d.isLt
  simp only [put1]; omega
theorem nop : Statement (.nop) := fun wd h => by
  cases (show some (0x08009000) = some wd from h)
  decide
theorem beq (a : Reg) (b : Reg) (o : BitVec 13) : Statement (.beq a b o) := fun wd h => by
  cases (show some (put3 0x0C000000 a.val 21 b.val 16 o.toNat 0) = some wd from h)
  have b_a := a.isLt
  have b_b := b.isLt
  have b_o := o.isLt
  simp only [put1, put2, put3]; omega
theorem bne (a : Reg) (b : Reg) (o : BitVec 13) : Statement (.bne a b o) := fun wd h => by
  cases (show some (put3 0x0C002000 a.val 21 b.val 16 o.toNat 0) = some wd from h)
  have b_a := a.isLt
  have b_b := b.isLt
  have b_o := o.isLt
  simp only [put1, put2, put3]; omega
theorem blt (a : Reg) (b : Reg) (o : BitVec 13) : Statement (.blt a b o) := fun wd h => by
  cases (show some (put3 0x0C004000 a.val 21 b.val 16 o.toNat 0) = some wd from h)
  have b_a := a.isLt
  have b_b := b.isLt
  have b_o := o.isLt
  simp only [put1, put2, put3]; omega
theorem bge (a : Reg) (b : Reg) (o : BitVec 13) : Statement (.bge a b o) := fun wd h => by
  cases (show some (put3 0x0C006000 a.val 21 b.val 16 o.toNat 0) = some wd from h)
  have b_a := a.isLt
  have b_b := b.isLt
  have b_o := o.isLt
  simp only [put1, put2, put3]; omega
theorem bltu (a : Reg) (b : Reg) (o : BitVec 13) : Statement (.bltu a b o) := fun wd h => by
  cases (show some (put3 0x0C008000 a.val 21 b.val 16 o.toNat 0) = some wd from h)
  have b_a := a.isLt
  have b_b := b.isLt
  have b_o := o.isLt
  simp only [put1, put2, put3]; omega
theorem bgeu (a : Reg) (b : Reg) (o : BitVec 13) : Statement (.bgeu a b o) := fun wd h => by
  cases (show some (put3 0x0C00A000 a.val 21 b.val 16 o.toNat 0) = some wd from h)
  have b_a := a.isLt
  have b_b := b.isLt
  have b_o := o.isLt
  simp only [put1, put2, put3]; omega
theorem jal (d : Reg) (o : BitVec 19) : Statement (.jal d o) := fun wd h => by
  cases (show some (put2 0x10000000 d.val 21 o.toNat 0) = some wd from h)
  have b_d := d.isLt
  have b_o := o.isLt
  simp only [put1, put2]; omega
theorem call (d : Reg) (o : BitVec 19) : Statement (.call d o) := fun wd h => by
  cases (show some (put2 0x10080000 d.val 21 o.toNat 0) = some wd from h)
  have b_d := d.isLt
  have b_o := o.isLt
  simp only [put1, put2]; omega
theorem jalr (d : Reg) (a : Reg) (i : BitVec 14) : Statement (.jalr d a i) := fun wd h => by
  cases (show some (put3 0x10100000 d.val 21 a.val 14 i.toNat 0) = some wd from h)
  have b_d := d.isLt
  have b_a := a.isLt
  have b_i := i.isLt
  simp only [put1, put2, put3]; omega
theorem ret (a : Reg) : Statement (.ret a) := fun wd h => by
  cases (show some (put1 0x10180000 a.val 14) = some wd from h)
  have b_a := a.isLt
  simp only [put1]; omega
theorem bpany (p : Fin 8) (o : BitVec 13) : Statement (.bpany p o) := fun wd h => by
  cases (show some (put2 0x14000000 p.val 21 o.toNat 0) = some wd from h)
  have b_p := p.isLt
  have b_o := o.isLt
  simp only [put1, put2]; omega
theorem bpnone (p : Fin 8) (o : BitVec 13) : Statement (.bpnone p o) := fun wd h => by
  cases (show some (put2 0x14002000 p.val 21 o.toNat 0) = some wd from h)
  have b_p := p.isLt
  have b_o := o.isLt
  simp only [put1, put2]; omega
theorem bpall (p : Fin 8) (o : BitVec 13) : Statement (.bpall p o) := fun wd h => by
  cases (show some (put2 0x14004000 p.val 21 o.toNat 0) = some wd from h)
  have b_p := p.isLt
  have b_o := o.isLt
  simp only [put1, put2]; omega
theorem bpnall (p : Fin 8) (o : BitVec 13) : Statement (.bpnall p o) := fun wd h => by
  cases (show some (put2 0x14006000 p.val 21 o.toNat 0) = some wd from h)
  have b_p := p.isLt
  have b_o := o.isLt
  simp only [put1, put2]; omega
theorem bfz (f : Reg) (o : BitVec 13) : Statement (.bfz f o) := fun wd h => by
  cases (show some (put2 0x14008000 f.val 21 o.toNat 0) = some wd from h)
  have b_f := f.isLt
  have b_o := o.isLt
  simp only [put1, put2]; omega
theorem bfnz (f : Reg) (o : BitVec 13) : Statement (.bfnz f o) := fun wd h => by
  cases (show some (put2 0x1400A000 f.val 21 o.toNat 0) = some wd from h)
  have b_f := f.isLt
  have b_o := o.isLt
  simp only [put1, put2]; omega
theorem bfltz (f : Reg) (o : BitVec 13) : Statement (.bfltz f o) := fun wd h => by
  cases (show some (put2 0x1400C000 f.val 21 o.toNat 0) = some wd from h)
  have b_f := f.isLt
  have b_o := o.isLt
  simp only [put1, put2]; omega
theorem bfgez (f : Reg) (o : BitVec 13) : Statement (.bfgez f o) := fun wd h => by
  cases (show some (put2 0x1400E000 f.val 21 o.toNat 0) = some wd from h)
  have b_f := f.isLt
  have b_o := o.isLt
  simp only [put1, put2]; omega
theorem pushmG (d : Reg) (a : Reg) : Statement (.pushmG d a) := fun wd h => by
  cases (show some (put2 0x18000000 d.val 21 a.val 16) = some wd from h)
  have b_d := d.isLt
  have b_a := a.isLt
  simp only [put1, put2]; omega
theorem pushmF (d : Reg) (a : Reg) : Statement (.pushmF d a) := fun wd h => by
  cases (show some (put2 0x18000001 d.val 21 a.val 16) = some wd from h)
  have b_d := d.isLt
  have b_a := a.isLt
  simp only [put1, put2]; omega
theorem pushmV (d : Reg) (a : Reg) : Statement (.pushmV d a) := fun wd h => by
  cases (show some (put2 0x18000002 d.val 21 a.val 16) = some wd from h)
  have b_d := d.isLt
  have b_a := a.isLt
  simp only [put1, put2]; omega
theorem popmG (d : Reg) (a : Reg) : Statement (.popmG d a) := fun wd h => by
  cases (show some (put2 0x18000004 d.val 21 a.val 16) = some wd from h)
  have b_d := d.isLt
  have b_a := a.isLt
  simp only [put1, put2]; omega
theorem popmF (d : Reg) (a : Reg) : Statement (.popmF d a) := fun wd h => by
  cases (show some (put2 0x18000005 d.val 21 a.val 16) = some wd from h)
  have b_d := d.isLt
  have b_a := a.isLt
  simp only [put1, put2]; omega
theorem popmV (d : Reg) (a : Reg) : Statement (.popmV d a) := fun wd h => by
  cases (show some (put2 0x18000006 d.val 21 a.val 16) = some wd from h)
  have b_d := d.isLt
  have b_a := a.isLt
  simp only [put1, put2]; omega
theorem sub (d : Reg) (a : Reg) (b : Reg) : Statement (.sub d a b) := fun wd h => by
  cases (show some (put3 0x20000001 d.val 21 a.val 16 b.val 11) = some wd from h)
  have b_d := d.isLt
  have b_a := a.isLt
  have b_b := b.isLt
  simp only [put1, put2, put3]; omega
theorem and (d : Reg) (a : Reg) (b : Reg) : Statement (.and d a b) := fun wd h => by
  cases (show some (put3 0x20000002 d.val 21 a.val 16 b.val 11) = some wd from h)
  have b_d := d.isLt
  have b_a := a.isLt
  have b_b := b.isLt
  simp only [put1, put2, put3]; omega
theorem or (d : Reg) (a : Reg) (b : Reg) : Statement (.or d a b) := fun wd h => by
  cases (show some (put3 0x20000003 d.val 21 a.val 16 b.val 11) = some wd from h)
  have b_d := d.isLt
  have b_a := a.isLt
  have b_b := b.isLt
  simp only [put1, put2, put3]; omega
theorem xor (d : Reg) (a : Reg) (b : Reg) : Statement (.xor d a b) := fun wd h => by
  cases (show some (put3 0x20000004 d.val 21 a.val 16 b.val 11) = some wd from h)
  have b_d := d.isLt
  have b_a := a.isLt
  have b_b := b.isLt
  simp only [put1, put2, put3]; omega
theorem sll (d : Reg) (a : Reg) (b : Reg) : Statement (.sll d a b) := fun wd h => by
  cases (show some (put3 0x20000005 d.val 21 a.val 16 b.val 11) = some wd from h)
  have b_d := d.isLt
  have b_a := a.isLt
  have b_b := b.isLt
  simp only [put1, put2, put3]; omega
theorem srl (d : Reg) (a : Reg) (b : Reg) : Statement (.srl d a b) := fun wd h => by
  cases (show some (put3 0x20000006 d.val 21 a.val 16 b.val 11) = some wd from h)
  have b_d := d.isLt
  have b_a := a.isLt
  have b_b := b.isLt
  simp only [put1, put2, put3]; omega
theorem sra (d : Reg) (a : Reg) (b : Reg) : Statement (.sra d a b) := fun wd h => by
  cases (show some (put3 0x20000007 d.val 21 a.val 16 b.val 11) = some wd from h)
  have b_d := d.isLt
  have b_a := a.isLt
  have b_b := b.isLt
  simp only [put1, put2, put3]; omega
theorem slt (d : Reg) (a : Reg) (b : Reg) : Statement (.slt d a b) := fun wd h => by
  cases (show some (put3 0x20000008 d.val 21 a.val 16 b.val 11) = some wd from h)
  have b_d := d.isLt
  have b_a := a.isLt
  have b_b := b.isLt
  simp only [put1, put2, put3]; omega
theorem sltu (d : Reg) (a : Reg) (b : Reg) : Statement (.sltu d a b) := fun wd h => by
  cases (show some (put3 0x20000009 d.val 21 a.val 16 b.val 11) = some wd from h)
  have b_d := d.isLt
  have b_a := a.isLt
  have b_b := b.isLt
  simp only [put1, put2, put3]; omega
theorem min (d : Reg) (a : Reg) (b : Reg) : Statement (.min d a b) := fun wd h => by
  cases (show some (put3 0x2000000A d.val 21 a.val 16 b.val 11) = some wd from h)
  have b_d := d.isLt
  have b_a := a.isLt
  have b_b := b.isLt
  simp only [put1, put2, put3]; omega
theorem max (d : Reg) (a : Reg) (b : Reg) : Statement (.max d a b) := fun wd h => by
  cases (show some (put3 0x2000000B d.val 21 a.val 16 b.val 11) = some wd from h)
  have b_d := d.isLt
  have b_a := a.isLt
  have b_b := b.isLt
  simp only [put1, put2, put3]; omega
theorem minu (d : Reg) (a : Reg) (b : Reg) : Statement (.minu d a b) := fun wd h => by
  cases (show some (put3 0x2000000C d.val 21 a.val 16 b.val 11) = some wd from h)
  have b_d := d.isLt
  have b_a := a.isLt
  have b_b := b.isLt
  simp only [put1, put2, put3]; omega
theorem maxu (d : Reg) (a : Reg) (b : Reg) : Statement (.maxu d a b) := fun wd h => by
  cases (show some (put3 0x2000000D d.val 21 a.val 16 b.val 11) = some wd from h)
  have b_d := d.isLt
  have b_a := a.isLt
  have b_b := b.isLt
  simp only [put1, put2, put3]; omega
theorem rol (d : Reg) (a : Reg) (b : Reg) : Statement (.rol d a b) := fun wd h => by
  cases (show some (put3 0x2000000E d.val 21 a.val 16 b.val 11) = some wd from h)
  have b_d := d.isLt
  have b_a := a.isLt
  have b_b := b.isLt
  simp only [put1, put2, put3]; omega
theorem ror (d : Reg) (a : Reg) (b : Reg) : Statement (.ror d a b) := fun wd h => by
  cases (show some (put3 0x2000000F d.val 21 a.val 16 b.val 11) = some wd from h)
  have b_d := d.isLt
  have b_a := a.isLt
  have b_b := b.isLt
  simp only [put1, put2, put3]; omega
theorem clz (d : Reg) (a : Reg) : Statement (.clz d a) := fun wd h => by
  cases (show some (put2 0x20000010 d.val 21 a.val 16) = some wd from h)
  have b_d := d.isLt
  have b_a := a.isLt
  simp only [put1, put2]; omega
theorem ctz (d : Reg) (a : Reg) : Statement (.ctz d a) := fun wd h => by
  cases (show some (put2 0x20000011 d.val 21 a.val 16) = some wd from h)
  have b_d := d.isLt
  have b_a := a.isLt
  simp only [put1, put2]; omega
theorem popc (d : Reg) (a : Reg) : Statement (.popc d a) := fun wd h => by
  cases (show some (put2 0x20000012 d.val 21 a.val 16) = some wd from h)
  have b_d := d.isLt
  have b_a := a.isLt
  simp only [put1, put2]; omega
theorem addi (d : Reg) (a : Reg) (i : BitVec 12) : Statement (.addi d a i) := fun wd h => by
  cases (show some (put3 0x24000000 d.val 21 a.val 16 i.toNat 0) = some wd from h)
  have b_d := d.isLt
  have b_a := a.isLt
  have b_i := i.isLt
  simp only [put1, put2, put3]; omega
theorem andi (d : Reg) (a : Reg) (i : BitVec 12) : Statement (.andi d a i) := fun wd h => by
  cases (show some (put3 0x24001000 d.val 21 a.val 16 i.toNat 0) = some wd from h)
  have b_d := d.isLt
  have b_a := a.isLt
  have b_i := i.isLt
  simp only [put1, put2, put3]; omega
theorem ori (d : Reg) (a : Reg) (i : BitVec 12) : Statement (.ori d a i) := fun wd h => by
  cases (show some (put3 0x24002000 d.val 21 a.val 16 i.toNat 0) = some wd from h)
  have b_d := d.isLt
  have b_a := a.isLt
  have b_i := i.isLt
  simp only [put1, put2, put3]; omega
theorem xori (d : Reg) (a : Reg) (i : BitVec 12) : Statement (.xori d a i) := fun wd h => by
  cases (show some (put3 0x24003000 d.val 21 a.val 16 i.toNat 0) = some wd from h)
  have b_d := d.isLt
  have b_a := a.isLt
  have b_i := i.isLt
  simp only [put1, put2, put3]; omega
theorem slti (d : Reg) (a : Reg) (i : BitVec 12) : Statement (.slti d a i) := fun wd h => by
  cases (show some (put3 0x24004000 d.val 21 a.val 16 i.toNat 0) = some wd from h)
  have b_d := d.isLt
  have b_a := a.isLt
  have b_i := i.isLt
  simp only [put1, put2, put3]; omega
theorem sltiu (d : Reg) (a : Reg) (i : BitVec 12) : Statement (.sltiu d a i) := fun wd h => by
  cases (show some (put3 0x24005000 d.val 21 a.val 16 i.toNat 0) = some wd from h)
  have b_d := d.isLt
  have b_a := a.isLt
  have b_i := i.isLt
  simp only [put1, put2, put3]; omega
theorem slli (d : Reg) (a : Reg) (s : Fin 64) : Statement (.slli d a s) := fun wd h => by
  cases (show some (put3 0x24006000 d.val 21 a.val 16 s.val 0) = some wd from h)
  have b_d := d.isLt
  have b_a := a.isLt
  have b_s := s.isLt
  simp only [put1, put2, put3]; omega
theorem srli (d : Reg) (a : Reg) (s : Fin 64) : Statement (.srli d a s) := fun wd h => by
  cases (show some (put3 0x24007000 d.val 21 a.val 16 s.val 0) = some wd from h)
  have b_d := d.isLt
  have b_a := a.isLt
  have b_s := s.isLt
  simp only [put1, put2, put3]; omega
theorem srai (d : Reg) (a : Reg) (s : Fin 64) : Statement (.srai d a s) := fun wd h => by
  cases (show some (put3 0x24008000 d.val 21 a.val 16 s.val 0) = some wd from h)
  have b_d := d.isLt
  have b_a := a.isLt
  have b_s := s.isLt
  simp only [put1, put2, put3]; omega
theorem rori (d : Reg) (a : Reg) (s : Fin 64) : Statement (.rori d a s) := fun wd h => by
  cases (show some (put3 0x24009000 d.val 21 a.val 16 s.val 0) = some wd from h)
  have b_d := d.isLt
  have b_a := a.isLt
  have b_s := s.isLt
  simp only [put1, put2, put3]; omega
theorem lui (d : Reg) (i : BitVec 16) : Statement (.lui d i) := fun wd h => by
  cases (show some (put2 0x28000000 d.val 21 i.toNat 0) = some wd from h)
  have b_d := d.isLt
  have b_i := i.isLt
  simp only [put1, put2]; omega
theorem luih (d : Reg) (i : BitVec 16) : Statement (.luih d i) := fun wd h => by
  cases (show some (put2 0x28010000 d.val 21 i.toNat 0) = some wd from h)
  have b_d := d.isLt
  have b_i := i.isLt
  simp only [put1, put2]; omega
theorem luit (d : Reg) (i : BitVec 16) : Statement (.luit d i) := fun wd h => by
  cases (show some (put2 0x28020000 d.val 21 i.toNat 0) = some wd from h)
  have b_d := d.isLt
  have b_i := i.isLt
  simp only [put1, put2]; omega
theorem addpc (d : Reg) (i : BitVec 16) : Statement (.addpc d i) := fun wd h => by
  cases (show some (put2 0x28030000 d.val 21 i.toNat 0) = some wd from h)
  have b_d := d.isLt
  have b_i := i.isLt
  simp only [put1, put2]; omega
theorem mul (d : Reg) (a : Reg) (b : Reg) : Statement (.mul d a b) := fun wd h => by
  cases (show some (put3 0x2C000000 d.val 21 a.val 16 b.val 11) = some wd from h)
  have b_d := d.isLt
  have b_a := a.isLt
  have b_b := b.isLt
  simp only [put1, put2, put3]; omega
theorem mulh (d : Reg) (a : Reg) (b : Reg) : Statement (.mulh d a b) := fun wd h => by
  cases (show some (put3 0x2C000001 d.val 21 a.val 16 b.val 11) = some wd from h)
  have b_d := d.isLt
  have b_a := a.isLt
  have b_b := b.isLt
  simp only [put1, put2, put3]; omega
theorem mulhu (d : Reg) (a : Reg) (b : Reg) : Statement (.mulhu d a b) := fun wd h => by
  cases (show some (put3 0x2C000002 d.val 21 a.val 16 b.val 11) = some wd from h)
  have b_d := d.isLt
  have b_a := a.isLt
  have b_b := b.isLt
  simp only [put1, put2, put3]; omega
theorem div (d : Reg) (a : Reg) (b : Reg) : Statement (.div d a b) := fun wd h => by
  cases (show some (put3 0x2C000003 d.val 21 a.val 16 b.val 11) = some wd from h)
  have b_d := d.isLt
  have b_a := a.isLt
  have b_b := b.isLt
  simp only [put1, put2, put3]; omega
theorem divu (d : Reg) (a : Reg) (b : Reg) : Statement (.divu d a b) := fun wd h => by
  cases (show some (put3 0x2C000004 d.val 21 a.val 16 b.val 11) = some wd from h)
  have b_d := d.isLt
  have b_a := a.isLt
  have b_b := b.isLt
  simp only [put1, put2, put3]; omega
theorem rem (d : Reg) (a : Reg) (b : Reg) : Statement (.rem d a b) := fun wd h => by
  cases (show some (put3 0x2C000005 d.val 21 a.val 16 b.val 11) = some wd from h)
  have b_d := d.isLt
  have b_a := a.isLt
  have b_b := b.isLt
  simp only [put1, put2, put3]; omega
theorem remu (d : Reg) (a : Reg) (b : Reg) : Statement (.remu d a b) := fun wd h => by
  cases (show some (put3 0x2C000006 d.val 21 a.val 16 b.val 11) = some wd from h)
  have b_d := d.isLt
  have b_a := a.isLt
  have b_b := b.isLt
  simp only [put1, put2, put3]; omega
theorem ldb (d : Reg) (a : Reg) (i : BitVec 12) : Statement (.ldb d a i) := fun wd h => by
  cases (show some (put3 0x40000000 d.val 21 a.val 16 i.toNat 0) = some wd from h)
  have b_d := d.isLt
  have b_a := a.isLt
  have b_i := i.isLt
  simp only [put1, put2, put3]; omega
theorem ldbu (d : Reg) (a : Reg) (i : BitVec 12) : Statement (.ldbu d a i) := fun wd h => by
  cases (show some (put3 0x40001000 d.val 21 a.val 16 i.toNat 0) = some wd from h)
  have b_d := d.isLt
  have b_a := a.isLt
  have b_i := i.isLt
  simp only [put1, put2, put3]; omega
theorem ldh (d : Reg) (a : Reg) (i : BitVec 12) : Statement (.ldh d a i) := fun wd h => by
  cases (show some (put3 0x40002000 d.val 21 a.val 16 i.toNat 0) = some wd from h)
  have b_d := d.isLt
  have b_a := a.isLt
  have b_i := i.isLt
  simp only [put1, put2, put3]; omega
theorem ldhu (d : Reg) (a : Reg) (i : BitVec 12) : Statement (.ldhu d a i) := fun wd h => by
  cases (show some (put3 0x40003000 d.val 21 a.val 16 i.toNat 0) = some wd from h)
  have b_d := d.isLt
  have b_a := a.isLt
  have b_i := i.isLt
  simp only [put1, put2, put3]; omega
theorem ldw (d : Reg) (a : Reg) (i : BitVec 12) : Statement (.ldw d a i) := fun wd h => by
  cases (show some (put3 0x40004000 d.val 21 a.val 16 i.toNat 0) = some wd from h)
  have b_d := d.isLt
  have b_a := a.isLt
  have b_i := i.isLt
  simp only [put1, put2, put3]; omega
theorem ldwu (d : Reg) (a : Reg) (i : BitVec 12) : Statement (.ldwu d a i) := fun wd h => by
  cases (show some (put3 0x40005000 d.val 21 a.val 16 i.toNat 0) = some wd from h)
  have b_d := d.isLt
  have b_a := a.isLt
  have b_i := i.isLt
  simp only [put1, put2, put3]; omega
theorem ldd (d : Reg) (a : Reg) (i : BitVec 12) : Statement (.ldd d a i) := fun wd h => by
  cases (show some (put3 0x40006000 d.val 21 a.val 16 i.toNat 0) = some wd from h)
  have b_d := d.isLt
  have b_a := a.isLt
  have b_i := i.isLt
  simp only [put1, put2, put3]; omega
theorem xpref (a : Reg) (i : BitVec 12) : Statement (.xpref a i) := fun wd h => by
  cases (show some (put2 0x40007000 a.val 16 i.toNat 0) = some wd from h)
  have b_a := a.isLt
  have b_i := i.isLt
  simp only [put1, put2]; omega
theorem stb (s : Reg) (b : Reg) (i : BitVec 12) : Statement (.stb s b i) := fun wd h => by
  cases (show some (put3 0x44000000 s.val 21 b.val 16 i.toNat 0) = some wd from h)
  have b_s := s.isLt
  have b_b := b.isLt
  have b_i := i.isLt
  simp only [put1, put2, put3]; omega
theorem sth (s : Reg) (b : Reg) (i : BitVec 12) : Statement (.sth s b i) := fun wd h => by
  cases (show some (put3 0x44001000 s.val 21 b.val 16 i.toNat 0) = some wd from h)
  have b_s := s.isLt
  have b_b := b.isLt
  have b_i := i.isLt
  simp only [put1, put2, put3]; omega
theorem stw (s : Reg) (b : Reg) (i : BitVec 12) : Statement (.stw s b i) := fun wd h => by
  cases (show some (put3 0x44002000 s.val 21 b.val 16 i.toNat 0) = some wd from h)
  have b_s := s.isLt
  have b_b := b.isLt
  have b_i := i.isLt
  simp only [put1, put2, put3]; omega
theorem std (s : Reg) (b : Reg) (i : BitVec 12) : Statement (.std s b i) := fun wd h => by
  cases (show some (put3 0x44003000 s.val 21 b.val 16 i.toNat 0) = some wd from h)
  have b_s := s.isLt
  have b_b := b.isLt
  have b_i := i.isLt
  simp only [put1, put2, put3]; omega
theorem stn (s : Reg) (b : Reg) (i : BitVec 12) : Statement (.stn s b i) := fun wd h => by
  cases (show some (put3 0x44004000 s.val 21 b.val 16 i.toNat 0) = some wd from h)
  have b_s := s.isLt
  have b_b := b.isLt
  have b_i := i.isLt
  simp only [put1, put2, put3]; omega
theorem amoadd (d : Reg) (a : Reg) (b : Reg) (w : Bool) : Statement (.amoadd d a b w) := fun wd h => by
  cases (show some (put4 0x48000000 d.val 21 a.val 16 b.val 11 (bit w) 8) = some wd from h)
  have b_d := d.isLt
  have b_a := a.isLt
  have b_b := b.isLt
  have b_w := (show bit w < 2 by cases w <;> decide)
  simp only [put1, put2, put3, put4]; omega
theorem amoand (d : Reg) (a : Reg) (b : Reg) (w : Bool) : Statement (.amoand d a b w) := fun wd h => by
  cases (show some (put4 0x48000001 d.val 21 a.val 16 b.val 11 (bit w) 8) = some wd from h)
  have b_d := d.isLt
  have b_a := a.isLt
  have b_b := b.isLt
  have b_w := (show bit w < 2 by cases w <;> decide)
  simp only [put1, put2, put3, put4]; omega
theorem amoor (d : Reg) (a : Reg) (b : Reg) (w : Bool) : Statement (.amoor d a b w) := fun wd h => by
  cases (show some (put4 0x48000002 d.val 21 a.val 16 b.val 11 (bit w) 8) = some wd from h)
  have b_d := d.isLt
  have b_a := a.isLt
  have b_b := b.isLt
  have b_w := (show bit w < 2 by cases w <;> decide)
  simp only [put1, put2, put3, put4]; omega
theorem amoxor (d : Reg) (a : Reg) (b : Reg) (w : Bool) : Statement (.amoxor d a b w) := fun wd h => by
  cases (show some (put4 0x48000003 d.val 21 a.val 16 b.val 11 (bit w) 8) = some wd from h)
  have b_d := d.isLt
  have b_a := a.isLt
  have b_b := b.isLt
  have b_w := (show bit w < 2 by cases w <;> decide)
  simp only [put1, put2, put3, put4]; omega
theorem amomin (d : Reg) (a : Reg) (b : Reg) (w : Bool) : Statement (.amomin d a b w) := fun wd h => by
  cases (show some (put4 0x48000004 d.val 21 a.val 16 b.val 11 (bit w) 8) = some wd from h)
  have b_d := d.isLt
  have b_a := a.isLt
  have b_b := b.isLt
  have b_w := (show bit w < 2 by cases w <;> decide)
  simp only [put1, put2, put3, put4]; omega
theorem amomax (d : Reg) (a : Reg) (b : Reg) (w : Bool) : Statement (.amomax d a b w) := fun wd h => by
  cases (show some (put4 0x48000005 d.val 21 a.val 16 b.val 11 (bit w) 8) = some wd from h)
  have b_d := d.isLt
  have b_a := a.isLt
  have b_b := b.isLt
  have b_w := (show bit w < 2 by cases w <;> decide)
  simp only [put1, put2, put3, put4]; omega
theorem amominu (d : Reg) (a : Reg) (b : Reg) (w : Bool) : Statement (.amominu d a b w) := fun wd h => by
  cases (show some (put4 0x48000006 d.val 21 a.val 16 b.val 11 (bit w) 8) = some wd from h)
  have b_d := d.isLt
  have b_a := a.isLt
  have b_b := b.isLt
  have b_w := (show bit w < 2 by cases w <;> decide)
  simp only [put1, put2, put3, put4]; omega
theorem amomaxu (d : Reg) (a : Reg) (b : Reg) (w : Bool) : Statement (.amomaxu d a b w) := fun wd h => by
  cases (show some (put4 0x48000007 d.val 21 a.val 16 b.val 11 (bit w) 8) = some wd from h)
  have b_d := d.isLt
  have b_a := a.isLt
  have b_b := b.isLt
  have b_w := (show bit w < 2 by cases w <;> decide)
  simp only [put1, put2, put3, put4]; omega
theorem amoswap (d : Reg) (a : Reg) (b : Reg) (w : Bool) : Statement (.amoswap d a b w) := fun wd h => by
  cases (show some (put4 0x48000008 d.val 21 a.val 16 b.val 11 (bit w) 8) = some wd from h)
  have b_d := d.isLt
  have b_a := a.isLt
  have b_b := b.isLt
  have b_w := (show bit w < 2 by cases w <;> decide)
  simp only [put1, put2, put3, put4]; omega
theorem amocas (d : Reg) (a : Reg) (b : Reg) (w : Bool) : Statement (.amocas d a b w) := fun wd h => by
  cases (show some (put4 0x48000009 d.val 21 a.val 16 b.val 11 (bit w) 8) = some wd from h)
  have b_d := d.isLt
  have b_a := a.isLt
  have b_b := b.isLt
  have b_w := (show bit w < 2 by cases w <;> decide)
  simp only [put1, put2, put3, put4]; omega
theorem bind (s : Reg) (a : Reg) (b : Reg) : Statement (.bind s a b) := fun wd h => by
  cases (show some (put3 0x4C000000 s.val 21 a.val 16 b.val 11) = some wd from h)
  have b_s := s.isLt
  have b_a := a.isLt
  have b_b := b.isLt
  simp only [put1, put2, put3]; omega
theorem acqr (a : Reg) : Statement (.acqr a) := fun wd h => by
  cases (show some (put1 0x4C000002 a.val 16) = some wd from h)
  have b_a := a.isLt
  simp only [put1]; omega
theorem fence (s : Reg) : Statement (.fence s) := fun wd h => by
  cases (show some (put1 0x4C000004 s.val 16) = some wd from h)
  have b_s := s.isLt
  simp only [put1]; omega
theorem discard (m : Reg) (a : Reg) (b : Reg) : Statement (.discard m a b) := fun wd h => by
  cases (show some (put3 0x4C000005 m.val 21 a.val 16 b.val 11) = some wd from h)
  have b_m := m.isLt
  have b_a := a.isLt
  have b_b := b.isLt
  simp only [put1, put2, put3]; omega
theorem scfg (n : Fin 4) (a : Reg) (b : Reg) : Statement (.scfg n a b) := fun wd h => by
  cases (show some (put3 0x50000000 n.val 21 a.val 16 b.val 11) = some wd from h)
  have b_n := n.isLt
  have b_a := a.isLt
  have b_b := b.isLt
  simp only [put1, put2, put3]; omega
theorem sdim (k : Fin 4) (n : Fin 4) (a : Reg) (b : Reg) : Statement (.sdim k n a b) := fun wd h => by
  cases (show some (put4 0x50000001 k.val 23 n.val 21 a.val 16 b.val 11) = some wd from h)
  have b_k := k.isLt
  have b_n := n.isLt
  have b_a := a.isLt
  have b_b := b.isLt
  simp only [put1, put2, put3, put4]; omega
theorem sind (n : Fin 4) (m : Fin 4) (b : Reg) : Statement (.sind n m b) := fun wd h => by
  cases (show some (put3 0x50000002 n.val 21 m.val 16 b.val 11) = some wd from h)
  have b_n := n.isLt
  have b_m := m.isLt
  have b_b := b.isLt
  simp only [put1, put2, put3]; omega
theorem sman (n : Fin 4) (b : Reg) : Statement (.sman n b) := fun wd h => by
  cases (show some (put2 0x50000003 n.val 21 b.val 11) = some wd from h)
  have b_n := n.isLt
  have b_b := b.isLt
  simp only [put1, put2]; omega
theorem sen (n : Fin 4) : Statement (.sen n) := fun wd h => by
  cases (show some (put1 0x50000004 n.val 21) = some wd from h)
  have b_n := n.isLt
  simp only [put1]; omega
theorem sdis (n : Fin 4) : Statement (.sdis n) := fun wd h => by
  cases (show some (put1 0x50000005 n.val 21) = some wd from h)
  have b_n := n.isLt
  simp only [put1]; omega
theorem sflush (n : Fin 4) : Statement (.sflush n) := fun wd h => by
  cases (show some (put1 0x50000006 n.val 21) = some wd from h)
  have b_n := n.isLt
  simp only [put1]; omega
theorem ldq (n : Fin 4) (a : Reg) : Statement (.ldq n a) := fun wd h => by
  cases (show some (put2 0x54000000 n.val 21 a.val 16) = some wd from h)
  have b_n := n.isLt
  have b_a := a.isLt
  simp only [put1, put2]; omega
theorem stq (n : Fin 4) (a : Reg) : Statement (.stq n a) := fun wd h => by
  cases (show some (put2 0x54000001 n.val 21 a.val 16) = some wd from h)
  have b_n := n.isLt
  have b_a := a.isLt
  simp only [put1, put2]; omega
theorem qput (a : Reg) : Statement (.qput a) := fun wd h => by
  cases (show some (put1 0x54000002 a.val 16) = some wd from h)
  have b_a := a.isLt
  simp only [put1]; omega
theorem qget (d : Reg) : Statement (.qget d) := fun wd h => by
  cases (show some (put1 0x54000003 d.val 21) = some wd from h)
  have b_d := d.isLt
  simp only [put1]; omega
theorem rpt (a : Reg) (m : BitVec 4) (p : Fin 4) (l : Fin 16) : Statement (.rpt a m p l) := fun wd h => by
  cases (show some (put4 0x58000000 a.val 16 m.toNat 6 p.val 4 l.val 0) = some wd from h)
  have b_a := a.isLt
  have b_m := m.isLt
  have b_p := p.isLt
  have b_l := l.isLt
  simp only [put1, put2, put3, put4]; omega
theorem send (c : Reg) (a : Reg) (b : Reg) : Statement (.send c a b) := fun wd h => by
  cases (show some (put3 0x60000000 c.val 21 a.val 16 b.val 11) = some wd from h)
  have b_c := c.isLt
  have b_a := a.isLt
  have b_b := b.isLt
  simp only [put1, put2, put3]; omega
theorem sendm (c : Reg) (a : Reg) (b : Reg) : Statement (.sendm c a b) := fun wd h => by
  cases (show some (put3 0x60000001 c.val 21 a.val 16 b.val 11) = some wd from h)
  have b_c := c.isLt
  have b_a := a.isLt
  have b_b := b.isLt
  simp only [put1, put2, put3]; omega
theorem recv (d : Reg) (a : Reg) (b : Reg) : Statement (.recv d a b) := fun wd h => by
  cases (show some (put3 0x60000002 d.val 21 a.val 16 b.val 11) = some wd from h)
  have b_d := d.isLt
  have b_a := a.isLt
  have b_b := b.isLt
  simp only [put1, put2, put3]; omega
theorem recvm (d : Reg) (a : Reg) (b : Reg) : Statement (.recvm d a b) := fun wd h => by
  cases (show some (put3 0x60000003 d.val 21 a.val 16 b.val 11) = some wd from h)
  have b_d := d.isLt
  have b_a := a.isLt
  have b_b := b.isLt
  simp only [put1, put2, put3]; omega
theorem mark : Statement (.mark) := fun wd h => by
  cases (show some (0x60000004) = some wd from h)
  decide
theorem radv (d : Reg) : Statement (.radv d) := fun wd h => by
  cases (show some (put1 0x60000005 d.val 21) = some wd from h)
  have b_d := d.isLt
  simp only [put1]; omega
theorem chstatState (d : Reg) (a : Reg) : Statement (.chstatState d a) := fun wd h => by
  cases (show some (put2 0x60000006 d.val 21 a.val 16) = some wd from h)
  have b_d := d.isLt
  have b_a := a.isLt
  simp only [put1, put2]; omega
theorem chstatDecl (d : Reg) (a : Reg) : Statement (.chstatDecl d a) := fun wd h => by
  cases (show some (put2 0x60000806 d.val 21 a.val 16) = some wd from h)
  have b_d := d.isLt
  have b_a := a.isLt
  simp only [put1, put2]; omega
theorem chstatClose (d : Reg) (a : Reg) : Statement (.chstatClose d a) := fun wd h => by
  cases (show some (put2 0x60001006 d.val 21 a.val 16) = some wd from h)
  have b_d := d.isLt
  have b_a := a.isLt
  simp only [put1, put2]; omega
theorem chstatKword (d : Reg) : Statement (.chstatKword d) := fun wd h => by
  cases (show some (put1 0x60001806 d.val 21) = some wd from h)
  have b_d := d.isLt
  simp only [put1]; omega
theorem chstatRound (d : Reg) : Statement (.chstatRound d) := fun wd h => by
  cases (show some (put1 0x60002006 d.val 21) = some wd from h)
  have b_d := d.isLt
  simp only [put1]; omega
theorem chstatSeq (d : Reg) (a : Reg) : Statement (.chstatSeq d a) := fun wd h => by
  cases (show some (put2 0x60002806 d.val 21 a.val 16) = some wd from h)
  have b_d := d.isLt
  have b_a := a.isLt
  simp only [put1, put2]; omega
theorem kickRing (a : Reg) (b : Reg) : Statement (.kickRing a b) := fun wd h => by
  cases (show some (put2 0x60000007 a.val 16 b.val 11) = some wd from h)
  have b_a := a.isLt
  have b_b := b.isLt
  simp only [put1, put2]; omega
theorem kickMbox (a : Reg) (b : Reg) : Statement (.kickMbox a b) := fun wd h => by
  cases (show some (put2 0x60200007 a.val 16 b.val 11) = some wd from h)
  have b_a := a.isLt
  have b_b := b.isLt
  simp only [put1, put2]; omega
theorem kickDone (a : Reg) (b : Reg) : Statement (.kickDone a b) := fun wd h => by
  cases (show some (put2 0x60400007 a.val 16 b.val 11) = some wd from h)
  have b_a := a.isLt
  have b_b := b.isLt
  simp only [put1, put2]; omega
theorem kickDonerec (a : Reg) (b : Reg) : Statement (.kickDonerec a b) := fun wd h => by
  cases (show some (put2 0x60600007 a.val 16 b.val 11) = some wd from h)
  have b_a := a.isLt
  have b_b := b.isLt
  simp only [put1, put2]; omega
theorem bcfg (a : Reg) (k : Fin 4) : Statement (.bcfg a k) := fun wd h => by
  cases (show some (put2 0x64000000 a.val 16 k.val 11) = some wd from h)
  have b_a := a.isLt
  have b_k := k.isLt
  simp only [put1, put2]; omega
theorem barr (k : Fin 4) : Statement (.barr k) := fun wd h => by
  cases (show some (put1 0x64000001 k.val 11) = some wd from h)
  have b_k := k.isLt
  simp only [put1]; omega
theorem bwait (k : Fin 4) : Statement (.bwait k) := fun wd h => by
  cases (show some (put1 0x64000002 k.val 11) = some wd from h)
  have b_k := k.isLt
  simp only [put1]; omega
theorem bsync (k : Fin 4) : Statement (.bsync k) := fun wd h => by
  cases (show some (put1 0x64000003 k.val 11) = some wd from h)
  have b_k := k.isLt
  simp only [put1]; omega
theorem btest (d : Reg) (k : Fin 4) : Statement (.btest d k) := fun wd h => by
  cases (show some (put2 0x64000004 d.val 21 k.val 11) = some wd from h)
  have b_d := d.isLt
  have b_k := k.isLt
  simp only [put1, put2]; omega
theorem rqpush (c : Bool) (a : Reg) (b : Reg) : Statement (.rqpush c a b) := fun wd h => by
  cases (show some (put3 0x68000000 (bit c) 21 a.val 16 b.val 11) = some wd from h)
  have b_c := (show bit c < 2 by cases c <;> decide)
  have b_a := a.isLt
  have b_b := b.isLt
  simp only [put1, put2, put3]; omega
theorem next (a : Reg) : Statement (.next a) := fun wd h => by
  cases (show some (put1 0x68000001 a.val 16) = some wd from h)
  have b_a := a.isLt
  simp only [put1]; omega
theorem nextw (d : Reg) : Statement (.nextw d) := fun wd h => by
  cases (show some (put1 0x68000002 d.val 21) = some wd from h)
  have b_d := d.isLt
  simp only [put1]; omega
theorem append (d : Reg) (a : Reg) (b : Reg) : Statement (.append d a b) := fun wd h => by
  cases (show some (put3 0x68000003 d.val 21 a.val 16 b.val 11) = some wd from h)
  have b_d := d.isLt
  have b_a := a.isLt
  have b_b := b.isLt
  simp only [put1, put2, put3]; omega
theorem take (d : Reg) (a : Reg) : Statement (.take d a) := fun wd h => by
  cases (show some (put2 0x68000004 d.val 21 a.val 16) = some wd from h)
  have b_d := d.isLt
  have b_a := a.isLt
  simp only [put1, put2]; omega
theorem takeEndHold (d : Reg) (a : Reg) : Statement (.takeEndHold d a) := fun wd h => by
  cases (show some (put2 0x68000804 d.val 21 a.val 16) = some wd from h)
  have b_d := d.isLt
  have b_a := a.isLt
  simp only [put1, put2]; omega
theorem tdarm (a : Reg) (b : Reg) : Statement (.tdarm a b) := fun wd h => by
  cases (show some (put2 0x68000005 a.val 16 b.val 11) = some wd from h)
  have b_a := a.isLt
  have b_b := b.isLt
  simp only [put1, put2]; omega
theorem launch (d : Reg) (a : Reg) (b : Reg) : Statement (.launch d a b) := fun wd h => by
  cases (show some (put3 0x6C000000 d.val 21 a.val 16 b.val 11) = some wd from h)
  have b_d := d.isLt
  have b_a := a.isLt
  have b_b := b.isLt
  simp only [put1, put2, put3]; omega
theorem lwait (d : Reg) (a : Reg) : Statement (.lwait d a) := fun wd h => by
  cases (show some (put2 0x6C000001 d.val 21 a.val 16) = some wd from h)
  have b_d := d.isLt
  have b_a := a.isLt
  simp only [put1, put2]; omega
theorem cancel (d : Reg) (a : Reg) : Statement (.cancel d a) := fun wd h => by
  cases (show some (put2 0x6C000002 d.val 21 a.val 16) = some wd from h)
  have b_d := d.isLt
  have b_a := a.isLt
  simp only [put1, put2]; omega
theorem cntrd (d : Reg) (a : Reg) : Statement (.cntrd d a) := fun wd h => by
  cases (show some (put2 0x6C000003 d.val 21 a.val 16) = some wd from h)
  have b_d := d.isLt
  have b_a := a.isLt
  simp only [put1, put2]; omega
theorem ginfo (d : Reg) (i : Reg) (b : Reg) : Statement (.ginfo d i b) := fun wd h => by
  cases (show some (put3 0x6C000004 d.val 21 i.val 16 b.val 11) = some wd from h)
  have b_d := d.isLt
  have b_i := i.isLt
  have b_b := b.isLt
  simp only [put1, put2, put3]; omega
theorem gdone (a : Reg) : Statement (.gdone a) := fun wd h => by
  cases (show some (put1 0x6C000005 a.val 16) = some wd from h)
  have b_a := a.isLt
  simp only [put1]; omega
theorem evpop (d : Reg) (a : Reg) : Statement (.evpop d a) := fun wd h => by
  cases (show some (put2 0x70000000 d.val 21 a.val 16) = some wd from h)
  have b_d := d.isLt
  have b_a := a.isLt
  simp only [put1, put2]; omega
theorem evpush (d : Reg) (a : Reg) (b : Reg) : Statement (.evpush d a b) := fun wd h => by
  cases (show some (put3 0x70000001 d.val 21 a.val 16 b.val 11) = some wd from h)
  have b_d := d.isLt
  have b_a := a.isLt
  have b_b := b.isLt
  simp only [put1, put2, put3]; omega
theorem preempt (d : Reg) (a : Reg) : Statement (.preempt d a) := fun wd h => by
  cases (show some (put2 0x70000002 d.val 21 a.val 16) = some wd from h)
  have b_d := d.isLt
  have b_a := a.isLt
  simp only [put1, put2]; omega
theorem save (d : Reg) (a : Reg) : Statement (.save d a) := fun wd h => by
  cases (show some (put2 0x70000003 d.val 21 a.val 16) = some wd from h)
  have b_d := d.isLt
  have b_a := a.isLt
  simp only [put1, put2]; omega
theorem restore (d : Reg) (a : Reg) : Statement (.restore d a) := fun wd h => by
  cases (show some (put2 0x70000004 d.val 21 a.val 16) = some wd from h)
  have b_d := d.isLt
  have b_a := a.isLt
  simp only [put1, put2]; omega
theorem pinv (d : Reg) (a : Reg) (b : Reg) : Statement (.pinv d a b) := fun wd h => by
  cases (show some (put3 0x70000005 d.val 21 a.val 16 b.val 11) = some wd from h)
  have b_d := d.isLt
  have b_a := a.isLt
  have b_b := b.isLt
  simp only [put1, put2, put3]; omega
theorem pprobe (d : Reg) (a : Reg) (b : Reg) : Statement (.pprobe d a b) := fun wd h => by
  cases (show some (put3 0x70000006 d.val 21 a.val 16 b.val 11) = some wd from h)
  have b_d := d.isLt
  have b_a := a.isLt
  have b_b := b.isLt
  simp only [put1, put2, put3]; omega
theorem chkpair (d : Reg) (a : Reg) : Statement (.chkpair d a) := fun wd h => by
  cases (show some (put2 0x70000007 d.val 21 a.val 16) = some wd from h)
  have b_d := d.isLt
  have b_a := a.isLt
  simp only [put1, put2]; omega
theorem hmigrate (d : Reg) (a : Reg) : Statement (.hmigrate d a) := fun wd h => by
  cases (show some (put2 0x70000008 d.val 21 a.val 16) = some wd from h)
  have b_d := d.isLt
  have b_a := a.isLt
  simp only [put1, put2]; omega
theorem frpop (d : Reg) (a : Reg) : Statement (.frpop d a) := fun wd h => by
  cases (show some (put2 0x74000000 d.val 21 a.val 16) = some wd from h)
  have b_d := d.isLt
  have b_a := a.isLt
  simp only [put1, put2]; omega
theorem timerd (d : Reg) (a : Reg) : Statement (.timerd d a) := fun wd h => by
  cases (show some (put2 0x74000001 d.val 21 a.val 16) = some wd from h)
  have b_d := d.isLt
  have b_a := a.isLt
  simp only [put1, put2]; omega
theorem lstatRead (d : Reg) (a : Reg) : Statement (.lstatRead d a) := fun wd h => by
  cases (show some (put2 0x74000002 d.val 21 a.val 16) = some wd from h)
  have b_d := d.isLt
  have b_a := a.isLt
  simp only [put1, put2]; omega
theorem lstatEnable (d : Reg) (a : Reg) : Statement (.lstatEnable d a) := fun wd h => by
  cases (show some (put2 0x74000802 d.val 21 a.val 16) = some wd from h)
  have b_d := d.isLt
  have b_a := a.isLt
  simp only [put1, put2]; omega
theorem lstatDisable (d : Reg) (a : Reg) : Statement (.lstatDisable d a) := fun wd h => by
  cases (show some (put2 0x74001002 d.val 21 a.val 16) = some wd from h)
  have b_d := d.isLt
  have b_a := a.isLt
  simp only [put1, put2]; omega
theorem lstatRetrain (d : Reg) (a : Reg) : Statement (.lstatRetrain d a) := fun wd h => by
  cases (show some (put2 0x74001802 d.val 21 a.val 16) = some wd from h)
  have b_d := d.isLt
  have b_a := a.isLt
  simp only [put1, put2]; omega
theorem fadd (d : Reg) (a : Reg) (b : Reg) (p : Fin 8) (t : Fin 16) : Statement (.fadd d a b p t) := fun wd h => by
  cases (show some (put5 0x80000000 d.val 21 a.val 16 b.val 11 p.val 8 t.val 4) = some wd from h)
  have b_d := d.isLt
  have b_a := a.isLt
  have b_b := b.isLt
  have b_p := p.isLt
  have b_t := t.isLt
  simp only [put1, put2, put3, put4, put5]; omega
theorem fsub (d : Reg) (a : Reg) (b : Reg) (p : Fin 8) (t : Fin 16) : Statement (.fsub d a b p t) := fun wd h => by
  cases (show some (put5 0x80000001 d.val 21 a.val 16 b.val 11 p.val 8 t.val 4) = some wd from h)
  have b_d := d.isLt
  have b_a := a.isLt
  have b_b := b.isLt
  have b_p := p.isLt
  have b_t := t.isLt
  simp only [put1, put2, put3, put4, put5]; omega
theorem fmul (d : Reg) (a : Reg) (b : Reg) (p : Fin 8) (t : Fin 16) : Statement (.fmul d a b p t) := fun wd h => by
  cases (show some (put5 0x80000002 d.val 21 a.val 16 b.val 11 p.val 8 t.val 4) = some wd from h)
  have b_d := d.isLt
  have b_a := a.isLt
  have b_b := b.isLt
  have b_p := p.isLt
  have b_t := t.isLt
  simp only [put1, put2, put3, put4, put5]; omega
theorem fdiv (d : Reg) (a : Reg) (b : Reg) (p : Fin 8) (t : Fin 16) : Statement (.fdiv d a b p t) := fun wd h => by
  cases (show some (put5 0x80000003 d.val 21 a.val 16 b.val 11 p.val 8 t.val 4) = some wd from h)
  have b_d := d.isLt
  have b_a := a.isLt
  have b_b := b.isLt
  have b_p := p.isLt
  have b_t := t.isLt
  simp only [put1, put2, put3, put4, put5]; omega
theorem fsqrt (d : Reg) (a : Reg) (p : Fin 8) (t : Fin 16) : Statement (.fsqrt d a p t) := fun wd h => by
  cases (show some (put4 0x80000004 d.val 21 a.val 16 p.val 8 t.val 4) = some wd from h)
  have b_d := d.isLt
  have b_a := a.isLt
  have b_p := p.isLt
  have b_t := t.isLt
  simp only [put1, put2, put3, put4]; omega
theorem fmin (d : Reg) (a : Reg) (b : Reg) (p : Fin 8) (t : Fin 16) : Statement (.fmin d a b p t) := fun wd h => by
  cases (show some (put5 0x80000005 d.val 21 a.val 16 b.val 11 p.val 8 t.val 4) = some wd from h)
  have b_d := d.isLt
  have b_a := a.isLt
  have b_b := b.isLt
  have b_p := p.isLt
  have b_t := t.isLt
  simp only [put1, put2, put3, put4, put5]; omega
theorem fmax (d : Reg) (a : Reg) (b : Reg) (p : Fin 8) (t : Fin 16) : Statement (.fmax d a b p t) := fun wd h => by
  cases (show some (put5 0x80000006 d.val 21 a.val 16 b.val 11 p.val 8 t.val 4) = some wd from h)
  have b_d := d.isLt
  have b_a := a.isLt
  have b_b := b.isLt
  have b_p := p.isLt
  have b_t := t.isLt
  simp only [put1, put2, put3, put4, put5]; omega
theorem fsgnj (d : Reg) (a : Reg) (b : Reg) (p : Fin 8) (t : Fin 16) : Statement (.fsgnj d a b p t) := fun wd h => by
  cases (show some (put5 0x80000007 d.val 21 a.val 16 b.val 11 p.val 8 t.val 4) = some wd from h)
  have b_d := d.isLt
  have b_a := a.isLt
  have b_b := b.isLt
  have b_p := p.isLt
  have b_t := t.isLt
  simp only [put1, put2, put3, put4, put5]; omega
theorem fsgnjn (d : Reg) (a : Reg) (b : Reg) (p : Fin 8) (t : Fin 16) : Statement (.fsgnjn d a b p t) := fun wd h => by
  cases (show some (put5 0x80000008 d.val 21 a.val 16 b.val 11 p.val 8 t.val 4) = some wd from h)
  have b_d := d.isLt
  have b_a := a.isLt
  have b_b := b.isLt
  have b_p := p.isLt
  have b_t := t.isLt
  simp only [put1, put2, put3, put4, put5]; omega
theorem fsgnjx (d : Reg) (a : Reg) (b : Reg) (p : Fin 8) (t : Fin 16) : Statement (.fsgnjx d a b p t) := fun wd h => by
  cases (show some (put5 0x80000009 d.val 21 a.val 16 b.val 11 p.val 8 t.val 4) = some wd from h)
  have b_d := d.isLt
  have b_a := a.isLt
  have b_b := b.isLt
  have b_p := p.isLt
  have b_t := t.isLt
  simp only [put1, put2, put3, put4, put5]; omega
theorem fclass (d : Reg) (a : Reg) (p : Fin 8) (t : Fin 16) : Statement (.fclass d a p t) := fun wd h => by
  cases (show some (put4 0x8000000A d.val 21 a.val 16 p.val 8 t.val 4) = some wd from h)
  have b_d := d.isLt
  have b_a := a.isLt
  have b_p := p.isLt
  have b_t := t.isLt
  simp only [put1, put2, put3, put4]; omega
theorem fmov (d : Reg) (a : Reg) (p : Fin 8) (t : Fin 16) : Statement (.fmov d a p t) := fun wd h => by
  cases (show some (put4 0x8000000B d.val 21 a.val 16 p.val 8 t.val 4) = some wd from h)
  have b_d := d.isLt
  have b_a := a.isLt
  have b_p := p.isLt
  have b_t := t.isLt
  simp only [put1, put2, put3, put4]; omega
theorem fmadd (d : Reg) (a : Reg) (b : Reg) (c : Reg) (t : Fin 4) : Statement (.fmadd d a b c t) := fun wd h => by
  cases (show some (put5 0x84000000 d.val 21 a.val 16 b.val 11 c.val 6 t.val 4) = some wd from h)
  have b_d := d.isLt
  have b_a := a.isLt
  have b_b := b.isLt
  have b_c := c.isLt
  have b_t := t.isLt
  simp only [put1, put2, put3, put4, put5]; omega
theorem fmsub (d : Reg) (a : Reg) (b : Reg) (c : Reg) (t : Fin 4) : Statement (.fmsub d a b c t) := fun wd h => by
  cases (show some (put5 0x84000001 d.val 21 a.val 16 b.val 11 c.val 6 t.val 4) = some wd from h)
  have b_d := d.isLt
  have b_a := a.isLt
  have b_b := b.isLt
  have b_c := c.isLt
  have b_t := t.isLt
  simp only [put1, put2, put3, put4, put5]; omega
theorem fnmadd (d : Reg) (a : Reg) (b : Reg) (c : Reg) (t : Fin 4) : Statement (.fnmadd d a b c t) := fun wd h => by
  cases (show some (put5 0x84000002 d.val 21 a.val 16 b.val 11 c.val 6 t.val 4) = some wd from h)
  have b_d := d.isLt
  have b_a := a.isLt
  have b_b := b.isLt
  have b_c := c.isLt
  have b_t := t.isLt
  simp only [put1, put2, put3, put4, put5]; omega
theorem fnmsub (d : Reg) (a : Reg) (b : Reg) (c : Reg) (t : Fin 4) : Statement (.fnmsub d a b c t) := fun wd h => by
  cases (show some (put5 0x84000003 d.val 21 a.val 16 b.val 11 c.val 6 t.val 4) = some wd from h)
  have b_d := d.isLt
  have b_a := a.isLt
  have b_b := b.isLt
  have b_c := c.isLt
  have b_t := t.isLt
  simp only [put1, put2, put3, put4, put5]; omega
theorem fcvt (d : Reg) (a : Reg) (s : Fin 16) (p : Fin 8) (t : Fin 16) : Statement (.fcvt d a s p t) := fun wd h => by
  cases (show some (put5 0x88000000 d.val 21 a.val 16 s.val 11 p.val 8 t.val 4) = some wd from h)
  have b_d := d.isLt
  have b_a := a.isLt
  have b_s := s.isLt
  have b_p := p.isLt
  have b_t := t.isLt
  simp only [put1, put2, put3, put4, put5]; omega
theorem feq (d : Reg) (a : Reg) (b : Reg) (p : Fin 8) (t : Fin 16) : Statement (.feq d a b p t) := fun wd h => by
  cases (show some (put5 0x88000001 d.val 21 a.val 16 b.val 11 p.val 8 t.val 4) = some wd from h)
  have b_d := d.isLt
  have b_a := a.isLt
  have b_b := b.isLt
  have b_p := p.isLt
  have b_t := t.isLt
  simp only [put1, put2, put3, put4, put5]; omega
theorem flt (d : Reg) (a : Reg) (b : Reg) (p : Fin 8) (t : Fin 16) : Statement (.flt d a b p t) := fun wd h => by
  cases (show some (put5 0x88000002 d.val 21 a.val 16 b.val 11 p.val 8 t.val 4) = some wd from h)
  have b_d := d.isLt
  have b_a := a.isLt
  have b_b := b.isLt
  have b_p := p.isLt
  have b_t := t.isLt
  simp only [put1, put2, put3, put4, put5]; omega
theorem fle (d : Reg) (a : Reg) (b : Reg) (p : Fin 8) (t : Fin 16) : Statement (.fle d a b p t) := fun wd h => by
  cases (show some (put5 0x88000003 d.val 21 a.val 16 b.val 11 p.val 8 t.val 4) = some wd from h)
  have b_d := d.isLt
  have b_a := a.isLt
  have b_b := b.isLt
  have b_p := p.isLt
  have b_t := t.isLt
  simp only [put1, put2, put3, put4, put5]; omega
theorem funord (d : Reg) (a : Reg) (b : Reg) (p : Fin 8) (t : Fin 16) : Statement (.funord d a b p t) := fun wd h => by
  cases (show some (put5 0x88000004 d.val 21 a.val 16 b.val 11 p.val 8 t.val 4) = some wd from h)
  have b_d := d.isLt
  have b_a := a.isLt
  have b_b := b.isLt
  have b_p := p.isLt
  have b_t := t.isLt
  simp only [put1, put2, put3, put4, put5]; omega
theorem fcvtfl (d : Reg) (a : Reg) (p : Fin 8) (t : Fin 16) : Statement (.fcvtfl d a p t) := fun wd h => by
  cases (show some (put4 0x88000005 d.val 21 a.val 16 p.val 8 t.val 4) = some wd from h)
  have b_d := d.isLt
  have b_a := a.isLt
  have b_p := p.isLt
  have b_t := t.isLt
  simp only [put1, put2, put3, put4]; omega
theorem fcvtlf (d : Reg) (a : Reg) (p : Fin 8) (t : Fin 16) : Statement (.fcvtlf d a p t) := fun wd h => by
  cases (show some (put4 0x88000006 d.val 21 a.val 16 p.val 8 t.val 4) = some wd from h)
  have b_d := d.isLt
  have b_a := a.isLt
  have b_p := p.isLt
  have b_t := t.isLt
  simp only [put1, put2, put3, put4]; omega
theorem iadd (d : Reg) (a : Reg) (b : Reg) (p : Fin 8) : Statement (.iadd d a b p) := fun wd h => by
  cases (show some (put4 0x8C000000 d.val 21 a.val 16 b.val 11 p.val 8) = some wd from h)
  have b_d := d.isLt
  have b_a := a.isLt
  have b_b := b.isLt
  have b_p := p.isLt
  simp only [put1, put2, put3, put4]; omega
theorem isub (d : Reg) (a : Reg) (b : Reg) (p : Fin 8) : Statement (.isub d a b p) := fun wd h => by
  cases (show some (put4 0x8C000001 d.val 21 a.val 16 b.val 11 p.val 8) = some wd from h)
  have b_d := d.isLt
  have b_a := a.isLt
  have b_b := b.isLt
  have b_p := p.isLt
  simp only [put1, put2, put3, put4]; omega
theorem imul (d : Reg) (a : Reg) (b : Reg) (p : Fin 8) : Statement (.imul d a b p) := fun wd h => by
  cases (show some (put4 0x8C000002 d.val 21 a.val 16 b.val 11 p.val 8) = some wd from h)
  have b_d := d.isLt
  have b_a := a.isLt
  have b_b := b.isLt
  have b_p := p.isLt
  simp only [put1, put2, put3, put4]; omega
theorem iand (d : Reg) (a : Reg) (b : Reg) (p : Fin 8) : Statement (.iand d a b p) := fun wd h => by
  cases (show some (put4 0x8C000003 d.val 21 a.val 16 b.val 11 p.val 8) = some wd from h)
  have b_d := d.isLt
  have b_a := a.isLt
  have b_b := b.isLt
  have b_p := p.isLt
  simp only [put1, put2, put3, put4]; omega
theorem ior (d : Reg) (a : Reg) (b : Reg) (p : Fin 8) : Statement (.ior d a b p) := fun wd h => by
  cases (show some (put4 0x8C000004 d.val 21 a.val 16 b.val 11 p.val 8) = some wd from h)
  have b_d := d.isLt
  have b_a := a.isLt
  have b_b := b.isLt
  have b_p := p.isLt
  simp only [put1, put2, put3, put4]; omega
theorem ixor (d : Reg) (a : Reg) (b : Reg) (p : Fin 8) : Statement (.ixor d a b p) := fun wd h => by
  cases (show some (put4 0x8C000005 d.val 21 a.val 16 b.val 11 p.val 8) = some wd from h)
  have b_d := d.isLt
  have b_a := a.isLt
  have b_b := b.isLt
  have b_p := p.isLt
  simp only [put1, put2, put3, put4]; omega
theorem isll (d : Reg) (a : Reg) (b : Reg) (p : Fin 8) : Statement (.isll d a b p) := fun wd h => by
  cases (show some (put4 0x8C000006 d.val 21 a.val 16 b.val 11 p.val 8) = some wd from h)
  have b_d := d.isLt
  have b_a := a.isLt
  have b_b := b.isLt
  have b_p := p.isLt
  simp only [put1, put2, put3, put4]; omega
theorem isrl (d : Reg) (a : Reg) (b : Reg) (p : Fin 8) : Statement (.isrl d a b p) := fun wd h => by
  cases (show some (put4 0x8C000007 d.val 21 a.val 16 b.val 11 p.val 8) = some wd from h)
  have b_d := d.isLt
  have b_a := a.isLt
  have b_b := b.isLt
  have b_p := p.isLt
  simp only [put1, put2, put3, put4]; omega
theorem isra (d : Reg) (a : Reg) (b : Reg) (p : Fin 8) : Statement (.isra d a b p) := fun wd h => by
  cases (show some (put4 0x8C000008 d.val 21 a.val 16 b.val 11 p.val 8) = some wd from h)
  have b_d := d.isLt
  have b_a := a.isLt
  have b_b := b.isLt
  have b_p := p.isLt
  simp only [put1, put2, put3, put4]; omega
theorem imin (d : Reg) (a : Reg) (b : Reg) (p : Fin 8) : Statement (.imin d a b p) := fun wd h => by
  cases (show some (put4 0x8C000009 d.val 21 a.val 16 b.val 11 p.val 8) = some wd from h)
  have b_d := d.isLt
  have b_a := a.isLt
  have b_b := b.isLt
  have b_p := p.isLt
  simp only [put1, put2, put3, put4]; omega
theorem imax (d : Reg) (a : Reg) (b : Reg) (p : Fin 8) : Statement (.imax d a b p) := fun wd h => by
  cases (show some (put4 0x8C00000A d.val 21 a.val 16 b.val 11 p.val 8) = some wd from h)
  have b_d := d.isLt
  have b_a := a.isLt
  have b_b := b.isLt
  have b_p := p.isLt
  simp only [put1, put2, put3, put4]; omega
theorem iminu (d : Reg) (a : Reg) (b : Reg) (p : Fin 8) : Statement (.iminu d a b p) := fun wd h => by
  cases (show some (put4 0x8C00000B d.val 21 a.val 16 b.val 11 p.val 8) = some wd from h)
  have b_d := d.isLt
  have b_a := a.isLt
  have b_b := b.isLt
  have b_p := p.isLt
  simp only [put1, put2, put3, put4]; omega
theorem imaxu (d : Reg) (a : Reg) (b : Reg) (p : Fin 8) : Statement (.imaxu d a b p) := fun wd h => by
  cases (show some (put4 0x8C00000C d.val 21 a.val 16 b.val 11 p.val 8) = some wd from h)
  have b_d := d.isLt
  have b_a := a.isLt
  have b_b := b.isLt
  have b_p := p.isLt
  simp only [put1, put2, put3, put4]; omega
theorem islt (d : Reg) (a : Reg) (b : Reg) (p : Fin 8) : Statement (.islt d a b p) := fun wd h => by
  cases (show some (put4 0x8C00000D d.val 21 a.val 16 b.val 11 p.val 8) = some wd from h)
  have b_d := d.isLt
  have b_a := a.isLt
  have b_b := b.isLt
  have b_p := p.isLt
  simp only [put1, put2, put3, put4]; omega
theorem isltu (d : Reg) (a : Reg) (b : Reg) (p : Fin 8) : Statement (.isltu d a b p) := fun wd h => by
  cases (show some (put4 0x8C00000E d.val 21 a.val 16 b.val 11 p.val 8) = some wd from h)
  have b_d := d.isLt
  have b_a := a.isLt
  have b_b := b.isLt
  have b_p := p.isLt
  simp only [put1, put2, put3, put4]; omega
theorem imovi (d : Reg) (i : BitVec 10) (p : Fin 8) : Statement (.imovi d i p) := fun wd h => by
  cases (show some (put3 0x8C00000F d.val 21 i.toNat 11 p.val 8) = some wd from h)
  have b_d := d.isLt
  have b_i := i.isLt
  have b_p := p.isLt
  simp only [put1, put2, put3]; omega
theorem vadd (d : Reg) (a : Reg) (b : Reg) (p : Fin 8) (t : Fin 16) : Statement (.vadd d a b p t) := fun wd h => by
  cases (show some (put5 0xA0000000 d.val 21 a.val 16 b.val 11 p.val 8 t.val 4) = some wd from h)
  have b_d := d.isLt
  have b_a := a.isLt
  have b_b := b.isLt
  have b_p := p.isLt
  have b_t := t.isLt
  simp only [put1, put2, put3, put4, put5]; omega
theorem vsub (d : Reg) (a : Reg) (b : Reg) (p : Fin 8) (t : Fin 16) : Statement (.vsub d a b p t) := fun wd h => by
  cases (show some (put5 0xA0000001 d.val 21 a.val 16 b.val 11 p.val 8 t.val 4) = some wd from h)
  have b_d := d.isLt
  have b_a := a.isLt
  have b_b := b.isLt
  have b_p := p.isLt
  have b_t := t.isLt
  simp only [put1, put2, put3, put4, put5]; omega
theorem vmul (d : Reg) (a : Reg) (b : Reg) (p : Fin 8) (t : Fin 16) : Statement (.vmul d a b p t) := fun wd h => by
  cases (show some (put5 0xA0000002 d.val 21 a.val 16 b.val 11 p.val 8 t.val 4) = some wd from h)
  have b_d := d.isLt
  have b_a := a.isLt
  have b_b := b.isLt
  have b_p := p.isLt
  have b_t := t.isLt
  simp only [put1, put2, put3, put4, put5]; omega
theorem vmin (d : Reg) (a : Reg) (b : Reg) (p : Fin 8) (t : Fin 16) : Statement (.vmin d a b p t) := fun wd h => by
  cases (show some (put5 0xA0000003 d.val 21 a.val 16 b.val 11 p.val 8 t.val 4) = some wd from h)
  have b_d := d.isLt
  have b_a := a.isLt
  have b_b := b.isLt
  have b_p := p.isLt
  have b_t := t.isLt
  simp only [put1, put2, put3, put4, put5]; omega
theorem vmax (d : Reg) (a : Reg) (b : Reg) (p : Fin 8) (t : Fin 16) : Statement (.vmax d a b p t) := fun wd h => by
  cases (show some (put5 0xA0000004 d.val 21 a.val 16 b.val 11 p.val 8 t.val 4) = some wd from h)
  have b_d := d.isLt
  have b_a := a.isLt
  have b_b := b.isLt
  have b_p := p.isLt
  have b_t := t.isLt
  simp only [put1, put2, put3, put4, put5]; omega
theorem vminu (d : Reg) (a : Reg) (b : Reg) (p : Fin 8) (t : Fin 16) : Statement (.vminu d a b p t) := fun wd h => by
  cases (show some (put5 0xA0000005 d.val 21 a.val 16 b.val 11 p.val 8 t.val 4) = some wd from h)
  have b_d := d.isLt
  have b_a := a.isLt
  have b_b := b.isLt
  have b_p := p.isLt
  have b_t := t.isLt
  simp only [put1, put2, put3, put4, put5]; omega
theorem vmaxu (d : Reg) (a : Reg) (b : Reg) (p : Fin 8) (t : Fin 16) : Statement (.vmaxu d a b p t) := fun wd h => by
  cases (show some (put5 0xA0000006 d.val 21 a.val 16 b.val 11 p.val 8 t.val 4) = some wd from h)
  have b_d := d.isLt
  have b_a := a.isLt
  have b_b := b.isLt
  have b_p := p.isLt
  have b_t := t.isLt
  simp only [put1, put2, put3, put4, put5]; omega
theorem vand (d : Reg) (a : Reg) (b : Reg) (p : Fin 8) (t : Fin 16) : Statement (.vand d a b p t) := fun wd h => by
  cases (show some (put5 0xA0000007 d.val 21 a.val 16 b.val 11 p.val 8 t.val 4) = some wd from h)
  have b_d := d.isLt
  have b_a := a.isLt
  have b_b := b.isLt
  have b_p := p.isLt
  have b_t := t.isLt
  simp only [put1, put2, put3, put4, put5]; omega
theorem vor (d : Reg) (a : Reg) (b : Reg) (p : Fin 8) (t : Fin 16) : Statement (.vor d a b p t) := fun wd h => by
  cases (show some (put5 0xA0000008 d.val 21 a.val 16 b.val 11 p.val 8 t.val 4) = some wd from h)
  have b_d := d.isLt
  have b_a := a.isLt
  have b_b := b.isLt
  have b_p := p.isLt
  have b_t := t.isLt
  simp only [put1, put2, put3, put4, put5]; omega
theorem vxor (d : Reg) (a : Reg) (b : Reg) (p : Fin 8) (t : Fin 16) : Statement (.vxor d a b p t) := fun wd h => by
  cases (show some (put5 0xA0000009 d.val 21 a.val 16 b.val 11 p.val 8 t.val 4) = some wd from h)
  have b_d := d.isLt
  have b_a := a.isLt
  have b_b := b.isLt
  have b_p := p.isLt
  have b_t := t.isLt
  simp only [put1, put2, put3, put4, put5]; omega
theorem vsll (d : Reg) (a : Reg) (b : Reg) (p : Fin 8) (t : Fin 16) : Statement (.vsll d a b p t) := fun wd h => by
  cases (show some (put5 0xA000000A d.val 21 a.val 16 b.val 11 p.val 8 t.val 4) = some wd from h)
  have b_d := d.isLt
  have b_a := a.isLt
  have b_b := b.isLt
  have b_p := p.isLt
  have b_t := t.isLt
  simp only [put1, put2, put3, put4, put5]; omega
theorem vsrl (d : Reg) (a : Reg) (b : Reg) (p : Fin 8) (t : Fin 16) : Statement (.vsrl d a b p t) := fun wd h => by
  cases (show some (put5 0xA000000B d.val 21 a.val 16 b.val 11 p.val 8 t.val 4) = some wd from h)
  have b_d := d.isLt
  have b_a := a.isLt
  have b_b := b.isLt
  have b_p := p.isLt
  have b_t := t.isLt
  simp only [put1, put2, put3, put4, put5]; omega
theorem vsra (d : Reg) (a : Reg) (b : Reg) (p : Fin 8) (t : Fin 16) : Statement (.vsra d a b p t) := fun wd h => by
  cases (show some (put5 0xA000000C d.val 21 a.val 16 b.val 11 p.val 8 t.val 4) = some wd from h)
  have b_d := d.isLt
  have b_a := a.isLt
  have b_b := b.isLt
  have b_p := p.isLt
  have b_t := t.isLt
  simp only [put1, put2, put3, put4, put5]; omega
theorem vmulh (d : Reg) (a : Reg) (b : Reg) (p : Fin 8) (t : Fin 16) : Statement (.vmulh d a b p t) := fun wd h => by
  cases (show some (put5 0xA000000D d.val 21 a.val 16 b.val 11 p.val 8 t.val 4) = some wd from h)
  have b_d := d.isLt
  have b_a := a.isLt
  have b_b := b.isLt
  have b_p := p.isLt
  have b_t := t.isLt
  simp only [put1, put2, put3, put4, put5]; omega
theorem vmulhu (d : Reg) (a : Reg) (b : Reg) (p : Fin 8) (t : Fin 16) : Statement (.vmulhu d a b p t) := fun wd h => by
  cases (show some (put5 0xA000000E d.val 21 a.val 16 b.val 11 p.val 8 t.val 4) = some wd from h)
  have b_d := d.isLt
  have b_a := a.isLt
  have b_b := b.isLt
  have b_p := p.isLt
  have b_t := t.isLt
  simp only [put1, put2, put3, put4, put5]; omega
theorem vabsd (d : Reg) (a : Reg) (b : Reg) (p : Fin 8) (t : Fin 16) : Statement (.vabsd d a b p t) := fun wd h => by
  cases (show some (put5 0xA000000F d.val 21 a.val 16 b.val 11 p.val 8 t.val 4) = some wd from h)
  have b_d := d.isLt
  have b_a := a.isLt
  have b_b := b.isLt
  have b_p := p.isLt
  have b_t := t.isLt
  simp only [put1, put2, put3, put4, put5]; omega
theorem vfadd (d : Reg) (a : Reg) (b : Reg) (p : Fin 8) (t : Fin 16) : Statement (.vfadd d a b p t) := fun wd h => by
  cases (show some (put5 0xA4000000 d.val 21 a.val 16 b.val 11 p.val 8 t.val 4) = some wd from h)
  have b_d := d.isLt
  have b_a := a.isLt
  have b_b := b.isLt
  have b_p := p.isLt
  have b_t := t.isLt
  simp only [put1, put2, put3, put4, put5]; omega
theorem vfsub (d : Reg) (a : Reg) (b : Reg) (p : Fin 8) (t : Fin 16) : Statement (.vfsub d a b p t) := fun wd h => by
  cases (show some (put5 0xA4000001 d.val 21 a.val 16 b.val 11 p.val 8 t.val 4) = some wd from h)
  have b_d := d.isLt
  have b_a := a.isLt
  have b_b := b.isLt
  have b_p := p.isLt
  have b_t := t.isLt
  simp only [put1, put2, put3, put4, put5]; omega
theorem vfmul (d : Reg) (a : Reg) (b : Reg) (p : Fin 8) (t : Fin 16) : Statement (.vfmul d a b p t) := fun wd h => by
  cases (show some (put5 0xA4000002 d.val 21 a.val 16 b.val 11 p.val 8 t.val 4) = some wd from h)
  have b_d := d.isLt
  have b_a := a.isLt
  have b_b := b.isLt
  have b_p := p.isLt
  have b_t := t.isLt
  simp only [put1, put2, put3, put4, put5]; omega
theorem vfdiv (d : Reg) (a : Reg) (b : Reg) (p : Fin 8) (t : Fin 16) : Statement (.vfdiv d a b p t) := fun wd h => by
  cases (show some (put5 0xA4000003 d.val 21 a.val 16 b.val 11 p.val 8 t.val 4) = some wd from h)
  have b_d := d.isLt
  have b_a := a.isLt
  have b_b := b.isLt
  have b_p := p.isLt
  have b_t := t.isLt
  simp only [put1, put2, put3, put4, put5]; omega
theorem vfsqrt (d : Reg) (a : Reg) (p : Fin 8) (t : Fin 16) : Statement (.vfsqrt d a p t) := fun wd h => by
  cases (show some (put4 0xA4000004 d.val 21 a.val 16 p.val 8 t.val 4) = some wd from h)
  have b_d := d.isLt
  have b_a := a.isLt
  have b_p := p.isLt
  have b_t := t.isLt
  simp only [put1, put2, put3, put4]; omega
theorem vfmin (d : Reg) (a : Reg) (b : Reg) (p : Fin 8) (t : Fin 16) : Statement (.vfmin d a b p t) := fun wd h => by
  cases (show some (put5 0xA4000005 d.val 21 a.val 16 b.val 11 p.val 8 t.val 4) = some wd from h)
  have b_d := d.isLt
  have b_a := a.isLt
  have b_b := b.isLt
  have b_p := p.isLt
  have b_t := t.isLt
  simp only [put1, put2, put3, put4, put5]; omega
theorem vfmax (d : Reg) (a : Reg) (b : Reg) (p : Fin 8) (t : Fin 16) : Statement (.vfmax d a b p t) := fun wd h => by
  cases (show some (put5 0xA4000006 d.val 21 a.val 16 b.val 11 p.val 8 t.val 4) = some wd from h)
  have b_d := d.isLt
  have b_a := a.isLt
  have b_b := b.isLt
  have b_p := p.isLt
  have b_t := t.isLt
  simp only [put1, put2, put3, put4, put5]; omega
theorem vfabs (d : Reg) (a : Reg) (p : Fin 8) (t : Fin 16) : Statement (.vfabs d a p t) := fun wd h => by
  cases (show some (put4 0xA4000007 d.val 21 a.val 16 p.val 8 t.val 4) = some wd from h)
  have b_d := d.isLt
  have b_a := a.isLt
  have b_p := p.isLt
  have b_t := t.isLt
  simp only [put1, put2, put3, put4]; omega
theorem vfneg (d : Reg) (a : Reg) (p : Fin 8) (t : Fin 16) : Statement (.vfneg d a p t) := fun wd h => by
  cases (show some (put4 0xA4000008 d.val 21 a.val 16 p.val 8 t.val 4) = some wd from h)
  have b_d := d.isLt
  have b_a := a.isLt
  have b_p := p.isLt
  have b_t := t.isLt
  simp only [put1, put2, put3, put4]; omega
theorem vfeq (d : Reg) (a : Reg) (b : Reg) (p : Fin 8) (t : Fin 16) : Statement (.vfeq d a b p t) := fun wd h => by
  cases (show some (put5 0xA4000009 d.val 21 a.val 16 b.val 11 p.val 8 t.val 4) = some wd from h)
  have b_d := d.isLt
  have b_a := a.isLt
  have b_b := b.isLt
  have b_p := p.isLt
  have b_t := t.isLt
  simp only [put1, put2, put3, put4, put5]; omega
theorem vflt (d : Reg) (a : Reg) (b : Reg) (p : Fin 8) (t : Fin 16) : Statement (.vflt d a b p t) := fun wd h => by
  cases (show some (put5 0xA400000A d.val 21 a.val 16 b.val 11 p.val 8 t.val 4) = some wd from h)
  have b_d := d.isLt
  have b_a := a.isLt
  have b_b := b.isLt
  have b_p := p.isLt
  have b_t := t.isLt
  simp only [put1, put2, put3, put4, put5]; omega
theorem vfle (d : Reg) (a : Reg) (b : Reg) (p : Fin 8) (t : Fin 16) : Statement (.vfle d a b p t) := fun wd h => by
  cases (show some (put5 0xA400000B d.val 21 a.val 16 b.val 11 p.val 8 t.val 4) = some wd from h)
  have b_d := d.isLt
  have b_a := a.isLt
  have b_b := b.isLt
  have b_p := p.isLt
  have b_t := t.isLt
  simp only [put1, put2, put3, put4, put5]; omega
theorem vsel (d : Reg) (a : Reg) (b : Reg) (p : Fin 8) (t : Fin 16) : Statement (.vsel d a b p t) := fun wd h => by
  cases (show some (put5 0xA400000C d.val 21 a.val 16 b.val 11 p.val 8 t.val 4) = some wd from h)
  have b_d := d.isLt
  have b_a := a.isLt
  have b_b := b.isLt
  have b_p := p.isLt
  have b_t := t.isLt
  simp only [put1, put2, put3, put4, put5]; omega
theorem vfmadd (d : Reg) (a : Reg) (b : Reg) (c : Reg) (p : Fin 4) (t : Fin 4) : Statement (.vfmadd d a b c p t) := fun wd h => by
  cases (show some (put6 0xA8000000 d.val 21 a.val 16 b.val 11 c.val 6 p.val 4 t.val 2) = some wd from h)
  have b_d := d.isLt
  have b_a := a.isLt
  have b_b := b.isLt
  have b_c := c.isLt
  have b_p := p.isLt
  have b_t := t.isLt
  simp only [put1, put2, put3, put4, put5, put6]; omega
theorem vfmsub (d : Reg) (a : Reg) (b : Reg) (c : Reg) (p : Fin 4) (t : Fin 4) : Statement (.vfmsub d a b c p t) := fun wd h => by
  cases (show some (put6 0xA8000001 d.val 21 a.val 16 b.val 11 c.val 6 p.val 4 t.val 2) = some wd from h)
  have b_d := d.isLt
  have b_a := a.isLt
  have b_b := b.isLt
  have b_c := c.isLt
  have b_p := p.isLt
  have b_t := t.isLt
  simp only [put1, put2, put3, put4, put5, put6]; omega
theorem vfnmadd (d : Reg) (a : Reg) (b : Reg) (c : Reg) (p : Fin 4) (t : Fin 4) : Statement (.vfnmadd d a b c p t) := fun wd h => by
  cases (show some (put6 0xA8000002 d.val 21 a.val 16 b.val 11 c.val 6 p.val 4 t.val 2) = some wd from h)
  have b_d := d.isLt
  have b_a := a.isLt
  have b_b := b.isLt
  have b_c := c.isLt
  have b_p := p.isLt
  have b_t := t.isLt
  simp only [put1, put2, put3, put4, put5, put6]; omega
theorem vfnmsub (d : Reg) (a : Reg) (b : Reg) (c : Reg) (p : Fin 4) (t : Fin 4) : Statement (.vfnmsub d a b c p t) := fun wd h => by
  cases (show some (put6 0xA8000003 d.val 21 a.val 16 b.val 11 c.val 6 p.val 4 t.val 2) = some wd from h)
  have b_d := d.isLt
  have b_a := a.isLt
  have b_b := b.isLt
  have b_c := c.isLt
  have b_p := p.isLt
  have b_t := t.isLt
  simp only [put1, put2, put3, put4, put5, put6]; omega
theorem vperm (d : Reg) (a : Reg) (b : Reg) (p : Fin 8) (t : Fin 16) : Statement (.vperm d a b p t) := fun wd h => by
  cases (show some (put5 0xAC000000 d.val 21 a.val 16 b.val 11 p.val 8 t.val 4) = some wd from h)
  have b_d := d.isLt
  have b_a := a.isLt
  have b_b := b.isLt
  have b_p := p.isLt
  have b_t := t.isLt
  simp only [put1, put2, put3, put4, put5]; omega
theorem vbcast (d : Reg) (a : Reg) (p : Fin 8) (t : Fin 16) : Statement (.vbcast d a p t) := fun wd h => by
  cases (show some (put4 0xAC000001 d.val 21 a.val 16 p.val 8 t.val 4) = some wd from h)
  have b_d := d.isLt
  have b_a := a.isLt
  have b_p := p.isLt
  have b_t := t.isLt
  simp only [put1, put2, put3, put4]; omega
theorem vslup (d : Reg) (a : Reg) (b : Reg) (p : Fin 8) (t : Fin 16) : Statement (.vslup d a b p t) := fun wd h => by
  cases (show some (put5 0xAC000002 d.val 21 a.val 16 b.val 11 p.val 8 t.val 4) = some wd from h)
  have b_d := d.isLt
  have b_a := a.isLt
  have b_b := b.isLt
  have b_p := p.isLt
  have b_t := t.isLt
  simp only [put1, put2, put3, put4, put5]; omega
theorem vsldn (d : Reg) (a : Reg) (b : Reg) (p : Fin 8) (t : Fin 16) : Statement (.vsldn d a b p t) := fun wd h => by
  cases (show some (put5 0xAC000003 d.val 21 a.val 16 b.val 11 p.val 8 t.val 4) = some wd from h)
  have b_d := d.isLt
  have b_a := a.isLt
  have b_b := b.isLt
  have b_p := p.isLt
  have b_t := t.isLt
  simp only [put1, put2, put3, put4, put5]; omega
theorem vcompr (d : Reg) (a : Reg) (p : Fin 8) (t : Fin 16) : Statement (.vcompr d a p t) := fun wd h => by
  cases (show some (put4 0xAC000004 d.val 21 a.val 16 p.val 8 t.val 4) = some wd from h)
  have b_d := d.isLt
  have b_a := a.isLt
  have b_p := p.isLt
  have b_t := t.isLt
  simp only [put1, put2, put3, put4]; omega
theorem vexpnd (d : Reg) (a : Reg) (p : Fin 8) (t : Fin 16) : Statement (.vexpnd d a p t) := fun wd h => by
  cases (show some (put4 0xAC000005 d.val 21 a.val 16 p.val 8 t.val 4) = some wd from h)
  have b_d := d.isLt
  have b_a := a.isLt
  have b_p := p.isLt
  have b_t := t.isLt
  simp only [put1, put2, put3, put4]; omega
theorem vrsum (d : Reg) (a : Reg) (p : Fin 8) (t : Fin 16) : Statement (.vrsum d a p t) := fun wd h => by
  cases (show some (put4 0xAC000006 d.val 21 a.val 16 p.val 8 t.val 4) = some wd from h)
  have b_d := d.isLt
  have b_a := a.isLt
  have b_p := p.isLt
  have b_t := t.isLt
  simp only [put1, put2, put3, put4]; omega
theorem vrmax (d : Reg) (a : Reg) (p : Fin 8) (t : Fin 16) : Statement (.vrmax d a p t) := fun wd h => by
  cases (show some (put4 0xAC000007 d.val 21 a.val 16 p.val 8 t.val 4) = some wd from h)
  have b_d := d.isLt
  have b_a := a.isLt
  have b_p := p.isLt
  have b_t := t.isLt
  simp only [put1, put2, put3, put4]; omega
theorem vrmin (d : Reg) (a : Reg) (p : Fin 8) (t : Fin 16) : Statement (.vrmin d a p t) := fun wd h => by
  cases (show some (put4 0xAC000008 d.val 21 a.val 16 p.val 8 t.val 4) = some wd from h)
  have b_d := d.isLt
  have b_a := a.isLt
  have b_p := p.isLt
  have b_t := t.isLt
  simp only [put1, put2, put3, put4]; omega
theorem vtopk (d : Reg) (a : Reg) (b : Reg) (p : Fin 8) (t : Fin 16) : Statement (.vtopk d a b p t) := fun wd h => by
  cases (show some (put5 0xAC000009 d.val 21 a.val 16 b.val 11 p.val 8 t.val 4) = some wd from h)
  have b_d := d.isLt
  have b_a := a.isLt
  have b_b := b.isLt
  have b_p := p.isLt
  have b_t := t.isLt
  simp only [put1, put2, put3, put4, put5]; omega
theorem vzip (d : Reg) (a : Reg) (b : Reg) (p : Fin 8) (t : Fin 16) : Statement (.vzip d a b p t) := fun wd h => by
  cases (show some (put5 0xAC00000A d.val 21 a.val 16 b.val 11 p.val 8 t.val 4) = some wd from h)
  have b_d := d.isLt
  have b_a := a.isLt
  have b_b := b.isLt
  have b_p := p.isLt
  have b_t := t.isLt
  simp only [put1, put2, put3, put4, put5]; omega
theorem vunzip (d : Reg) (a : Reg) (b : Reg) (p : Fin 8) (t : Fin 16) : Statement (.vunzip d a b p t) := fun wd h => by
  cases (show some (put5 0xAC00000B d.val 21 a.val 16 b.val 11 p.val 8 t.val 4) = some wd from h)
  have b_d := d.isLt
  have b_a := a.isLt
  have b_b := b.isLt
  have b_p := p.isLt
  have b_t := t.isLt
  simp only [put1, put2, put3, put4, put5]; omega
theorem vrev (d : Reg) (a : Reg) (p : Fin 8) (t : Fin 16) : Statement (.vrev d a p t) := fun wd h => by
  cases (show some (put4 0xAC00000C d.val 21 a.val 16 p.val 8 t.val 4) = some wd from h)
  have b_d := d.isLt
  have b_a := a.isLt
  have b_p := p.isLt
  have b_t := t.isLt
  simp only [put1, put2, put3, put4]; omega
theorem pand (d : Reg) (a : Reg) (b : Reg) (p : Fin 8) : Statement (.pand d a b p) := fun wd h => by
  cases (show some (put4 0xB0000000 d.val 21 a.val 16 b.val 11 p.val 8) = some wd from h)
  have b_d := d.isLt
  have b_a := a.isLt
  have b_b := b.isLt
  have b_p := p.isLt
  simp only [put1, put2, put3, put4]; omega
theorem por (d : Reg) (a : Reg) (b : Reg) (p : Fin 8) : Statement (.por d a b p) := fun wd h => by
  cases (show some (put4 0xB0000001 d.val 21 a.val 16 b.val 11 p.val 8) = some wd from h)
  have b_d := d.isLt
  have b_a := a.isLt
  have b_b := b.isLt
  have b_p := p.isLt
  simp only [put1, put2, put3, put4]; omega
theorem pxor (d : Reg) (a : Reg) (b : Reg) (p : Fin 8) : Statement (.pxor d a b p) := fun wd h => by
  cases (show some (put4 0xB0000002 d.val 21 a.val 16 b.val 11 p.val 8) = some wd from h)
  have b_d := d.isLt
  have b_a := a.isLt
  have b_b := b.isLt
  have b_p := p.isLt
  simp only [put1, put2, put3, put4]; omega
theorem pnot (d : Reg) (a : Reg) (p : Fin 8) : Statement (.pnot d a p) := fun wd h => by
  cases (show some (put3 0xB0000003 d.val 21 a.val 16 p.val 8) = some wd from h)
  have b_d := d.isLt
  have b_a := a.isLt
  have b_p := p.isLt
  simp only [put1, put2, put3]; omega
theorem loopp (d : Reg) (a : Reg) (b : Reg) (p : Fin 8) (t : Fin 16) : Statement (.loopp d a b p t) := fun wd h => by
  cases (show some (put5 0xB0000004 d.val 21 a.val 16 b.val 11 p.val 8 t.val 4) = some wd from h)
  have b_d := d.isLt
  have b_a := a.isLt
  have b_b := b.isLt
  have b_p := p.isLt
  have b_t := t.isLt
  simp only [put1, put2, put3, put4, put5]; omega
theorem vcmpeq (d : Reg) (a : Reg) (b : Reg) (p : Fin 8) (t : Fin 16) : Statement (.vcmpeq d a b p t) := fun wd h => by
  cases (show some (put5 0xB0000005 d.val 21 a.val 16 b.val 11 p.val 8 t.val 4) = some wd from h)
  have b_d := d.isLt
  have b_a := a.isLt
  have b_b := b.isLt
  have b_p := p.isLt
  have b_t := t.isLt
  simp only [put1, put2, put3, put4, put5]; omega
theorem vcmplt (d : Reg) (a : Reg) (b : Reg) (p : Fin 8) (t : Fin 16) : Statement (.vcmplt d a b p t) := fun wd h => by
  cases (show some (put5 0xB0000006 d.val 21 a.val 16 b.val 11 p.val 8 t.val 4) = some wd from h)
  have b_d := d.isLt
  have b_a := a.isLt
  have b_b := b.isLt
  have b_p := p.isLt
  have b_t := t.isLt
  simp only [put1, put2, put3, put4, put5]; omega
theorem vcmpltu (d : Reg) (a : Reg) (b : Reg) (p : Fin 8) (t : Fin 16) : Statement (.vcmpltu d a b p t) := fun wd h => by
  cases (show some (put5 0xB0000007 d.val 21 a.val 16 b.val 11 p.val 8 t.val 4) = some wd from h)
  have b_d := d.isLt
  have b_a := a.isLt
  have b_b := b.isLt
  have b_p := p.isLt
  have b_t := t.isLt
  simp only [put1, put2, put3, put4, put5]; omega
theorem vcmple (d : Reg) (a : Reg) (b : Reg) (p : Fin 8) (t : Fin 16) : Statement (.vcmple d a b p t) := fun wd h => by
  cases (show some (put5 0xB0000008 d.val 21 a.val 16 b.val 11 p.val 8 t.val 4) = some wd from h)
  have b_d := d.isLt
  have b_a := a.isLt
  have b_b := b.isLt
  have b_p := p.isLt
  have b_t := t.isLt
  simp only [put1, put2, put3, put4, put5]; omega
theorem vcmpleu (d : Reg) (a : Reg) (b : Reg) (p : Fin 8) (t : Fin 16) : Statement (.vcmpleu d a b p t) := fun wd h => by
  cases (show some (put5 0xB0000009 d.val 21 a.val 16 b.val 11 p.val 8 t.val 4) = some wd from h)
  have b_d := d.isLt
  have b_a := a.isLt
  have b_b := b.isLt
  have b_p := p.isLt
  have b_t := t.isLt
  simp only [put1, put2, put3, put4, put5]; omega
theorem pcnt (d : Reg) (a : Reg) (p : Fin 8) (t : Fin 16) : Statement (.pcnt d a p t) := fun wd h => by
  cases (show some (put4 0xB000000A d.val 21 a.val 16 p.val 8 t.val 4) = some wd from h)
  have b_d := d.isLt
  have b_a := a.isLt
  have b_p := p.isLt
  have b_t := t.isLt
  simp only [put1, put2, put3, put4]; omega
theorem pfirst (d : Reg) (a : Reg) (p : Fin 8) (t : Fin 16) : Statement (.pfirst d a p t) := fun wd h => by
  cases (show some (put4 0xB000000B d.val 21 a.val 16 p.val 8 t.val 4) = some wd from h)
  have b_d := d.isLt
  have b_a := a.isLt
  have b_p := p.isLt
  have b_t := t.isLt
  simp only [put1, put2, put3, put4]; omega
theorem vcvt (d : Reg) (a : Reg) (s : Fin 16) (p : Fin 8) (t : Fin 16) : Statement (.vcvt d a s p t) := fun wd h => by
  cases (show some (put5 0xB4000000 d.val 21 a.val 16 s.val 11 p.val 8 t.val 4) = some wd from h)
  have b_d := d.isLt
  have b_a := a.isLt
  have b_s := s.isLt
  have b_p := p.isLt
  have b_t := t.isLt
  simp only [put1, put2, put3, put4, put5]; omega
theorem vcvtr (d : Reg) (a : Reg) (s : Fin 16) (k : Fin 8) (t : Fin 16) : Statement (.vcvtr d a s k t) := fun wd h => by
  cases (show some (put5 0xB4000001 d.val 21 a.val 16 s.val 11 k.val 8 t.val 4) = some wd from h)
  have b_d := d.isLt
  have b_a := a.isLt
  have b_s := s.isLt
  have b_k := k.isLt
  have b_t := t.isLt
  simp only [put1, put2, put3, put4, put5]; omega
theorem vderot (d : Reg) (a : Reg) (s : Fin 16) (k : Fin 8) (t : Fin 16) : Statement (.vderot d a s k t) := fun wd h => by
  cases (show some (put5 0xB4000002 d.val 21 a.val 16 s.val 11 k.val 8 t.val 4) = some wd from h)
  have b_d := d.isLt
  have b_a := a.isLt
  have b_s := s.isLt
  have b_k := k.isLt
  have b_t := t.isLt
  simp only [put1, put2, put3, put4, put5]; omega
theorem hsld (k : Reg) (a : Reg) (b : Fin 4) : Statement (.hsld k a b) := fun wd h => by
  cases (show some (put3 0xB4000003 k.val 21 a.val 16 b.val 11) = some wd from h)
  have b_k := k.isLt
  have b_a := a.isLt
  have b_b := b.isLt
  simp only [put1, put2, put3]; omega
theorem hsrd (d : Reg) (k : Fin 8) : Statement (.hsrd d k) := fun wd h => by
  cases (show some (put2 0xB4000004 d.val 21 k.val 16) = some wd from h)
  have b_d := d.isLt
  have b_k := k.isLt
  simp only [put1, put2]; omega
theorem vppe (d : Reg) (a : Reg) (t : Reg) (p : Fin 8) : Statement (.vppe d a t p) := fun wd h => by
  cases (show some (put4 0xB8000070 d.val 21 a.val 16 t.val 11 p.val 8) = some wd from h)
  have b_d := d.isLt
  have b_a := a.isLt
  have b_t := t.isLt
  have b_p := p.isLt
  simp only [put1, put2, put3, put4]; omega
theorem ppld (t : Reg) (a : Reg) (b : Reg) (p : Fin 8) : Statement (.ppld t a b p) := fun wd h => by
  cases (show some (put4 0xB8000001 t.val 21 a.val 16 b.val 11 p.val 8) = some wd from h)
  have b_t := t.isLt
  have b_a := a.isLt
  have b_b := b.isLt
  have b_p := p.isLt
  simp only [put1, put2, put3, put4]; omega
theorem vrng (d : Reg) (a : Reg) (b : Reg) (p : Fin 8) (t : Fin 16) : Statement (.vrng d a b p t) := fun wd h => by
  cases (show some (put5 0xB8000002 d.val 21 a.val 16 b.val 11 p.val 8 t.val 4) = some wd from h)
  have b_d := d.isLt
  have b_a := a.isLt
  have b_b := b.isLt
  have b_p := p.isLt
  have b_t := t.isLt
  simp only [put1, put2, put3, put4, put5]; omega
theorem vlq (d : Reg) : Statement (.vlq d) := fun wd h => by
  cases (show some (put1 0xB8000003 d.val 21) = some wd from h)
  have b_d := d.isLt
  simp only [put1]; omega
theorem vmovf (d : Reg) (a : Reg) (b : Reg) (t : Fin 16) : Statement (.vmovf d a b t) := fun wd h => by
  cases (show some (put4 0xB8000004 d.val 21 a.val 16 b.val 11 t.val 4) = some wd from h)
  have b_d := d.isLt
  have b_a := a.isLt
  have b_b := b.isLt
  have b_t := t.isLt
  simp only [put1, put2, put3, put4]; omega
theorem mma (d : Reg) (a : Reg) (b : Reg) : Statement (.mma d a b) := fun wd h => by
  cases (show some (put3 0xC0000000 d.val 21 a.val 16 b.val 11) = some wd from h)
  have b_d := d.isLt
  have b_a := a.isLt
  have b_b := b.isLt
  simp only [put1, put2, put3]; omega
theorem mmaz (d : Reg) (a : Reg) (b : Reg) : Statement (.mmaz d a b) := fun wd h => by
  cases (show some (put3 0xC0000001 d.val 21 a.val 16 b.val 11) = some wd from h)
  have b_d := d.isLt
  have b_a := a.isLt
  have b_b := b.isLt
  simp only [put1, put2, put3]; omega
theorem mmaad (d : Reg) (a : Reg) (b : Reg) : Statement (.mmaad d a b) := fun wd h => by
  cases (show some (put3 0xC0000002 d.val 21 a.val 16 b.val 11) = some wd from h)
  have b_d := d.isLt
  have b_a := a.isLt
  have b_b := b.isLt
  simp only [put1, put2, put3]; omega
theorem msca (d : Reg) (a : Reg) (b : Reg) : Statement (.msca d a b) := fun wd h => by
  cases (show some (put3 0xC0000003 d.val 21 a.val 16 b.val 11) = some wd from h)
  have b_d := d.isLt
  have b_a := a.isLt
  have b_b := b.isLt
  simp only [put1, put2, put3]; omega
theorem mscars (d : Reg) (a : Reg) (b : Reg) : Statement (.mscars d a b) := fun wd h => by
  cases (show some (put3 0xC0000004 d.val 21 a.val 16 b.val 11) = some wd from h)
  have b_d := d.isLt
  have b_a := a.isLt
  have b_b := b.isLt
  simp only [put1, put2, put3]; omega
theorem geom (d : Reg) (a : Reg) : Statement (.geom d a) := fun wd h => by
  cases (show some (put2 0xC0000005 d.val 21 a.val 16) = some wd from h)
  have b_d := d.isLt
  have b_a := a.isLt
  simp only [put1, put2]; omega
theorem msync : Statement (.msync) := fun wd h => by
  cases (show some (0xC0000006) = some wd from h)
  decide
theorem psrd (d : Reg) (k : Reg) (b : Reg) : Statement (.psrd d k b) := fun wd h => by
  cases (show some (put3 0xC0000007 d.val 21 k.val 16 b.val 11) = some wd from h)
  have b_d := d.isLt
  have b_k := k.isLt
  have b_b := b.isLt
  simp only [put1, put2, put3]; omega
theorem halloc (d : Reg) (a : Reg) : Statement (.halloc d a) := fun wd h => by
  cases (show some (put2 0xC4000000 d.val 21 a.val 16) = some wd from h)
  have b_d := d.isLt
  have b_a := a.isLt
  simp only [put1, put2]; omega
theorem hfree (a : Reg) : Statement (.hfree a) := fun wd h => by
  cases (show some (put1 0xC4000001 a.val 16) = some wd from h)
  have b_a := a.isLt
  simp only [put1]; omega
theorem hcfg (a : Reg) (b : Reg) : Statement (.hcfg a b) := fun wd h => by
  cases (show some (put2 0xC4000002 a.val 16 b.val 11) = some wd from h)
  have b_a := a.isLt
  have b_b := b.isLt
  simp only [put1, put2]; omega
theorem hrowld (a : Reg) (b : Reg) : Statement (.hrowld a b) := fun wd h => by
  cases (show some (put2 0xC4000003 a.val 16 b.val 11) = some wd from h)
  have b_a := a.isLt
  have b_b := b.isLt
  simp only [put1, put2]; omega
theorem hrowst (d : Reg) (a : Reg) : Statement (.hrowst d a) := fun wd h => by
  cases (show some (put2 0xC4000004 d.val 21 a.val 16) = some wd from h)
  have b_d := d.isLt
  have b_a := a.isLt
  simp only [put1, put2]; omega
theorem hcolld (a : Reg) (b : Reg) : Statement (.hcolld a b) := fun wd h => by
  cases (show some (put2 0xC4000005 a.val 16 b.val 11) = some wd from h)
  have b_a := a.isLt
  have b_b := b.isLt
  simp only [put1, put2]; omega
theorem hcolst (d : Reg) (a : Reg) : Statement (.hcolst d a) := fun wd h => by
  cases (show some (put2 0xC4000006 d.val 21 a.val 16) = some wd from h)
  have b_d := d.isLt
  have b_a := a.isLt
  simp only [put1, put2]; omega
theorem hzero (a : Reg) : Statement (.hzero a) := fun wd h => by
  cases (show some (put1 0xC4000007 a.val 16) = some wd from h)
  have b_a := a.isLt
  simp only [put1]; omega
theorem hdrain (a : Reg) : Statement (.hdrain a) := fun wd h => by
  cases (show some (put1 0xC4000008 a.val 16) = some wd from h)
  have b_a := a.isLt
  simp only [put1]; omega
theorem hrescale (a : Reg) : Statement (.hrescale a) := fun wd h => by
  cases (show some (put1 0xC4000009 a.val 16) = some wd from h)
  have b_a := a.isLt
  simp only [put1]; omega
theorem hstat (d : Reg) (a : Reg) : Statement (.hstat d a) := fun wd h => by
  cases (show some (put2 0xC400000A d.val 21 a.val 16) = some wd from h)
  have b_d := d.isLt
  have b_a := a.isLt
  simp only [put1, put2]; omega
theorem reda (k : Reg) (a : Reg) (b : Reg) : Statement (.reda k a b) := fun wd h => by
  cases (show some (put3 0xC8000000 k.val 21 a.val 16 b.val 11) = some wd from h)
  have b_k := k.isLt
  have b_a := a.isLt
  have b_b := b.isLt
  simp only [put1, put2, put3]; omega
theorem redx (d : Reg) (k : Reg) (b : Reg) : Statement (.redx d k b) := fun wd h => by
  cases (show some (put3 0xC8000001 d.val 21 k.val 16 b.val 11) = some wd from h)
  have b_d := d.isLt
  have b_k := k.isLt
  have b_b := b.isLt
  simp only [put1, put2, put3]; omega
theorem adtbl (a : Reg) (b : Reg) : Statement (.adtbl a b) := fun wd h => by
  cases (show some (put2 0xC8000010 a.val 16 b.val 11) = some wd from h)
  have b_a := a.isLt
  have b_b := b.isLt
  simp only [put1, put2]; omega
theorem ainv (a : Reg) : Statement (.ainv a) := fun wd h => by
  cases (show some (put1 0xC8000011 a.val 16) = some wd from h)
  have b_a := a.isLt
  simp only [put1]; omega
theorem apref (a : Reg) (b : Reg) : Statement (.apref a b) := fun wd h => by
  cases (show some (put2 0xC8000012 a.val 16 b.val 11) = some wd from h)
  have b_a := a.isLt
  have b_b := b.isLt
  simp only [put1, put2]; omega
theorem astat (d : Reg) (a : Reg) : Statement (.astat d a) := fun wd h => by
  cases (show some (put2 0xC8000013 d.val 21 a.val 16) = some wd from h)
  have b_d := d.isLt
  have b_a := a.isLt
  simp only [put1, put2]; omega
theorem xld (d : Reg) (a : Reg) : Statement (.xld d a) := fun wd h => by
  cases (show some (put2 0xE0000000 d.val 21 a.val 16) = some wd from h)
  have b_d := d.isLt
  have b_a := a.isLt
  simp only [put1, put2]; omega
theorem xst (d : Reg) (a : Reg) : Statement (.xst d a) := fun wd h => by
  cases (show some (put2 0xE0000001 d.val 21 a.val 16) = some wd from h)
  have b_d := d.isLt
  have b_a := a.isLt
  simp only [put1, put2]; omega
theorem xldcol (d : Reg) (a : Reg) : Statement (.xldcol d a) := fun wd h => by
  cases (show some (put2 0xE0000002 d.val 21 a.val 16) = some wd from h)
  have b_d := d.isLt
  have b_a := a.isLt
  simp only [put1, put2]; omega
theorem xstcol (d : Reg) (a : Reg) : Statement (.xstcol d a) := fun wd h => by
  cases (show some (put2 0xE0000003 d.val 21 a.val 16) = some wd from h)
  have b_d := d.isLt
  have b_a := a.isLt
  simp only [put1, put2]; omega
theorem xgath (d : Reg) (a : Reg) : Statement (.xgath d a) := fun wd h => by
  cases (show some (put2 0xE4000000 d.val 21 a.val 16) = some wd from h)
  have b_d := d.isLt
  have b_a := a.isLt
  simp only [put1, put2]; omega
theorem xscat (d : Reg) (a : Reg) : Statement (.xscat d a) := fun wd h => by
  cases (show some (put2 0xE4000001 d.val 21 a.val 16) = some wd from h)
  have b_d := d.isLt
  have b_a := a.isLt
  simp only [put1, put2]; omega
theorem xred (d : Reg) (a : Reg) : Statement (.xred d a) := fun wd h => by
  cases (show some (put2 0xE4000002 d.val 21 a.val 16) = some wd from h)
  have b_d := d.isLt
  have b_a := a.isLt
  simp only [put1, put2]; omega
theorem xprog (d : Reg) (a : Reg) : Statement (.xprog d a) := fun wd h => by
  cases (show some (put2 0xE4000003 d.val 21 a.val 16) = some wd from h)
  have b_d := d.isLt
  have b_a := a.isLt
  simp only [put1, put2]; omega
theorem xpush (d : Reg) (a : Reg) (b : Reg) : Statement (.xpush d a b) := fun wd h => by
  cases (show some (put3 0xE8000000 d.val 21 a.val 16 b.val 11) = some wd from h)
  have b_d := d.isLt
  have b_a := a.isLt
  have b_b := b.isLt
  simp only [put1, put2, put3]; omega
theorem xpull (d : Reg) (a : Reg) (b : Reg) : Statement (.xpull d a b) := fun wd h => by
  cases (show some (put3 0xE8000001 d.val 21 a.val 16 b.val 11) = some wd from h)
  have b_d := d.isLt
  have b_a := a.isLt
  have b_b := b.isLt
  simp only [put1, put2, put3]; omega
theorem xwait (d : Reg) (a : Reg) : Statement (.xwait d a) := fun wd h => by
  cases (show some (put2 0xE8000002 d.val 21 a.val 16) = some wd from h)
  have b_d := d.isLt
  have b_a := a.isLt
  simp only [put1, put2]; omega
theorem xsect (d : Reg) (a : Reg) (b : Reg) : Statement (.xsect d a b) := fun wd h => by
  cases (show some (put3 0xE8000003 d.val 21 a.val 16 b.val 11) = some wd from h)
  have b_d := d.isLt
  have b_a := a.isLt
  have b_b := b.isLt
  simp only [put1, put2, put3]; omega
theorem xexp24 (d : Reg) (a : Reg) (w : Reg) : Statement (.xexp24 d a w) := fun wd h => by
  cases (show some (put3 0xEC000000 d.val 21 a.val 16 w.val 11) = some wd from h)
  have b_d := d.isLt
  have b_a := a.isLt
  have b_w := w.isLt
  simp only [put1, put2, put3]; omega
theorem xbdot (d : Reg) (a : Reg) (b : Reg) : Statement (.xbdot d a b) := fun wd h => by
  cases (show some (put3 0xEC000001 d.val 21 a.val 16 b.val 11) = some wd from h)
  have b_d := d.isLt
  have b_a := a.isLt
  have b_b := b.isLt
  simp only [put1, put2, put3]; omega
theorem placeCastOn (cl : Fin 16) (w : Word) : Statement (.placeCastOn cl w) := fun n h => by cases (show none = some n from h)
theorem ctxmapSelect (cl : Fin 16) (w : Word) : Statement (.ctxmapSelect cl w) := fun n h => by cases (show none = some n from h)
theorem ctxmapWriteSlot (cl : Fin 16) (w : Word) : Statement (.ctxmapWriteSlot cl w) := fun n h => by cases (show none = some n from h)
theorem ctxmapWriteSab (cl : Fin 16) (w : Word) : Statement (.ctxmapWriteSab cl w) := fun n h => by cases (show none = some n from h)
theorem isocfgSelect (cl : Fin 16) (w : Word) : Statement (.isocfgSelect cl w) := fun n h => by cases (show none = some n from h)
theorem isocfgSet (cl : Fin 16) (w : Word) : Statement (.isocfgSet cl w) := fun n h => by cases (show none = some n from h)
theorem arbwWrite (cl : Fin 16) (w : Word) : Statement (.arbwWrite cl w) := fun n h => by cases (show none = some n from h)
theorem evqbaseWrite (cl : Fin 16) (w : Word) : Statement (.evqbaseWrite cl w) := fun n h => by cases (show none = some n from h)
theorem registerWrite (c : CoreName) (t : Thread) (n : BitVec 12) (w : Word) : Statement (.registerWrite c t n w) := fun n h => by cases (show none = some n from h)
theorem waitReasonClears (c : CoreName) (t : Thread) : Statement (.waitReasonClears c t) := fun n h => by cases (show none = some n from h)
theorem waitDeadline (c : CoreName) (t : Thread) : Statement (.waitDeadline c t) := fun n h => by cases (show none = some n from h)
theorem streamRequest (c : CoreName) (n : Fin 4) : Statement (.streamRequest c n) := fun n h => by cases (show none = some n from h)
theorem streamElementArrival (c : CoreName) (n : Fin 4) : Statement (.streamElementArrival c n) := fun n h => by cases (show none = some n from h)
theorem streamWritePerform (c : CoreName) (n : Fin 4) : Statement (.streamWritePerform c n) := fun n h => by cases (show none = some n from h)
theorem accessPerformed (c : CoreName) (t : Thread) : Statement (.accessPerformed c t) := fun n h => by cases (show none = some n from h)
theorem relaxedStoreAck (c : CoreName) : Statement (.relaxedStoreAck c) := fun n h => by cases (show none = some n from h)
theorem matrixAccept (o : OctName) (x : Fin 8) : Statement (.matrixAccept o x) := fun n h => by cases (show none = some n from h)
theorem arbiterTake (o : OctName) : Statement (.arbiterTake o) := fun n h => by cases (show none = some n from h)
theorem matrixExecute (o : OctName) : Statement (.matrixExecute o) := fun n h => by cases (show none = some n from h)
theorem matrixComplete (o : OctName) (id : Nat) : Statement (.matrixComplete o id) := fun n h => by cases (show none = some n from h)
theorem hdrainImageAck (o : OctName) (id : Nat) : Statement (.hdrainImageAck o id) := fun n h => by cases (show none = some n from h)
theorem adapterFillArrival (o : OctName) (line : LineKey) : Statement (.adapterFillArrival o line) := fun n h => by cases (show none = some n from h)
theorem rowReplay (o : OctName) : Statement (.rowReplay o) := fun n h => by cases (show none = some n from h)
theorem externalElement (c : CoreName) (t : Thread) : Statement (.externalElement c t) := fun n h => by cases (show none = some n from h)
theorem transferElement (c : CoreName) (id : Nat) (i : Nat) : Statement (.transferElement c id i) := fun n h => by cases (show none = some n from h)
theorem transferEnd (c : CoreName) (id : Nat) : Statement (.transferEnd c id) := fun n h => by cases (show none = some n from h)
theorem sectorLineAccess (s : Fin 12) (addr : BitVec 36) (col : Bool) (write : Bool) : Statement (.sectorLineAccess s addr col write) := fun n h => by cases (show none = some n from h)
theorem stationWalkEnd (s : Fin 12) : Statement (.stationWalkEnd s) := fun n h => by cases (show none = some n from h)
theorem faultQueueRoom (s : Fin 12) : Statement (.faultQueueRoom s) := fun n h => by cases (show none = some n from h)
theorem remoteRequest (ctx : BitVec 12) (va : BitVec 60) (r : RemoteReq) : Statement (.remoteRequest ctx va r) := fun n h => by cases (show none = some n from h)
theorem recordDelivery (c : CoreName) (ch : Fin 16) : Statement (.recordDelivery c ch) := fun n h => by cases (show none = some n from h)
theorem creditReturn (c : CoreName) (ch : Fin 16) : Statement (.creditReturn c ch) := fun n h => by cases (show none = some n from h)
theorem deliveryResume (c : CoreName) (ch : Fin 16) : Statement (.deliveryResume c ch) := fun n h => by cases (show none = some n from h)
theorem channelWaitExpiry (c : CoreName) : Statement (.channelWaitExpiry c) := fun n h => by cases (show none = some n from h)
theorem barrierArrivalCombine (c : CoreName) (k : Fin 4) : Statement (.barrierArrivalCombine c k) := fun n h => by cases (show none = some n from h)
theorem barrierCornerFire (c : CoreName) (k : Fin 4) : Statement (.barrierCornerFire c k) := fun n h => by cases (show none = some n from h)
theorem barrierReleaseReceipt (c : CoreName) (k : Fin 4) : Statement (.barrierReleaseReceipt c k) := fun n h => by cases (show none = some n from h)
theorem barrierBrokenNotice (c : CoreName) (k : Fin 4) : Statement (.barrierBrokenNotice c k) := fun n h => by cases (show none = some n from h)
theorem barrierBrokenRelease (c : CoreName) (k : Fin 4) : Statement (.barrierBrokenRelease c k) := fun n h => by cases (show none = some n from h)
theorem castOnOctetLoaded (o : OctName) : Statement (.castOnOctetLoaded o) := fun n h => by cases (show none = some n from h)
theorem castOnImageFailure (cl : Fin 16) : Statement (.castOnImageFailure cl) := fun n h => by cases (show none = some n from h)
theorem priorityAging (ctx : Nat) (kid : Nat) : Statement (.priorityAging ctx kid) := fun n h => by cases (show none = some n from h)
theorem groupPlacement (cl : Fin 16) : Statement (.groupPlacement cl) := fun n h => by cases (show none = some n from h)
theorem rangeRequestArrival (die : Fin 4) : Statement (.rangeRequestArrival die) := fun n h => by cases (show none = some n from h)
theorem rangeStep (die : Fin 4) : Statement (.rangeStep die) := fun n h => by cases (show none = some n from h)
theorem rangeReturnHeld (die : Fin 4) : Statement (.rangeReturnHeld die) := fun n h => by cases (show none = some n from h)
theorem eventHeldStore (cl : Fin 16) : Statement (.eventHeldStore cl) := fun n h => by cases (show none = some n from h)
theorem vacateDeadline (g : GroupKey) : Statement (.vacateDeadline g) := fun n h => by cases (show none = some n from h)
theorem contextSaveBegin (g : GroupKey) : Statement (.contextSaveBegin g) := fun n h => by cases (show none = some n from h)
theorem contextSaveComplete (g : GroupKey) : Statement (.contextSaveComplete g) := fun n h => by cases (show none = some n from h)
theorem restoreComplete (cl : Fin 16) : Statement (.restoreComplete cl) := fun n h => by cases (show none = some n from h)
theorem portTrainingEnd (p : PortName) (lanes : Nat) : Statement (.portTrainingEnd p lanes) := fun n h => by cases (show none = some n from h)
theorem portTrainingTimeout (p : PortName) : Statement (.portTrainingTimeout p) := fun n h => by cases (show none = some n from h)
theorem portLaneLoss (p : PortName) (lanes : Nat) : Statement (.portLaneLoss p lanes) := fun n h => by cases (show none = some n from h)
theorem portFailure (p : PortName) : Statement (.portFailure p) := fun n h => by cases (show none = some n from h)
theorem ptpMessage (sec : BitVec 48) (ns : BitVec 32) (frac : BitVec 16) (locked : Bool) : Statement (.ptpMessage sec ns frac locked) := fun n h => by cases (show none = some n from h)
theorem frameIngress (p : Fin 4) (frame : List Byte) (fcsOk : Bool) : Statement (.frameIngress p frame fcsOk) := fun n h => by cases (show none = some n from h)
theorem frameBankFlip (w : Word) : Statement (.frameBankFlip w) := fun n h => by cases (show none = some n from h)
theorem hostTailKick (ctx : BitVec 12) (tail : BitVec 32) : Statement (.hostTailKick ctx tail) := fun n h => by cases (show none = some n from h)
theorem hostCmdLaunch (ctx : BitVec 12) : Statement (.hostCmdLaunch ctx) := fun n h => by cases (show none = some n from h)
theorem hostCmdCancel (ctx : BitVec 12) : Statement (.hostCmdCancel ctx) := fun n h => by cases (show none = some n from h)
theorem hostCmdAdmit (block : BitVec 52) (ring : BitVec 52) (cplRing : BitVec 52) (szl : BitVec 4) (cl : Fin 16) : Statement (.hostCmdAdmit block ring cplRing szl cl) := fun n h => by cases (show none = some n from h)
theorem hostCmdRelease : Statement (.hostCmdRelease) := fun n h => by cases (show none = some n from h)
theorem powerOn (badOctets : List Nat) (badCores : List Nat) : Statement (.powerOn badOctets badCores) := fun n h => by cases (show none = some n from h)
theorem attestationRequest (w : I3cWrite) : Statement (.attestationRequest w) := fun n h => by cases (show none = some n from h)
theorem attestationReport : Statement (.attestationReport) := fun n h => by cases (show none = some n from h)
theorem updateImageWrite (img : Image) : Statement (.updateImageWrite img) := fun n h => by cases (show none = some n from h)
theorem updateClusterSwitch (cl : Fin 16) (selfCheck : Bool) : Statement (.updateClusterSwitch cl selfCheck) := fun n h => by cases (show none = some n from h)
theorem islandStart (n : Fin 1024) : Statement (.islandStart n) := fun n h => by cases (show none = some n from h)
theorem islandIdleStop (n : Fin 1024) : Statement (.islandIdleStop n) := fun n h => by cases (show none = some n from h)
theorem islandStopRequest (n : Fin 1024) : Statement (.islandStopRequest n) := fun n h => by cases (show none = some n from h)
theorem partFault (n : Fin 592) : Statement (.partFault n) := fun n h => by cases (show none = some n from h)
theorem controlCoreReset (cl : Fin 16) : Statement (.controlCoreReset cl) := fun n h => by cases (show none = some n from h)
theorem illegalInstr : Statement (.illegalInstr) := fun n h => by cases (show none = some n from h)
theorem fetchBoundary : Statement (.fetchBoundary) := fun n h => by cases (show none = some n from h)
theorem fetchEccFailure : Statement (.fetchEccFailure) := fun n h => by cases (show none = some n from h)
theorem packagePowerLimit (reached : Bool) : Statement (.packagePowerLimit reached) := fun n h => by cases (show none = some n from h)
theorem powerLoss : Statement (.powerLoss) := fun n h => by cases (show none = some n from h)
theorem hostMemoryAccess (pa : BitVec 52) (data : Option (List Byte)) : Statement (.hostMemoryAccess pa data) :=
  fun n h => by cases (show none = some n from h)

end Sys2Proof.Laws.Encoding
end

