-- ==== Sys2Proof/Laws/Table.lean ====
section
/-! SUPPORT. Tables: reading after writing, the canonical form, and that equal canonical tables are equal data. -/

namespace Sys2Proof

variable {α : Type}

theorem Tbl.get_erase_same (d : α) (t : Tbl α) (k : Nat) : Tbl.get d (Tbl.erase k t) k = d := by
  induction t with
  | nil => rfl
  | cons p t ih => simp only [Tbl.erase]; split <;> simp_all [Tbl.get]

theorem Tbl.get_erase_ne (d : α) (t : Tbl α) {k j : Nat} (h : j ≠ k) : Tbl.get d (Tbl.erase k t) j = Tbl.get d t j := by
  induction t with
  | nil => rfl
  | cons p t ih =>
    simp only [Tbl.erase]
    split
    · rename_i h'; simp [Tbl.get, h', Ne.symm h, ih]
    · simp [Tbl.get, ih]

theorem Tbl.get_insert_ne (d : α) (t : Tbl α) {k j : Nat} (v : α) (h : j ≠ k) :
    Tbl.get d (Tbl.insert k v t) j = Tbl.get d t j := by
  induction t with
  | nil => simp [Tbl.insert, Tbl.get, Ne.symm h]
  | cons p t ih => simp only [Tbl.insert]; split <;> simp [Tbl.get, Ne.symm h, ih]

theorem Tbl.get_insert_erase (d : α) (t : Tbl α) (k : Nat) (v : α) : Tbl.get d (Tbl.insert k v (Tbl.erase k t)) k = v := by
  induction t with
  | nil => simp [Tbl.erase, Tbl.insert, Tbl.get]
  | cons p t ih =>
    simp only [Tbl.erase]
    split
    · exact ih
    · rename_i h
      simp only [Tbl.insert]
      split <;> simp [Tbl.get, h, ih]

theorem Tbl.erase_eq_filter (t : Tbl α) (k : Nat) : Tbl.erase k t = t.filter fun p => decide (p.1 ≠ k) := by
  induction t with
  | nil => rfl
  | cons p t ih => by_cases h : p.1 = k <;> simp [Tbl.erase, h, ih]

theorem Tbl.mem_insert {t : Tbl α} {k : Nat} {v : α} {p : Nat × α} : p ∈ Tbl.insert k v t ↔ p = (k, v) ∨ p ∈ t := by
  induction t with
  | nil => simp [Tbl.insert]
  | cons q t ih =>
    simp only [Tbl.insert]
    split
    · exact List.mem_cons
    · rw [List.mem_cons, ih, List.mem_cons]; exact or_left_comm

theorem Tbl.insert_rising {t : Tbl α} {k : Nat} {v : α} (h : t.Pairwise fun p q => p.1 < q.1) (hk : ∀ p ∈ t, p.1 ≠ k) :
    (Tbl.insert k v t).Pairwise fun p q => p.1 < q.1 := by
  induction t with
  | nil => simp [Tbl.insert]
  | cons p t ih =>
    rw [List.pairwise_cons] at h
    simp only [Tbl.insert]
    split
    · rename_i hlt
      rw [List.pairwise_cons]
      refine ⟨?_, List.pairwise_cons.2 h⟩
      intro q hq
      rcases List.mem_cons.1 hq with rfl | hq
      · exact hlt
      · exact Nat.lt_trans hlt (h.1 q hq)
    · rename_i hge
      rw [List.pairwise_cons]
      refine ⟨?_, ih h.2 fun q hq => hk q (List.mem_cons_of_mem _ hq)⟩
      intro q hq
      rcases Tbl.mem_insert.1 hq with rfl | hq
      · have := hk p (by simp); exact Nat.lt_of_le_of_ne (Nat.not_lt.1 hge) this
      · exact h.1 q hq

theorem Tbl.get_of_lt (d : α) {t : Tbl α} {k : Nat} (h : ∀ p ∈ t, k < p.1) : Tbl.get d t k = d := by
  induction t with
  | nil => rfl
  | cons p t ih =>
    have := h p (by simp)
    simp [Tbl.get, show p.1 ≠ k by omega, ih fun q hq => h q (List.mem_cons_of_mem _ hq)]

/-- Removing a key undoes its insertion, and removing it twice is removing it once. -/
theorem Tbl.erase_insert (t : Tbl α) (k : Nat) (v : α) : Tbl.erase k (Tbl.insert k v t) = Tbl.erase k t := by
  induction t with
  | nil => simp [Tbl.insert, Tbl.erase]
  | cons p t ih =>
    simp only [Tbl.insert]
    split
    · simp [Tbl.erase]
    · simp [Tbl.erase, ih]

theorem Tbl.erase_erase (t : Tbl α) (k : Nat) : Tbl.erase k (Tbl.erase k t) = Tbl.erase k t := by
  simp [Tbl.erase_eq_filter]

variable [DecidableEq α]

@[simp] theorem Tbl.get_set_same (d : α) (t : Tbl α) (k : Nat) (v : α) : Tbl.get d (Tbl.set d t k v) k = v := by
  unfold Tbl.set
  split
  · rename_i h; rw [h]; exact Tbl.get_erase_same d t k
  · exact Tbl.get_insert_erase d t k v

/-- The last of two settings of one entry stands alone. -/
theorem Tbl.set_set (d : α) (t : Tbl α) (k : Nat) (v w : α) :
    Tbl.set d (Tbl.set d t k v) k w = Tbl.set d t k w := by
  have e : Tbl.erase k (Tbl.set d t k v) = Tbl.erase k t := by
    unfold Tbl.set
    split <;> simp [Tbl.erase_insert, Tbl.erase_erase]
  simp only [Tbl.set] at *
  rw [e]

theorem Tbl.get_set_ne (d : α) (t : Tbl α) {k j : Nat} (v : α) (h : j ≠ k) : Tbl.get d (Tbl.set d t k v) j = Tbl.get d t j := by
  unfold Tbl.set
  split
  · exact Tbl.get_erase_ne d t h
  · rw [Tbl.get_insert_ne d _ v h, Tbl.get_erase_ne d t h]

theorem Tbl.get_set (d : α) (t : Tbl α) (k j : Nat) (v : α) : Tbl.get d (Tbl.set d t k v) j = if j = k then v else Tbl.get d t j := by
  split
  · rename_i h; rw [h, Tbl.get_set_same]
  · rename_i h; exact Tbl.get_set_ne d t v h

/-! ## The canonical form -/

/-- Rising keys and no default value, pair by pair. -/
theorem Tbl.wf_iff (d : α) (t : Tbl α) : Tbl.wf d t = true ↔ (t.Pairwise fun p q => p.1 < q.1) ∧ ∀ p ∈ t, p.2 ≠ d := by
  induction t with
  | nil => simp [Tbl.wf]
  | cons p t ih =>
    cases t with
    | nil => simp [Tbl.wf]
    | cons q t =>
      simp only [Tbl.wf, Bool.and_eq_true, decide_eq_true_eq, ih]
      constructor
      · rintro ⟨⟨h1, h2⟩, h3, h4⟩
        refine ⟨?_, ?_⟩
        · rw [List.pairwise_cons]
          refine ⟨?_, h3⟩
          intro r hr
          rcases List.mem_cons.1 hr with rfl | hr
          · exact h2
          · exact Nat.lt_trans h2 ((List.pairwise_cons.1 h3).1 r hr)
        · intro r hr
          rcases List.mem_cons.1 hr with rfl | hr
          · exact h1
          · exact h4 r hr
      · rintro ⟨h1, h2⟩
        rw [List.pairwise_cons] at h1
        exact ⟨⟨h2 p (by simp), h1.1 q (by simp)⟩, h1.2, fun r hr => h2 r (List.mem_cons_of_mem _ hr)⟩

theorem Tbl.wf_filter (d : α) {t : Tbl α} (h : Tbl.wf d t = true) (f : Nat × α → Bool) : Tbl.wf d (t.filter f) = true := by
  rw [Tbl.wf_iff] at h ⊢
  exact ⟨h.1.filter f, fun p hp => h.2 p (List.mem_filter.1 hp).1⟩

theorem Tbl.wf_erase (d : α) {t : Tbl α} (h : Tbl.wf d t = true) (k : Nat) : Tbl.wf d (Tbl.erase k t) = true := by
  rw [Tbl.erase_eq_filter]; exact Tbl.wf_filter d h _

/-- Writing a table keeps its canonical form. -/
theorem Tbl.wf_set (d : α) {t : Tbl α} (h : Tbl.wf d t = true) (k : Nat) (v : α) : Tbl.wf d (Tbl.set d t k v) = true := by
  unfold Tbl.set
  have he := Tbl.wf_erase d h k
  split
  · exact he
  · rename_i hv
    rw [Tbl.wf_iff] at he ⊢
    refine ⟨Tbl.insert_rising he.1 ?_, ?_⟩
    · intro p hp; rw [Tbl.erase_eq_filter] at hp; simpa using (List.mem_filter.1 hp).2
    · intro p hp
      rcases Tbl.mem_insert.1 hp with rfl | hp
      · exact hv
      · exact he.2 p hp

/-- Two canonical tables that read alike are the same table. -/
theorem Tbl.ext_of_wf (d : α) {t u : Tbl α} (ht : Tbl.wf d t = true) (hu : Tbl.wf d u = true)
    (h : ∀ k, Tbl.get d t k = Tbl.get d u k) : t = u := by
  rw [Tbl.wf_iff] at ht hu
  induction t generalizing u with
  | nil =>
    cases u with
    | nil => rfl
    | cons q u =>
      have := h q.1
      simp only [Tbl.get, if_true] at this
      exact absurd this.symm (hu.2 q (by simp))
  | cons p t ih =>
    have hp := List.pairwise_cons.1 ht.1
    cases u with
    | nil =>
      have := h p.1
      simp only [Tbl.get, if_true] at this
      exact absurd this (ht.2 p (by simp))
    | cons q u =>
      have hq := List.pairwise_cons.1 hu.1
      have key : p.1 = q.1 := by
        rcases Nat.lt_trichotomy p.1 q.1 with hlt | heq | hlt
        · have h1 := h p.1
          rw [show Tbl.get d (q :: u) p.1 = d from Tbl.get_of_lt d fun r hr => by
            rcases List.mem_cons.1 hr with rfl | hr
            · exact hlt
            · exact Nat.lt_trans hlt (hq.1 r hr)] at h1
          simp only [Tbl.get, if_true] at h1
          exact absurd h1 (ht.2 p (by simp))
        · exact heq
        · have h1 := h q.1
          rw [show Tbl.get d (p :: t) q.1 = d from Tbl.get_of_lt d fun r hr => by
            rcases List.mem_cons.1 hr with rfl | hr
            · exact hlt
            · exact Nat.lt_trans hlt (hp.1 r hr)] at h1
          simp only [Tbl.get, if_true] at h1
          exact absurd h1.symm (hu.2 q (by simp))
      have val : p.2 = q.2 := by
        have h1 := h p.1
        simpa [Tbl.get, key] using h1
      have hpq : p = q := Prod.ext key val
      subst hpq
      congr 1
      apply ih ⟨hp.2, fun r hr => ht.2 r (List.mem_cons_of_mem _ hr)⟩ ⟨hq.2, fun r hr => hu.2 r (List.mem_cons_of_mem _ hr)⟩
      intro k
      by_cases hk : p.1 = k
      · subst hk
        rw [Tbl.get_of_lt d hp.1, Tbl.get_of_lt d hq.1]
      · have h1 := h k
        simpa [Tbl.get, hk] using h1

end Sys2Proof
end

