-- ==== Sys2Proof/Laws/State.lean ====
section
/-! SUPPORT. What each update of the state leaves alone, one lemma for each field, and what the accessors read after an
update. -/

namespace Sys2Proof.Machine

/-! ### State.setCore -/

@[simp] theorem State.setCore_turns (s : State) (c : CoreName) (k : Core) : (s.setCore c k).turns = s.turns := rfl
@[simp] theorem State.setCore_cur (s : State) (c : CoreName) (k : Core) : (s.setCore c k).cur = s.cur := rfl
@[simp] theorem State.setCore_thr (s : State) (c : CoreName) (k : Core) : (s.setCore c k).thr = s.thr := rfl
@[simp] theorem State.setCore_ir (s : State) (c : CoreName) (k : Core) : (s.setCore c k).ir = s.ir := rfl
@[simp] theorem State.setCore_ea (s : State) (c : CoreName) (k : Core) : (s.setCore c k).ea = s.ea := rfl
@[simp] theorem State.setCore_cycle (s : State) (c : CoreName) (k : Core) : (s.setCore c k).cycle = s.cycle := rfl
@[simp] theorem State.setCore_free (s : State) (c : CoreName) (k : Core) : (s.setCore c k).free = s.free := rfl
@[simp] theorem State.setCore_octets (s : State) (c : CoreName) (k : Core) : (s.setCore c k).octets = s.octets := rfl
@[simp] theorem State.setCore_clusters (s : State) (c : CoreName) (k : Core) : (s.setCore c k).clusters = s.clusters := rfl
@[simp] theorem State.setCore_dies (s : State) (c : CoreName) (k : Core) : (s.setCore c k).dies = s.dies := rfl
@[simp] theorem State.setCore_stations (s : State) (c : CoreName) (k : Core) : (s.setCore c k).stations = s.stations := rfl
@[simp] theorem State.setCore_sectors (s : State) (c : CoreName) (k : Core) : (s.setCore c k).sectors = s.sectors := rfl
@[simp] theorem State.setCore_mem (s : State) (c : CoreName) (k : Core) : (s.setCore c k).mem = s.mem := rfl
@[simp] theorem State.setCore_marks (s : State) (c : CoreName) (k : Core) : (s.setCore c k).marks = s.marks := rfl
@[simp] theorem State.setCore_syncq (s : State) (c : CoreName) (k : Core) : (s.setCore c k).syncq = s.syncq := rfl
@[simp] theorem State.setCore_takeq (s : State) (c : CoreName) (k : Core) : (s.setCore c k).takeq = s.takeq := rfl
@[simp] theorem State.setCore_router (s : State) (c : CoreName) (k : Core) : (s.setCore c k).router = s.router := rfl
@[simp] theorem State.setCore_conns (s : State) (c : CoreName) (k : Core) : (s.setCore c k).conns = s.conns := rfl
@[simp] theorem State.setCore_ctxs (s : State) (c : CoreName) (k : Core) : (s.setCore c k).ctxs = s.ctxs := rfl
@[simp] theorem State.setCore_groups (s : State) (c : CoreName) (k : Core) : (s.setCore c k).groups = s.groups := rfl
@[simp] theorem State.setCore_skeins (s : State) (c : CoreName) (k : Core) : (s.setCore c k).skeins = s.skeins := rfl
@[simp] theorem State.setCore_castSeq (s : State) (c : CoreName) (k : Core) : (s.setCore c k).castSeq = s.castSeq := rfl
@[simp] theorem State.setCore_memSeq (s : State) (c : CoreName) (k : Core) : (s.setCore c k).memSeq = s.memSeq := rfl
@[simp] theorem State.setCore_mgmtSeq (s : State) (c : CoreName) (k : Core) : (s.setCore c k).mgmtSeq = s.mgmtSeq := rfl
@[simp] theorem State.setCore_portSeq (s : State) (c : CoreName) (k : Core) : (s.setCore c k).portSeq = s.portSeq := rfl
@[simp] theorem State.setCore_ports (s : State) (c : CoreName) (k : Core) : (s.setCore c k).ports = s.ports := rfl
@[simp] theorem State.setCore_frameQs (s : State) (c : CoreName) (k : Core) : (s.setCore c k).frameQs = s.frameQs := rfl
@[simp] theorem State.setCore_frameBank (s : State) (c : CoreName) (k : Core) : (s.setCore c k).frameBank = s.frameBank := rfl
@[simp] theorem State.setCore_badFrames (s : State) (c : CoreName) (k : Core) : (s.setCore c k).badFrames = s.badFrames := rfl
@[simp] theorem State.setCore_ruleDrops (s : State) (c : CoreName) (k : Core) : (s.setCore c k).ruleDrops = s.ruleDrops := rfl
@[simp] theorem State.setCore_time (s : State) (c : CoreName) (k : Core) : (s.setCore c k).time = s.time := rfl
@[simp] theorem State.setCore_slewRate (s : State) (c : CoreName) (k : Core) : (s.setCore c k).slewRate = s.slewRate := rfl
@[simp] theorem State.setCore_life (s : State) (c : CoreName) (k : Core) : (s.setCore c k).life = s.life := rfl

/-! ### State.updCore -/

@[simp] theorem State.updCore_turns (s : State) (c : CoreName) (f : Core → Core) : (s.updCore c f).turns = s.turns := rfl
@[simp] theorem State.updCore_cur (s : State) (c : CoreName) (f : Core → Core) : (s.updCore c f).cur = s.cur := rfl
@[simp] theorem State.updCore_thr (s : State) (c : CoreName) (f : Core → Core) : (s.updCore c f).thr = s.thr := rfl
@[simp] theorem State.updCore_ir (s : State) (c : CoreName) (f : Core → Core) : (s.updCore c f).ir = s.ir := rfl
@[simp] theorem State.updCore_ea (s : State) (c : CoreName) (f : Core → Core) : (s.updCore c f).ea = s.ea := rfl
@[simp] theorem State.updCore_cycle (s : State) (c : CoreName) (f : Core → Core) : (s.updCore c f).cycle = s.cycle := rfl
@[simp] theorem State.updCore_free (s : State) (c : CoreName) (f : Core → Core) : (s.updCore c f).free = s.free := rfl
@[simp] theorem State.updCore_octets (s : State) (c : CoreName) (f : Core → Core) : (s.updCore c f).octets = s.octets := rfl
@[simp] theorem State.updCore_clusters (s : State) (c : CoreName) (f : Core → Core) : (s.updCore c f).clusters = s.clusters := rfl
@[simp] theorem State.updCore_dies (s : State) (c : CoreName) (f : Core → Core) : (s.updCore c f).dies = s.dies := rfl
@[simp] theorem State.updCore_stations (s : State) (c : CoreName) (f : Core → Core) : (s.updCore c f).stations = s.stations := rfl
@[simp] theorem State.updCore_sectors (s : State) (c : CoreName) (f : Core → Core) : (s.updCore c f).sectors = s.sectors := rfl
@[simp] theorem State.updCore_mem (s : State) (c : CoreName) (f : Core → Core) : (s.updCore c f).mem = s.mem := rfl
@[simp] theorem State.updCore_marks (s : State) (c : CoreName) (f : Core → Core) : (s.updCore c f).marks = s.marks := rfl
@[simp] theorem State.updCore_syncq (s : State) (c : CoreName) (f : Core → Core) : (s.updCore c f).syncq = s.syncq := rfl
@[simp] theorem State.updCore_takeq (s : State) (c : CoreName) (f : Core → Core) : (s.updCore c f).takeq = s.takeq := rfl
@[simp] theorem State.updCore_router (s : State) (c : CoreName) (f : Core → Core) : (s.updCore c f).router = s.router := rfl
@[simp] theorem State.updCore_conns (s : State) (c : CoreName) (f : Core → Core) : (s.updCore c f).conns = s.conns := rfl
@[simp] theorem State.updCore_ctxs (s : State) (c : CoreName) (f : Core → Core) : (s.updCore c f).ctxs = s.ctxs := rfl
@[simp] theorem State.updCore_groups (s : State) (c : CoreName) (f : Core → Core) : (s.updCore c f).groups = s.groups := rfl
@[simp] theorem State.updCore_skeins (s : State) (c : CoreName) (f : Core → Core) : (s.updCore c f).skeins = s.skeins := rfl
@[simp] theorem State.updCore_castSeq (s : State) (c : CoreName) (f : Core → Core) : (s.updCore c f).castSeq = s.castSeq := rfl
@[simp] theorem State.updCore_memSeq (s : State) (c : CoreName) (f : Core → Core) : (s.updCore c f).memSeq = s.memSeq := rfl
@[simp] theorem State.updCore_mgmtSeq (s : State) (c : CoreName) (f : Core → Core) : (s.updCore c f).mgmtSeq = s.mgmtSeq := rfl
@[simp] theorem State.updCore_portSeq (s : State) (c : CoreName) (f : Core → Core) : (s.updCore c f).portSeq = s.portSeq := rfl
@[simp] theorem State.updCore_ports (s : State) (c : CoreName) (f : Core → Core) : (s.updCore c f).ports = s.ports := rfl
@[simp] theorem State.updCore_frameQs (s : State) (c : CoreName) (f : Core → Core) : (s.updCore c f).frameQs = s.frameQs := rfl
@[simp] theorem State.updCore_frameBank (s : State) (c : CoreName) (f : Core → Core) : (s.updCore c f).frameBank = s.frameBank := rfl
@[simp] theorem State.updCore_badFrames (s : State) (c : CoreName) (f : Core → Core) : (s.updCore c f).badFrames = s.badFrames := rfl
@[simp] theorem State.updCore_ruleDrops (s : State) (c : CoreName) (f : Core → Core) : (s.updCore c f).ruleDrops = s.ruleDrops := rfl
@[simp] theorem State.updCore_time (s : State) (c : CoreName) (f : Core → Core) : (s.updCore c f).time = s.time := rfl
@[simp] theorem State.updCore_slewRate (s : State) (c : CoreName) (f : Core → Core) : (s.updCore c f).slewRate = s.slewRate := rfl
@[simp] theorem State.updCore_life (s : State) (c : CoreName) (f : Core → Core) : (s.updCore c f).life = s.life := rfl

/-! ### State.updTh -/

@[simp] theorem State.updTh_turns (s : State) (c : CoreName) (t : Thread) (f : ThreadState → ThreadState) : (s.updTh c t f).turns = s.turns := rfl
@[simp] theorem State.updTh_cur (s : State) (c : CoreName) (t : Thread) (f : ThreadState → ThreadState) : (s.updTh c t f).cur = s.cur := rfl
@[simp] theorem State.updTh_thr (s : State) (c : CoreName) (t : Thread) (f : ThreadState → ThreadState) : (s.updTh c t f).thr = s.thr := rfl
@[simp] theorem State.updTh_ir (s : State) (c : CoreName) (t : Thread) (f : ThreadState → ThreadState) : (s.updTh c t f).ir = s.ir := rfl
@[simp] theorem State.updTh_ea (s : State) (c : CoreName) (t : Thread) (f : ThreadState → ThreadState) : (s.updTh c t f).ea = s.ea := rfl
@[simp] theorem State.updTh_cycle (s : State) (c : CoreName) (t : Thread) (f : ThreadState → ThreadState) : (s.updTh c t f).cycle = s.cycle := rfl
@[simp] theorem State.updTh_free (s : State) (c : CoreName) (t : Thread) (f : ThreadState → ThreadState) : (s.updTh c t f).free = s.free := rfl
@[simp] theorem State.updTh_octets (s : State) (c : CoreName) (t : Thread) (f : ThreadState → ThreadState) : (s.updTh c t f).octets = s.octets := rfl
@[simp] theorem State.updTh_clusters (s : State) (c : CoreName) (t : Thread) (f : ThreadState → ThreadState) : (s.updTh c t f).clusters = s.clusters := rfl
@[simp] theorem State.updTh_dies (s : State) (c : CoreName) (t : Thread) (f : ThreadState → ThreadState) : (s.updTh c t f).dies = s.dies := rfl
@[simp] theorem State.updTh_stations (s : State) (c : CoreName) (t : Thread) (f : ThreadState → ThreadState) : (s.updTh c t f).stations = s.stations := rfl
@[simp] theorem State.updTh_sectors (s : State) (c : CoreName) (t : Thread) (f : ThreadState → ThreadState) : (s.updTh c t f).sectors = s.sectors := rfl
@[simp] theorem State.updTh_mem (s : State) (c : CoreName) (t : Thread) (f : ThreadState → ThreadState) : (s.updTh c t f).mem = s.mem := rfl
@[simp] theorem State.updTh_marks (s : State) (c : CoreName) (t : Thread) (f : ThreadState → ThreadState) : (s.updTh c t f).marks = s.marks := rfl
@[simp] theorem State.updTh_syncq (s : State) (c : CoreName) (t : Thread) (f : ThreadState → ThreadState) : (s.updTh c t f).syncq = s.syncq := rfl
@[simp] theorem State.updTh_takeq (s : State) (c : CoreName) (t : Thread) (f : ThreadState → ThreadState) : (s.updTh c t f).takeq = s.takeq := rfl
@[simp] theorem State.updTh_router (s : State) (c : CoreName) (t : Thread) (f : ThreadState → ThreadState) : (s.updTh c t f).router = s.router := rfl
@[simp] theorem State.updTh_conns (s : State) (c : CoreName) (t : Thread) (f : ThreadState → ThreadState) : (s.updTh c t f).conns = s.conns := rfl
@[simp] theorem State.updTh_ctxs (s : State) (c : CoreName) (t : Thread) (f : ThreadState → ThreadState) : (s.updTh c t f).ctxs = s.ctxs := rfl
@[simp] theorem State.updTh_groups (s : State) (c : CoreName) (t : Thread) (f : ThreadState → ThreadState) : (s.updTh c t f).groups = s.groups := rfl
@[simp] theorem State.updTh_skeins (s : State) (c : CoreName) (t : Thread) (f : ThreadState → ThreadState) : (s.updTh c t f).skeins = s.skeins := rfl
@[simp] theorem State.updTh_castSeq (s : State) (c : CoreName) (t : Thread) (f : ThreadState → ThreadState) : (s.updTh c t f).castSeq = s.castSeq := rfl
@[simp] theorem State.updTh_memSeq (s : State) (c : CoreName) (t : Thread) (f : ThreadState → ThreadState) : (s.updTh c t f).memSeq = s.memSeq := rfl
@[simp] theorem State.updTh_mgmtSeq (s : State) (c : CoreName) (t : Thread) (f : ThreadState → ThreadState) : (s.updTh c t f).mgmtSeq = s.mgmtSeq := rfl
@[simp] theorem State.updTh_portSeq (s : State) (c : CoreName) (t : Thread) (f : ThreadState → ThreadState) : (s.updTh c t f).portSeq = s.portSeq := rfl
@[simp] theorem State.updTh_ports (s : State) (c : CoreName) (t : Thread) (f : ThreadState → ThreadState) : (s.updTh c t f).ports = s.ports := rfl
@[simp] theorem State.updTh_frameQs (s : State) (c : CoreName) (t : Thread) (f : ThreadState → ThreadState) : (s.updTh c t f).frameQs = s.frameQs := rfl
@[simp] theorem State.updTh_frameBank (s : State) (c : CoreName) (t : Thread) (f : ThreadState → ThreadState) : (s.updTh c t f).frameBank = s.frameBank := rfl
@[simp] theorem State.updTh_badFrames (s : State) (c : CoreName) (t : Thread) (f : ThreadState → ThreadState) : (s.updTh c t f).badFrames = s.badFrames := rfl
@[simp] theorem State.updTh_ruleDrops (s : State) (c : CoreName) (t : Thread) (f : ThreadState → ThreadState) : (s.updTh c t f).ruleDrops = s.ruleDrops := rfl
@[simp] theorem State.updTh_time (s : State) (c : CoreName) (t : Thread) (f : ThreadState → ThreadState) : (s.updTh c t f).time = s.time := rfl
@[simp] theorem State.updTh_slewRate (s : State) (c : CoreName) (t : Thread) (f : ThreadState → ThreadState) : (s.updTh c t f).slewRate = s.slewRate := rfl
@[simp] theorem State.updTh_life (s : State) (c : CoreName) (t : Thread) (f : ThreadState → ThreadState) : (s.updTh c t f).life = s.life := rfl

/-! ### State.updOctet -/

@[simp] theorem State.updOctet_turns (s : State) (o : OctName) (f : Octet → Octet) : (s.updOctet o f).turns = s.turns := rfl
@[simp] theorem State.updOctet_cur (s : State) (o : OctName) (f : Octet → Octet) : (s.updOctet o f).cur = s.cur := rfl
@[simp] theorem State.updOctet_thr (s : State) (o : OctName) (f : Octet → Octet) : (s.updOctet o f).thr = s.thr := rfl
@[simp] theorem State.updOctet_ir (s : State) (o : OctName) (f : Octet → Octet) : (s.updOctet o f).ir = s.ir := rfl
@[simp] theorem State.updOctet_ea (s : State) (o : OctName) (f : Octet → Octet) : (s.updOctet o f).ea = s.ea := rfl
@[simp] theorem State.updOctet_cycle (s : State) (o : OctName) (f : Octet → Octet) : (s.updOctet o f).cycle = s.cycle := rfl
@[simp] theorem State.updOctet_free (s : State) (o : OctName) (f : Octet → Octet) : (s.updOctet o f).free = s.free := rfl
@[simp] theorem State.updOctet_cores (s : State) (o : OctName) (f : Octet → Octet) : (s.updOctet o f).cores = s.cores := rfl
@[simp] theorem State.updOctet_clusters (s : State) (o : OctName) (f : Octet → Octet) : (s.updOctet o f).clusters = s.clusters := rfl
@[simp] theorem State.updOctet_dies (s : State) (o : OctName) (f : Octet → Octet) : (s.updOctet o f).dies = s.dies := rfl
@[simp] theorem State.updOctet_stations (s : State) (o : OctName) (f : Octet → Octet) : (s.updOctet o f).stations = s.stations := rfl
@[simp] theorem State.updOctet_sectors (s : State) (o : OctName) (f : Octet → Octet) : (s.updOctet o f).sectors = s.sectors := rfl
@[simp] theorem State.updOctet_mem (s : State) (o : OctName) (f : Octet → Octet) : (s.updOctet o f).mem = s.mem := rfl
@[simp] theorem State.updOctet_marks (s : State) (o : OctName) (f : Octet → Octet) : (s.updOctet o f).marks = s.marks := rfl
@[simp] theorem State.updOctet_syncq (s : State) (o : OctName) (f : Octet → Octet) : (s.updOctet o f).syncq = s.syncq := rfl
@[simp] theorem State.updOctet_takeq (s : State) (o : OctName) (f : Octet → Octet) : (s.updOctet o f).takeq = s.takeq := rfl
@[simp] theorem State.updOctet_router (s : State) (o : OctName) (f : Octet → Octet) : (s.updOctet o f).router = s.router := rfl
@[simp] theorem State.updOctet_conns (s : State) (o : OctName) (f : Octet → Octet) : (s.updOctet o f).conns = s.conns := rfl
@[simp] theorem State.updOctet_ctxs (s : State) (o : OctName) (f : Octet → Octet) : (s.updOctet o f).ctxs = s.ctxs := rfl
@[simp] theorem State.updOctet_groups (s : State) (o : OctName) (f : Octet → Octet) : (s.updOctet o f).groups = s.groups := rfl
@[simp] theorem State.updOctet_skeins (s : State) (o : OctName) (f : Octet → Octet) : (s.updOctet o f).skeins = s.skeins := rfl
@[simp] theorem State.updOctet_castSeq (s : State) (o : OctName) (f : Octet → Octet) : (s.updOctet o f).castSeq = s.castSeq := rfl
@[simp] theorem State.updOctet_memSeq (s : State) (o : OctName) (f : Octet → Octet) : (s.updOctet o f).memSeq = s.memSeq := rfl
@[simp] theorem State.updOctet_mgmtSeq (s : State) (o : OctName) (f : Octet → Octet) : (s.updOctet o f).mgmtSeq = s.mgmtSeq := rfl
@[simp] theorem State.updOctet_portSeq (s : State) (o : OctName) (f : Octet → Octet) : (s.updOctet o f).portSeq = s.portSeq := rfl
@[simp] theorem State.updOctet_ports (s : State) (o : OctName) (f : Octet → Octet) : (s.updOctet o f).ports = s.ports := rfl
@[simp] theorem State.updOctet_frameQs (s : State) (o : OctName) (f : Octet → Octet) : (s.updOctet o f).frameQs = s.frameQs := rfl
@[simp] theorem State.updOctet_frameBank (s : State) (o : OctName) (f : Octet → Octet) : (s.updOctet o f).frameBank = s.frameBank := rfl
@[simp] theorem State.updOctet_badFrames (s : State) (o : OctName) (f : Octet → Octet) : (s.updOctet o f).badFrames = s.badFrames := rfl
@[simp] theorem State.updOctet_ruleDrops (s : State) (o : OctName) (f : Octet → Octet) : (s.updOctet o f).ruleDrops = s.ruleDrops := rfl
@[simp] theorem State.updOctet_time (s : State) (o : OctName) (f : Octet → Octet) : (s.updOctet o f).time = s.time := rfl
@[simp] theorem State.updOctet_slewRate (s : State) (o : OctName) (f : Octet → Octet) : (s.updOctet o f).slewRate = s.slewRate := rfl
@[simp] theorem State.updOctet_life (s : State) (o : OctName) (f : Octet → Octet) : (s.updOctet o f).life = s.life := rfl

/-! ### State.updCluster -/

@[simp] theorem State.updCluster_turns (s : State) (cl : Fin 16) (f : Cluster → Cluster) : (s.updCluster cl f).turns = s.turns := rfl
@[simp] theorem State.updCluster_cur (s : State) (cl : Fin 16) (f : Cluster → Cluster) : (s.updCluster cl f).cur = s.cur := rfl
@[simp] theorem State.updCluster_thr (s : State) (cl : Fin 16) (f : Cluster → Cluster) : (s.updCluster cl f).thr = s.thr := rfl
@[simp] theorem State.updCluster_ir (s : State) (cl : Fin 16) (f : Cluster → Cluster) : (s.updCluster cl f).ir = s.ir := rfl
@[simp] theorem State.updCluster_ea (s : State) (cl : Fin 16) (f : Cluster → Cluster) : (s.updCluster cl f).ea = s.ea := rfl
@[simp] theorem State.updCluster_cycle (s : State) (cl : Fin 16) (f : Cluster → Cluster) : (s.updCluster cl f).cycle = s.cycle := rfl
@[simp] theorem State.updCluster_free (s : State) (cl : Fin 16) (f : Cluster → Cluster) : (s.updCluster cl f).free = s.free := rfl
@[simp] theorem State.updCluster_cores (s : State) (cl : Fin 16) (f : Cluster → Cluster) : (s.updCluster cl f).cores = s.cores := rfl
@[simp] theorem State.updCluster_octets (s : State) (cl : Fin 16) (f : Cluster → Cluster) : (s.updCluster cl f).octets = s.octets := rfl
@[simp] theorem State.updCluster_dies (s : State) (cl : Fin 16) (f : Cluster → Cluster) : (s.updCluster cl f).dies = s.dies := rfl
@[simp] theorem State.updCluster_stations (s : State) (cl : Fin 16) (f : Cluster → Cluster) : (s.updCluster cl f).stations = s.stations := rfl
@[simp] theorem State.updCluster_sectors (s : State) (cl : Fin 16) (f : Cluster → Cluster) : (s.updCluster cl f).sectors = s.sectors := rfl
@[simp] theorem State.updCluster_mem (s : State) (cl : Fin 16) (f : Cluster → Cluster) : (s.updCluster cl f).mem = s.mem := rfl
@[simp] theorem State.updCluster_marks (s : State) (cl : Fin 16) (f : Cluster → Cluster) : (s.updCluster cl f).marks = s.marks := rfl
@[simp] theorem State.updCluster_syncq (s : State) (cl : Fin 16) (f : Cluster → Cluster) : (s.updCluster cl f).syncq = s.syncq := rfl
@[simp] theorem State.updCluster_takeq (s : State) (cl : Fin 16) (f : Cluster → Cluster) : (s.updCluster cl f).takeq = s.takeq := rfl
@[simp] theorem State.updCluster_router (s : State) (cl : Fin 16) (f : Cluster → Cluster) : (s.updCluster cl f).router = s.router := rfl
@[simp] theorem State.updCluster_conns (s : State) (cl : Fin 16) (f : Cluster → Cluster) : (s.updCluster cl f).conns = s.conns := rfl
@[simp] theorem State.updCluster_ctxs (s : State) (cl : Fin 16) (f : Cluster → Cluster) : (s.updCluster cl f).ctxs = s.ctxs := rfl
@[simp] theorem State.updCluster_groups (s : State) (cl : Fin 16) (f : Cluster → Cluster) : (s.updCluster cl f).groups = s.groups := rfl
@[simp] theorem State.updCluster_skeins (s : State) (cl : Fin 16) (f : Cluster → Cluster) : (s.updCluster cl f).skeins = s.skeins := rfl
@[simp] theorem State.updCluster_castSeq (s : State) (cl : Fin 16) (f : Cluster → Cluster) : (s.updCluster cl f).castSeq = s.castSeq := rfl
@[simp] theorem State.updCluster_memSeq (s : State) (cl : Fin 16) (f : Cluster → Cluster) : (s.updCluster cl f).memSeq = s.memSeq := rfl
@[simp] theorem State.updCluster_mgmtSeq (s : State) (cl : Fin 16) (f : Cluster → Cluster) : (s.updCluster cl f).mgmtSeq = s.mgmtSeq := rfl
@[simp] theorem State.updCluster_portSeq (s : State) (cl : Fin 16) (f : Cluster → Cluster) : (s.updCluster cl f).portSeq = s.portSeq := rfl
@[simp] theorem State.updCluster_ports (s : State) (cl : Fin 16) (f : Cluster → Cluster) : (s.updCluster cl f).ports = s.ports := rfl
@[simp] theorem State.updCluster_frameQs (s : State) (cl : Fin 16) (f : Cluster → Cluster) : (s.updCluster cl f).frameQs = s.frameQs := rfl
@[simp] theorem State.updCluster_frameBank (s : State) (cl : Fin 16) (f : Cluster → Cluster) : (s.updCluster cl f).frameBank = s.frameBank := rfl
@[simp] theorem State.updCluster_badFrames (s : State) (cl : Fin 16) (f : Cluster → Cluster) : (s.updCluster cl f).badFrames = s.badFrames := rfl
@[simp] theorem State.updCluster_ruleDrops (s : State) (cl : Fin 16) (f : Cluster → Cluster) : (s.updCluster cl f).ruleDrops = s.ruleDrops := rfl
@[simp] theorem State.updCluster_time (s : State) (cl : Fin 16) (f : Cluster → Cluster) : (s.updCluster cl f).time = s.time := rfl
@[simp] theorem State.updCluster_slewRate (s : State) (cl : Fin 16) (f : Cluster → Cluster) : (s.updCluster cl f).slewRate = s.slewRate := rfl
@[simp] theorem State.updCluster_life (s : State) (cl : Fin 16) (f : Cluster → Cluster) : (s.updCluster cl f).life = s.life := rfl

/-! ### State.updDie -/

@[simp] theorem State.updDie_turns (s : State) (d : Nat) (f : RangeUnit → RangeUnit) : (s.updDie d f).turns = s.turns := rfl
@[simp] theorem State.updDie_cur (s : State) (d : Nat) (f : RangeUnit → RangeUnit) : (s.updDie d f).cur = s.cur := rfl
@[simp] theorem State.updDie_thr (s : State) (d : Nat) (f : RangeUnit → RangeUnit) : (s.updDie d f).thr = s.thr := rfl
@[simp] theorem State.updDie_ir (s : State) (d : Nat) (f : RangeUnit → RangeUnit) : (s.updDie d f).ir = s.ir := rfl
@[simp] theorem State.updDie_ea (s : State) (d : Nat) (f : RangeUnit → RangeUnit) : (s.updDie d f).ea = s.ea := rfl
@[simp] theorem State.updDie_cycle (s : State) (d : Nat) (f : RangeUnit → RangeUnit) : (s.updDie d f).cycle = s.cycle := rfl
@[simp] theorem State.updDie_free (s : State) (d : Nat) (f : RangeUnit → RangeUnit) : (s.updDie d f).free = s.free := rfl
@[simp] theorem State.updDie_cores (s : State) (d : Nat) (f : RangeUnit → RangeUnit) : (s.updDie d f).cores = s.cores := rfl
@[simp] theorem State.updDie_octets (s : State) (d : Nat) (f : RangeUnit → RangeUnit) : (s.updDie d f).octets = s.octets := rfl
@[simp] theorem State.updDie_clusters (s : State) (d : Nat) (f : RangeUnit → RangeUnit) : (s.updDie d f).clusters = s.clusters := rfl
@[simp] theorem State.updDie_stations (s : State) (d : Nat) (f : RangeUnit → RangeUnit) : (s.updDie d f).stations = s.stations := rfl
@[simp] theorem State.updDie_sectors (s : State) (d : Nat) (f : RangeUnit → RangeUnit) : (s.updDie d f).sectors = s.sectors := rfl
@[simp] theorem State.updDie_mem (s : State) (d : Nat) (f : RangeUnit → RangeUnit) : (s.updDie d f).mem = s.mem := rfl
@[simp] theorem State.updDie_marks (s : State) (d : Nat) (f : RangeUnit → RangeUnit) : (s.updDie d f).marks = s.marks := rfl
@[simp] theorem State.updDie_syncq (s : State) (d : Nat) (f : RangeUnit → RangeUnit) : (s.updDie d f).syncq = s.syncq := rfl
@[simp] theorem State.updDie_takeq (s : State) (d : Nat) (f : RangeUnit → RangeUnit) : (s.updDie d f).takeq = s.takeq := rfl
@[simp] theorem State.updDie_router (s : State) (d : Nat) (f : RangeUnit → RangeUnit) : (s.updDie d f).router = s.router := rfl
@[simp] theorem State.updDie_conns (s : State) (d : Nat) (f : RangeUnit → RangeUnit) : (s.updDie d f).conns = s.conns := rfl
@[simp] theorem State.updDie_ctxs (s : State) (d : Nat) (f : RangeUnit → RangeUnit) : (s.updDie d f).ctxs = s.ctxs := rfl
@[simp] theorem State.updDie_groups (s : State) (d : Nat) (f : RangeUnit → RangeUnit) : (s.updDie d f).groups = s.groups := rfl
@[simp] theorem State.updDie_skeins (s : State) (d : Nat) (f : RangeUnit → RangeUnit) : (s.updDie d f).skeins = s.skeins := rfl
@[simp] theorem State.updDie_castSeq (s : State) (d : Nat) (f : RangeUnit → RangeUnit) : (s.updDie d f).castSeq = s.castSeq := rfl
@[simp] theorem State.updDie_memSeq (s : State) (d : Nat) (f : RangeUnit → RangeUnit) : (s.updDie d f).memSeq = s.memSeq := rfl
@[simp] theorem State.updDie_mgmtSeq (s : State) (d : Nat) (f : RangeUnit → RangeUnit) : (s.updDie d f).mgmtSeq = s.mgmtSeq := rfl
@[simp] theorem State.updDie_portSeq (s : State) (d : Nat) (f : RangeUnit → RangeUnit) : (s.updDie d f).portSeq = s.portSeq := rfl
@[simp] theorem State.updDie_ports (s : State) (d : Nat) (f : RangeUnit → RangeUnit) : (s.updDie d f).ports = s.ports := rfl
@[simp] theorem State.updDie_frameQs (s : State) (d : Nat) (f : RangeUnit → RangeUnit) : (s.updDie d f).frameQs = s.frameQs := rfl
@[simp] theorem State.updDie_frameBank (s : State) (d : Nat) (f : RangeUnit → RangeUnit) : (s.updDie d f).frameBank = s.frameBank := rfl
@[simp] theorem State.updDie_badFrames (s : State) (d : Nat) (f : RangeUnit → RangeUnit) : (s.updDie d f).badFrames = s.badFrames := rfl
@[simp] theorem State.updDie_ruleDrops (s : State) (d : Nat) (f : RangeUnit → RangeUnit) : (s.updDie d f).ruleDrops = s.ruleDrops := rfl
@[simp] theorem State.updDie_time (s : State) (d : Nat) (f : RangeUnit → RangeUnit) : (s.updDie d f).time = s.time := rfl
@[simp] theorem State.updDie_slewRate (s : State) (d : Nat) (f : RangeUnit → RangeUnit) : (s.updDie d f).slewRate = s.slewRate := rfl
@[simp] theorem State.updDie_life (s : State) (d : Nat) (f : RangeUnit → RangeUnit) : (s.updDie d f).life = s.life := rfl

/-! ### State.updStation -/

@[simp] theorem State.updStation_turns (s : State) (n : Nat) (f : Station → Station) : (s.updStation n f).turns = s.turns := rfl
@[simp] theorem State.updStation_cur (s : State) (n : Nat) (f : Station → Station) : (s.updStation n f).cur = s.cur := rfl
@[simp] theorem State.updStation_thr (s : State) (n : Nat) (f : Station → Station) : (s.updStation n f).thr = s.thr := rfl
@[simp] theorem State.updStation_ir (s : State) (n : Nat) (f : Station → Station) : (s.updStation n f).ir = s.ir := rfl
@[simp] theorem State.updStation_ea (s : State) (n : Nat) (f : Station → Station) : (s.updStation n f).ea = s.ea := rfl
@[simp] theorem State.updStation_cycle (s : State) (n : Nat) (f : Station → Station) : (s.updStation n f).cycle = s.cycle := rfl
@[simp] theorem State.updStation_free (s : State) (n : Nat) (f : Station → Station) : (s.updStation n f).free = s.free := rfl
@[simp] theorem State.updStation_cores (s : State) (n : Nat) (f : Station → Station) : (s.updStation n f).cores = s.cores := rfl
@[simp] theorem State.updStation_octets (s : State) (n : Nat) (f : Station → Station) : (s.updStation n f).octets = s.octets := rfl
@[simp] theorem State.updStation_clusters (s : State) (n : Nat) (f : Station → Station) : (s.updStation n f).clusters = s.clusters := rfl
@[simp] theorem State.updStation_dies (s : State) (n : Nat) (f : Station → Station) : (s.updStation n f).dies = s.dies := rfl
@[simp] theorem State.updStation_sectors (s : State) (n : Nat) (f : Station → Station) : (s.updStation n f).sectors = s.sectors := rfl
@[simp] theorem State.updStation_mem (s : State) (n : Nat) (f : Station → Station) : (s.updStation n f).mem = s.mem := rfl
@[simp] theorem State.updStation_marks (s : State) (n : Nat) (f : Station → Station) : (s.updStation n f).marks = s.marks := rfl
@[simp] theorem State.updStation_syncq (s : State) (n : Nat) (f : Station → Station) : (s.updStation n f).syncq = s.syncq := rfl
@[simp] theorem State.updStation_takeq (s : State) (n : Nat) (f : Station → Station) : (s.updStation n f).takeq = s.takeq := rfl
@[simp] theorem State.updStation_router (s : State) (n : Nat) (f : Station → Station) : (s.updStation n f).router = s.router := rfl
@[simp] theorem State.updStation_conns (s : State) (n : Nat) (f : Station → Station) : (s.updStation n f).conns = s.conns := rfl
@[simp] theorem State.updStation_ctxs (s : State) (n : Nat) (f : Station → Station) : (s.updStation n f).ctxs = s.ctxs := rfl
@[simp] theorem State.updStation_groups (s : State) (n : Nat) (f : Station → Station) : (s.updStation n f).groups = s.groups := rfl
@[simp] theorem State.updStation_skeins (s : State) (n : Nat) (f : Station → Station) : (s.updStation n f).skeins = s.skeins := rfl
@[simp] theorem State.updStation_castSeq (s : State) (n : Nat) (f : Station → Station) : (s.updStation n f).castSeq = s.castSeq := rfl
@[simp] theorem State.updStation_memSeq (s : State) (n : Nat) (f : Station → Station) : (s.updStation n f).memSeq = s.memSeq := rfl
@[simp] theorem State.updStation_mgmtSeq (s : State) (n : Nat) (f : Station → Station) : (s.updStation n f).mgmtSeq = s.mgmtSeq := rfl
@[simp] theorem State.updStation_portSeq (s : State) (n : Nat) (f : Station → Station) : (s.updStation n f).portSeq = s.portSeq := rfl
@[simp] theorem State.updStation_ports (s : State) (n : Nat) (f : Station → Station) : (s.updStation n f).ports = s.ports := rfl
@[simp] theorem State.updStation_frameQs (s : State) (n : Nat) (f : Station → Station) : (s.updStation n f).frameQs = s.frameQs := rfl
@[simp] theorem State.updStation_frameBank (s : State) (n : Nat) (f : Station → Station) : (s.updStation n f).frameBank = s.frameBank := rfl
@[simp] theorem State.updStation_badFrames (s : State) (n : Nat) (f : Station → Station) : (s.updStation n f).badFrames = s.badFrames := rfl
@[simp] theorem State.updStation_ruleDrops (s : State) (n : Nat) (f : Station → Station) : (s.updStation n f).ruleDrops = s.ruleDrops := rfl
@[simp] theorem State.updStation_time (s : State) (n : Nat) (f : Station → Station) : (s.updStation n f).time = s.time := rfl
@[simp] theorem State.updStation_slewRate (s : State) (n : Nat) (f : Station → Station) : (s.updStation n f).slewRate = s.slewRate := rfl
@[simp] theorem State.updStation_life (s : State) (n : Nat) (f : Station → Station) : (s.updStation n f).life = s.life := rfl

/-! ### State.updCtx -/

@[simp] theorem State.updCtx_turns (s : State) (c : Nat) (f : Context → Context) : (s.updCtx c f).turns = s.turns := rfl
@[simp] theorem State.updCtx_cur (s : State) (c : Nat) (f : Context → Context) : (s.updCtx c f).cur = s.cur := rfl
@[simp] theorem State.updCtx_thr (s : State) (c : Nat) (f : Context → Context) : (s.updCtx c f).thr = s.thr := rfl
@[simp] theorem State.updCtx_ir (s : State) (c : Nat) (f : Context → Context) : (s.updCtx c f).ir = s.ir := rfl
@[simp] theorem State.updCtx_ea (s : State) (c : Nat) (f : Context → Context) : (s.updCtx c f).ea = s.ea := rfl
@[simp] theorem State.updCtx_cycle (s : State) (c : Nat) (f : Context → Context) : (s.updCtx c f).cycle = s.cycle := rfl
@[simp] theorem State.updCtx_free (s : State) (c : Nat) (f : Context → Context) : (s.updCtx c f).free = s.free := rfl
@[simp] theorem State.updCtx_cores (s : State) (c : Nat) (f : Context → Context) : (s.updCtx c f).cores = s.cores := rfl
@[simp] theorem State.updCtx_octets (s : State) (c : Nat) (f : Context → Context) : (s.updCtx c f).octets = s.octets := rfl
@[simp] theorem State.updCtx_clusters (s : State) (c : Nat) (f : Context → Context) : (s.updCtx c f).clusters = s.clusters := rfl
@[simp] theorem State.updCtx_dies (s : State) (c : Nat) (f : Context → Context) : (s.updCtx c f).dies = s.dies := rfl
@[simp] theorem State.updCtx_stations (s : State) (c : Nat) (f : Context → Context) : (s.updCtx c f).stations = s.stations := rfl
@[simp] theorem State.updCtx_sectors (s : State) (c : Nat) (f : Context → Context) : (s.updCtx c f).sectors = s.sectors := rfl
@[simp] theorem State.updCtx_mem (s : State) (c : Nat) (f : Context → Context) : (s.updCtx c f).mem = s.mem := rfl
@[simp] theorem State.updCtx_marks (s : State) (c : Nat) (f : Context → Context) : (s.updCtx c f).marks = s.marks := rfl
@[simp] theorem State.updCtx_syncq (s : State) (c : Nat) (f : Context → Context) : (s.updCtx c f).syncq = s.syncq := rfl
@[simp] theorem State.updCtx_takeq (s : State) (c : Nat) (f : Context → Context) : (s.updCtx c f).takeq = s.takeq := rfl
@[simp] theorem State.updCtx_router (s : State) (c : Nat) (f : Context → Context) : (s.updCtx c f).router = s.router := rfl
@[simp] theorem State.updCtx_conns (s : State) (c : Nat) (f : Context → Context) : (s.updCtx c f).conns = s.conns := rfl
@[simp] theorem State.updCtx_groups (s : State) (c : Nat) (f : Context → Context) : (s.updCtx c f).groups = s.groups := rfl
@[simp] theorem State.updCtx_skeins (s : State) (c : Nat) (f : Context → Context) : (s.updCtx c f).skeins = s.skeins := rfl
@[simp] theorem State.updCtx_castSeq (s : State) (c : Nat) (f : Context → Context) : (s.updCtx c f).castSeq = s.castSeq := rfl
@[simp] theorem State.updCtx_memSeq (s : State) (c : Nat) (f : Context → Context) : (s.updCtx c f).memSeq = s.memSeq := rfl
@[simp] theorem State.updCtx_mgmtSeq (s : State) (c : Nat) (f : Context → Context) : (s.updCtx c f).mgmtSeq = s.mgmtSeq := rfl
@[simp] theorem State.updCtx_portSeq (s : State) (c : Nat) (f : Context → Context) : (s.updCtx c f).portSeq = s.portSeq := rfl
@[simp] theorem State.updCtx_ports (s : State) (c : Nat) (f : Context → Context) : (s.updCtx c f).ports = s.ports := rfl
@[simp] theorem State.updCtx_frameQs (s : State) (c : Nat) (f : Context → Context) : (s.updCtx c f).frameQs = s.frameQs := rfl
@[simp] theorem State.updCtx_frameBank (s : State) (c : Nat) (f : Context → Context) : (s.updCtx c f).frameBank = s.frameBank := rfl
@[simp] theorem State.updCtx_badFrames (s : State) (c : Nat) (f : Context → Context) : (s.updCtx c f).badFrames = s.badFrames := rfl
@[simp] theorem State.updCtx_ruleDrops (s : State) (c : Nat) (f : Context → Context) : (s.updCtx c f).ruleDrops = s.ruleDrops := rfl
@[simp] theorem State.updCtx_time (s : State) (c : Nat) (f : Context → Context) : (s.updCtx c f).time = s.time := rfl
@[simp] theorem State.updCtx_slewRate (s : State) (c : Nat) (f : Context → Context) : (s.updCtx c f).slewRate = s.slewRate := rfl
@[simp] theorem State.updCtx_life (s : State) (c : Nat) (f : Context → Context) : (s.updCtx c f).life = s.life := rfl

/-! ### State.updPort -/

@[simp] theorem State.updPort_turns (s : State) (p : PortName) (f : Port → Port) : (s.updPort p f).turns = s.turns := rfl
@[simp] theorem State.updPort_cur (s : State) (p : PortName) (f : Port → Port) : (s.updPort p f).cur = s.cur := rfl
@[simp] theorem State.updPort_thr (s : State) (p : PortName) (f : Port → Port) : (s.updPort p f).thr = s.thr := rfl
@[simp] theorem State.updPort_ir (s : State) (p : PortName) (f : Port → Port) : (s.updPort p f).ir = s.ir := rfl
@[simp] theorem State.updPort_ea (s : State) (p : PortName) (f : Port → Port) : (s.updPort p f).ea = s.ea := rfl
@[simp] theorem State.updPort_cycle (s : State) (p : PortName) (f : Port → Port) : (s.updPort p f).cycle = s.cycle := rfl
@[simp] theorem State.updPort_free (s : State) (p : PortName) (f : Port → Port) : (s.updPort p f).free = s.free := rfl
@[simp] theorem State.updPort_cores (s : State) (p : PortName) (f : Port → Port) : (s.updPort p f).cores = s.cores := rfl
@[simp] theorem State.updPort_octets (s : State) (p : PortName) (f : Port → Port) : (s.updPort p f).octets = s.octets := rfl
@[simp] theorem State.updPort_clusters (s : State) (p : PortName) (f : Port → Port) : (s.updPort p f).clusters = s.clusters := rfl
@[simp] theorem State.updPort_dies (s : State) (p : PortName) (f : Port → Port) : (s.updPort p f).dies = s.dies := rfl
@[simp] theorem State.updPort_stations (s : State) (p : PortName) (f : Port → Port) : (s.updPort p f).stations = s.stations := rfl
@[simp] theorem State.updPort_sectors (s : State) (p : PortName) (f : Port → Port) : (s.updPort p f).sectors = s.sectors := rfl
@[simp] theorem State.updPort_mem (s : State) (p : PortName) (f : Port → Port) : (s.updPort p f).mem = s.mem := rfl
@[simp] theorem State.updPort_marks (s : State) (p : PortName) (f : Port → Port) : (s.updPort p f).marks = s.marks := rfl
@[simp] theorem State.updPort_syncq (s : State) (p : PortName) (f : Port → Port) : (s.updPort p f).syncq = s.syncq := rfl
@[simp] theorem State.updPort_takeq (s : State) (p : PortName) (f : Port → Port) : (s.updPort p f).takeq = s.takeq := rfl
@[simp] theorem State.updPort_router (s : State) (p : PortName) (f : Port → Port) : (s.updPort p f).router = s.router := rfl
@[simp] theorem State.updPort_conns (s : State) (p : PortName) (f : Port → Port) : (s.updPort p f).conns = s.conns := rfl
@[simp] theorem State.updPort_ctxs (s : State) (p : PortName) (f : Port → Port) : (s.updPort p f).ctxs = s.ctxs := rfl
@[simp] theorem State.updPort_groups (s : State) (p : PortName) (f : Port → Port) : (s.updPort p f).groups = s.groups := rfl
@[simp] theorem State.updPort_skeins (s : State) (p : PortName) (f : Port → Port) : (s.updPort p f).skeins = s.skeins := rfl
@[simp] theorem State.updPort_castSeq (s : State) (p : PortName) (f : Port → Port) : (s.updPort p f).castSeq = s.castSeq := rfl
@[simp] theorem State.updPort_memSeq (s : State) (p : PortName) (f : Port → Port) : (s.updPort p f).memSeq = s.memSeq := rfl
@[simp] theorem State.updPort_mgmtSeq (s : State) (p : PortName) (f : Port → Port) : (s.updPort p f).mgmtSeq = s.mgmtSeq := rfl
@[simp] theorem State.updPort_portSeq (s : State) (p : PortName) (f : Port → Port) : (s.updPort p f).portSeq = s.portSeq := rfl
@[simp] theorem State.updPort_frameQs (s : State) (p : PortName) (f : Port → Port) : (s.updPort p f).frameQs = s.frameQs := rfl
@[simp] theorem State.updPort_frameBank (s : State) (p : PortName) (f : Port → Port) : (s.updPort p f).frameBank = s.frameBank := rfl
@[simp] theorem State.updPort_badFrames (s : State) (p : PortName) (f : Port → Port) : (s.updPort p f).badFrames = s.badFrames := rfl
@[simp] theorem State.updPort_ruleDrops (s : State) (p : PortName) (f : Port → Port) : (s.updPort p f).ruleDrops = s.ruleDrops := rfl
@[simp] theorem State.updPort_time (s : State) (p : PortName) (f : Port → Port) : (s.updPort p f).time = s.time := rfl
@[simp] theorem State.updPort_slewRate (s : State) (p : PortName) (f : Port → Port) : (s.updPort p f).slewRate = s.slewRate := rfl
@[simp] theorem State.updPort_life (s : State) (p : PortName) (f : Port → Port) : (s.updPort p f).life = s.life := rfl

/-! ### State.updGroup -/

@[simp] theorem State.updGroup_turns (s : State) (g : GroupKey) (f : Group → Group) : (s.updGroup g f).turns = s.turns := rfl
@[simp] theorem State.updGroup_cur (s : State) (g : GroupKey) (f : Group → Group) : (s.updGroup g f).cur = s.cur := rfl
@[simp] theorem State.updGroup_thr (s : State) (g : GroupKey) (f : Group → Group) : (s.updGroup g f).thr = s.thr := rfl
@[simp] theorem State.updGroup_ir (s : State) (g : GroupKey) (f : Group → Group) : (s.updGroup g f).ir = s.ir := rfl
@[simp] theorem State.updGroup_ea (s : State) (g : GroupKey) (f : Group → Group) : (s.updGroup g f).ea = s.ea := rfl
@[simp] theorem State.updGroup_cycle (s : State) (g : GroupKey) (f : Group → Group) : (s.updGroup g f).cycle = s.cycle := rfl
@[simp] theorem State.updGroup_free (s : State) (g : GroupKey) (f : Group → Group) : (s.updGroup g f).free = s.free := rfl
@[simp] theorem State.updGroup_cores (s : State) (g : GroupKey) (f : Group → Group) : (s.updGroup g f).cores = s.cores := rfl
@[simp] theorem State.updGroup_octets (s : State) (g : GroupKey) (f : Group → Group) : (s.updGroup g f).octets = s.octets := rfl
@[simp] theorem State.updGroup_clusters (s : State) (g : GroupKey) (f : Group → Group) : (s.updGroup g f).clusters = s.clusters := rfl
@[simp] theorem State.updGroup_dies (s : State) (g : GroupKey) (f : Group → Group) : (s.updGroup g f).dies = s.dies := rfl
@[simp] theorem State.updGroup_stations (s : State) (g : GroupKey) (f : Group → Group) : (s.updGroup g f).stations = s.stations := rfl
@[simp] theorem State.updGroup_sectors (s : State) (g : GroupKey) (f : Group → Group) : (s.updGroup g f).sectors = s.sectors := rfl
@[simp] theorem State.updGroup_mem (s : State) (g : GroupKey) (f : Group → Group) : (s.updGroup g f).mem = s.mem := rfl
@[simp] theorem State.updGroup_marks (s : State) (g : GroupKey) (f : Group → Group) : (s.updGroup g f).marks = s.marks := rfl
@[simp] theorem State.updGroup_syncq (s : State) (g : GroupKey) (f : Group → Group) : (s.updGroup g f).syncq = s.syncq := rfl
@[simp] theorem State.updGroup_takeq (s : State) (g : GroupKey) (f : Group → Group) : (s.updGroup g f).takeq = s.takeq := rfl
@[simp] theorem State.updGroup_router (s : State) (g : GroupKey) (f : Group → Group) : (s.updGroup g f).router = s.router := rfl
@[simp] theorem State.updGroup_conns (s : State) (g : GroupKey) (f : Group → Group) : (s.updGroup g f).conns = s.conns := rfl
@[simp] theorem State.updGroup_ctxs (s : State) (g : GroupKey) (f : Group → Group) : (s.updGroup g f).ctxs = s.ctxs := rfl
@[simp] theorem State.updGroup_skeins (s : State) (g : GroupKey) (f : Group → Group) : (s.updGroup g f).skeins = s.skeins := rfl
@[simp] theorem State.updGroup_castSeq (s : State) (g : GroupKey) (f : Group → Group) : (s.updGroup g f).castSeq = s.castSeq := rfl
@[simp] theorem State.updGroup_memSeq (s : State) (g : GroupKey) (f : Group → Group) : (s.updGroup g f).memSeq = s.memSeq := rfl
@[simp] theorem State.updGroup_mgmtSeq (s : State) (g : GroupKey) (f : Group → Group) : (s.updGroup g f).mgmtSeq = s.mgmtSeq := rfl
@[simp] theorem State.updGroup_portSeq (s : State) (g : GroupKey) (f : Group → Group) : (s.updGroup g f).portSeq = s.portSeq := rfl
@[simp] theorem State.updGroup_ports (s : State) (g : GroupKey) (f : Group → Group) : (s.updGroup g f).ports = s.ports := rfl
@[simp] theorem State.updGroup_frameQs (s : State) (g : GroupKey) (f : Group → Group) : (s.updGroup g f).frameQs = s.frameQs := rfl
@[simp] theorem State.updGroup_frameBank (s : State) (g : GroupKey) (f : Group → Group) : (s.updGroup g f).frameBank = s.frameBank := rfl
@[simp] theorem State.updGroup_badFrames (s : State) (g : GroupKey) (f : Group → Group) : (s.updGroup g f).badFrames = s.badFrames := rfl
@[simp] theorem State.updGroup_ruleDrops (s : State) (g : GroupKey) (f : Group → Group) : (s.updGroup g f).ruleDrops = s.ruleDrops := rfl
@[simp] theorem State.updGroup_time (s : State) (g : GroupKey) (f : Group → Group) : (s.updGroup g f).time = s.time := rfl
@[simp] theorem State.updGroup_slewRate (s : State) (g : GroupKey) (f : Group → Group) : (s.updGroup g f).slewRate = s.slewRate := rfl
@[simp] theorem State.updGroup_life (s : State) (g : GroupKey) (f : Group → Group) : (s.updGroup g f).life = s.life := rfl

/-! ### State.putByte -/

@[simp] theorem State.putByte_turns (s : State) (a : Nat) (b : Byte) : (s.putByte a b).turns = s.turns := rfl
@[simp] theorem State.putByte_cur (s : State) (a : Nat) (b : Byte) : (s.putByte a b).cur = s.cur := rfl
@[simp] theorem State.putByte_thr (s : State) (a : Nat) (b : Byte) : (s.putByte a b).thr = s.thr := rfl
@[simp] theorem State.putByte_ir (s : State) (a : Nat) (b : Byte) : (s.putByte a b).ir = s.ir := rfl
@[simp] theorem State.putByte_ea (s : State) (a : Nat) (b : Byte) : (s.putByte a b).ea = s.ea := rfl
@[simp] theorem State.putByte_cycle (s : State) (a : Nat) (b : Byte) : (s.putByte a b).cycle = s.cycle := rfl
@[simp] theorem State.putByte_free (s : State) (a : Nat) (b : Byte) : (s.putByte a b).free = s.free := rfl
@[simp] theorem State.putByte_cores (s : State) (a : Nat) (b : Byte) : (s.putByte a b).cores = s.cores := rfl
@[simp] theorem State.putByte_octets (s : State) (a : Nat) (b : Byte) : (s.putByte a b).octets = s.octets := rfl
@[simp] theorem State.putByte_clusters (s : State) (a : Nat) (b : Byte) : (s.putByte a b).clusters = s.clusters := rfl
@[simp] theorem State.putByte_dies (s : State) (a : Nat) (b : Byte) : (s.putByte a b).dies = s.dies := rfl
@[simp] theorem State.putByte_stations (s : State) (a : Nat) (b : Byte) : (s.putByte a b).stations = s.stations := rfl
@[simp] theorem State.putByte_sectors (s : State) (a : Nat) (b : Byte) : (s.putByte a b).sectors = s.sectors := rfl
@[simp] theorem State.putByte_marks (s : State) (a : Nat) (b : Byte) : (s.putByte a b).marks = s.marks := rfl
@[simp] theorem State.putByte_syncq (s : State) (a : Nat) (b : Byte) : (s.putByte a b).syncq = s.syncq := rfl
@[simp] theorem State.putByte_takeq (s : State) (a : Nat) (b : Byte) : (s.putByte a b).takeq = s.takeq := rfl
@[simp] theorem State.putByte_router (s : State) (a : Nat) (b : Byte) : (s.putByte a b).router = s.router := rfl
@[simp] theorem State.putByte_conns (s : State) (a : Nat) (b : Byte) : (s.putByte a b).conns = s.conns := rfl
@[simp] theorem State.putByte_ctxs (s : State) (a : Nat) (b : Byte) : (s.putByte a b).ctxs = s.ctxs := rfl
@[simp] theorem State.putByte_groups (s : State) (a : Nat) (b : Byte) : (s.putByte a b).groups = s.groups := rfl
@[simp] theorem State.putByte_skeins (s : State) (a : Nat) (b : Byte) : (s.putByte a b).skeins = s.skeins := rfl
@[simp] theorem State.putByte_castSeq (s : State) (a : Nat) (b : Byte) : (s.putByte a b).castSeq = s.castSeq := rfl
@[simp] theorem State.putByte_memSeq (s : State) (a : Nat) (b : Byte) : (s.putByte a b).memSeq = s.memSeq := rfl
@[simp] theorem State.putByte_mgmtSeq (s : State) (a : Nat) (b : Byte) : (s.putByte a b).mgmtSeq = s.mgmtSeq := rfl
@[simp] theorem State.putByte_portSeq (s : State) (a : Nat) (b : Byte) : (s.putByte a b).portSeq = s.portSeq := rfl
@[simp] theorem State.putByte_ports (s : State) (a : Nat) (b : Byte) : (s.putByte a b).ports = s.ports := rfl
@[simp] theorem State.putByte_frameQs (s : State) (a : Nat) (b : Byte) : (s.putByte a b).frameQs = s.frameQs := rfl
@[simp] theorem State.putByte_frameBank (s : State) (a : Nat) (b : Byte) : (s.putByte a b).frameBank = s.frameBank := rfl
@[simp] theorem State.putByte_badFrames (s : State) (a : Nat) (b : Byte) : (s.putByte a b).badFrames = s.badFrames := rfl
@[simp] theorem State.putByte_ruleDrops (s : State) (a : Nat) (b : Byte) : (s.putByte a b).ruleDrops = s.ruleDrops := rfl
@[simp] theorem State.putByte_time (s : State) (a : Nat) (b : Byte) : (s.putByte a b).time = s.time := rfl
@[simp] theorem State.putByte_slewRate (s : State) (a : Nat) (b : Byte) : (s.putByte a b).slewRate = s.slewRate := rfl
@[simp] theorem State.putByte_life (s : State) (a : Nat) (b : Byte) : (s.putByte a b).life = s.life := rfl

/-! ### State.zeroBytes -/

@[simp] theorem State.zeroBytes_turns (s : State) (a n : Nat) : (s.zeroBytes a n).turns = s.turns := rfl
@[simp] theorem State.zeroBytes_cur (s : State) (a n : Nat) : (s.zeroBytes a n).cur = s.cur := rfl
@[simp] theorem State.zeroBytes_thr (s : State) (a n : Nat) : (s.zeroBytes a n).thr = s.thr := rfl
@[simp] theorem State.zeroBytes_ir (s : State) (a n : Nat) : (s.zeroBytes a n).ir = s.ir := rfl
@[simp] theorem State.zeroBytes_ea (s : State) (a n : Nat) : (s.zeroBytes a n).ea = s.ea := rfl
@[simp] theorem State.zeroBytes_cycle (s : State) (a n : Nat) : (s.zeroBytes a n).cycle = s.cycle := rfl
@[simp] theorem State.zeroBytes_free (s : State) (a n : Nat) : (s.zeroBytes a n).free = s.free := rfl
@[simp] theorem State.zeroBytes_cores (s : State) (a n : Nat) : (s.zeroBytes a n).cores = s.cores := rfl
@[simp] theorem State.zeroBytes_octets (s : State) (a n : Nat) : (s.zeroBytes a n).octets = s.octets := rfl
@[simp] theorem State.zeroBytes_clusters (s : State) (a n : Nat) : (s.zeroBytes a n).clusters = s.clusters := rfl
@[simp] theorem State.zeroBytes_dies (s : State) (a n : Nat) : (s.zeroBytes a n).dies = s.dies := rfl
@[simp] theorem State.zeroBytes_stations (s : State) (a n : Nat) : (s.zeroBytes a n).stations = s.stations := rfl
@[simp] theorem State.zeroBytes_sectors (s : State) (a n : Nat) : (s.zeroBytes a n).sectors = s.sectors := rfl
@[simp] theorem State.zeroBytes_marks (s : State) (a n : Nat) : (s.zeroBytes a n).marks = s.marks := rfl
@[simp] theorem State.zeroBytes_syncq (s : State) (a n : Nat) : (s.zeroBytes a n).syncq = s.syncq := rfl
@[simp] theorem State.zeroBytes_takeq (s : State) (a n : Nat) : (s.zeroBytes a n).takeq = s.takeq := rfl
@[simp] theorem State.zeroBytes_router (s : State) (a n : Nat) : (s.zeroBytes a n).router = s.router := rfl
@[simp] theorem State.zeroBytes_conns (s : State) (a n : Nat) : (s.zeroBytes a n).conns = s.conns := rfl
@[simp] theorem State.zeroBytes_ctxs (s : State) (a n : Nat) : (s.zeroBytes a n).ctxs = s.ctxs := rfl
@[simp] theorem State.zeroBytes_groups (s : State) (a n : Nat) : (s.zeroBytes a n).groups = s.groups := rfl
@[simp] theorem State.zeroBytes_skeins (s : State) (a n : Nat) : (s.zeroBytes a n).skeins = s.skeins := rfl
@[simp] theorem State.zeroBytes_castSeq (s : State) (a n : Nat) : (s.zeroBytes a n).castSeq = s.castSeq := rfl
@[simp] theorem State.zeroBytes_memSeq (s : State) (a n : Nat) : (s.zeroBytes a n).memSeq = s.memSeq := rfl
@[simp] theorem State.zeroBytes_mgmtSeq (s : State) (a n : Nat) : (s.zeroBytes a n).mgmtSeq = s.mgmtSeq := rfl
@[simp] theorem State.zeroBytes_portSeq (s : State) (a n : Nat) : (s.zeroBytes a n).portSeq = s.portSeq := rfl
@[simp] theorem State.zeroBytes_ports (s : State) (a n : Nat) : (s.zeroBytes a n).ports = s.ports := rfl
@[simp] theorem State.zeroBytes_frameQs (s : State) (a n : Nat) : (s.zeroBytes a n).frameQs = s.frameQs := rfl
@[simp] theorem State.zeroBytes_frameBank (s : State) (a n : Nat) : (s.zeroBytes a n).frameBank = s.frameBank := rfl
@[simp] theorem State.zeroBytes_badFrames (s : State) (a n : Nat) : (s.zeroBytes a n).badFrames = s.badFrames := rfl
@[simp] theorem State.zeroBytes_ruleDrops (s : State) (a n : Nat) : (s.zeroBytes a n).ruleDrops = s.ruleDrops := rfl
@[simp] theorem State.zeroBytes_time (s : State) (a n : Nat) : (s.zeroBytes a n).time = s.time := rfl
@[simp] theorem State.zeroBytes_slewRate (s : State) (a n : Nat) : (s.zeroBytes a n).slewRate = s.slewRate := rfl
@[simp] theorem State.zeroBytes_life (s : State) (a n : Nat) : (s.zeroBytes a n).life = s.life := rfl

/-! ### State.putMark -/

@[simp] theorem State.putMark_turns (s : State) (a : Nat) (m : Mark) : (s.putMark a m).turns = s.turns := rfl
@[simp] theorem State.putMark_cur (s : State) (a : Nat) (m : Mark) : (s.putMark a m).cur = s.cur := rfl
@[simp] theorem State.putMark_thr (s : State) (a : Nat) (m : Mark) : (s.putMark a m).thr = s.thr := rfl
@[simp] theorem State.putMark_ir (s : State) (a : Nat) (m : Mark) : (s.putMark a m).ir = s.ir := rfl
@[simp] theorem State.putMark_ea (s : State) (a : Nat) (m : Mark) : (s.putMark a m).ea = s.ea := rfl
@[simp] theorem State.putMark_cycle (s : State) (a : Nat) (m : Mark) : (s.putMark a m).cycle = s.cycle := rfl
@[simp] theorem State.putMark_free (s : State) (a : Nat) (m : Mark) : (s.putMark a m).free = s.free := rfl
@[simp] theorem State.putMark_cores (s : State) (a : Nat) (m : Mark) : (s.putMark a m).cores = s.cores := rfl
@[simp] theorem State.putMark_octets (s : State) (a : Nat) (m : Mark) : (s.putMark a m).octets = s.octets := rfl
@[simp] theorem State.putMark_clusters (s : State) (a : Nat) (m : Mark) : (s.putMark a m).clusters = s.clusters := rfl
@[simp] theorem State.putMark_dies (s : State) (a : Nat) (m : Mark) : (s.putMark a m).dies = s.dies := rfl
@[simp] theorem State.putMark_stations (s : State) (a : Nat) (m : Mark) : (s.putMark a m).stations = s.stations := rfl
@[simp] theorem State.putMark_sectors (s : State) (a : Nat) (m : Mark) : (s.putMark a m).sectors = s.sectors := rfl
@[simp] theorem State.putMark_mem (s : State) (a : Nat) (m : Mark) : (s.putMark a m).mem = s.mem := rfl
@[simp] theorem State.putMark_syncq (s : State) (a : Nat) (m : Mark) : (s.putMark a m).syncq = s.syncq := rfl
@[simp] theorem State.putMark_takeq (s : State) (a : Nat) (m : Mark) : (s.putMark a m).takeq = s.takeq := rfl
@[simp] theorem State.putMark_router (s : State) (a : Nat) (m : Mark) : (s.putMark a m).router = s.router := rfl
@[simp] theorem State.putMark_conns (s : State) (a : Nat) (m : Mark) : (s.putMark a m).conns = s.conns := rfl
@[simp] theorem State.putMark_ctxs (s : State) (a : Nat) (m : Mark) : (s.putMark a m).ctxs = s.ctxs := rfl
@[simp] theorem State.putMark_groups (s : State) (a : Nat) (m : Mark) : (s.putMark a m).groups = s.groups := rfl
@[simp] theorem State.putMark_skeins (s : State) (a : Nat) (m : Mark) : (s.putMark a m).skeins = s.skeins := rfl
@[simp] theorem State.putMark_castSeq (s : State) (a : Nat) (m : Mark) : (s.putMark a m).castSeq = s.castSeq := rfl
@[simp] theorem State.putMark_memSeq (s : State) (a : Nat) (m : Mark) : (s.putMark a m).memSeq = s.memSeq := rfl
@[simp] theorem State.putMark_mgmtSeq (s : State) (a : Nat) (m : Mark) : (s.putMark a m).mgmtSeq = s.mgmtSeq := rfl
@[simp] theorem State.putMark_portSeq (s : State) (a : Nat) (m : Mark) : (s.putMark a m).portSeq = s.portSeq := rfl
@[simp] theorem State.putMark_ports (s : State) (a : Nat) (m : Mark) : (s.putMark a m).ports = s.ports := rfl
@[simp] theorem State.putMark_frameQs (s : State) (a : Nat) (m : Mark) : (s.putMark a m).frameQs = s.frameQs := rfl
@[simp] theorem State.putMark_frameBank (s : State) (a : Nat) (m : Mark) : (s.putMark a m).frameBank = s.frameBank := rfl
@[simp] theorem State.putMark_badFrames (s : State) (a : Nat) (m : Mark) : (s.putMark a m).badFrames = s.badFrames := rfl
@[simp] theorem State.putMark_ruleDrops (s : State) (a : Nat) (m : Mark) : (s.putMark a m).ruleDrops = s.ruleDrops := rfl
@[simp] theorem State.putMark_time (s : State) (a : Nat) (m : Mark) : (s.putMark a m).time = s.time := rfl
@[simp] theorem State.putMark_slewRate (s : State) (a : Nat) (m : Mark) : (s.putMark a m).slewRate = s.slewRate := rfl
@[simp] theorem State.putMark_life (s : State) (a : Nat) (m : Mark) : (s.putMark a m).life = s.life := rfl

/-! ### State.clearMarks -/

@[simp] theorem State.clearMarks_turns (s : State) (a n : Nat) : (s.clearMarks a n).turns = s.turns := rfl
@[simp] theorem State.clearMarks_cur (s : State) (a n : Nat) : (s.clearMarks a n).cur = s.cur := rfl
@[simp] theorem State.clearMarks_thr (s : State) (a n : Nat) : (s.clearMarks a n).thr = s.thr := rfl
@[simp] theorem State.clearMarks_ir (s : State) (a n : Nat) : (s.clearMarks a n).ir = s.ir := rfl
@[simp] theorem State.clearMarks_ea (s : State) (a n : Nat) : (s.clearMarks a n).ea = s.ea := rfl
@[simp] theorem State.clearMarks_cycle (s : State) (a n : Nat) : (s.clearMarks a n).cycle = s.cycle := rfl
@[simp] theorem State.clearMarks_free (s : State) (a n : Nat) : (s.clearMarks a n).free = s.free := rfl
@[simp] theorem State.clearMarks_cores (s : State) (a n : Nat) : (s.clearMarks a n).cores = s.cores := rfl
@[simp] theorem State.clearMarks_octets (s : State) (a n : Nat) : (s.clearMarks a n).octets = s.octets := rfl
@[simp] theorem State.clearMarks_clusters (s : State) (a n : Nat) : (s.clearMarks a n).clusters = s.clusters := rfl
@[simp] theorem State.clearMarks_dies (s : State) (a n : Nat) : (s.clearMarks a n).dies = s.dies := rfl
@[simp] theorem State.clearMarks_stations (s : State) (a n : Nat) : (s.clearMarks a n).stations = s.stations := rfl
@[simp] theorem State.clearMarks_sectors (s : State) (a n : Nat) : (s.clearMarks a n).sectors = s.sectors := rfl
@[simp] theorem State.clearMarks_mem (s : State) (a n : Nat) : (s.clearMarks a n).mem = s.mem := rfl
@[simp] theorem State.clearMarks_syncq (s : State) (a n : Nat) : (s.clearMarks a n).syncq = s.syncq := rfl
@[simp] theorem State.clearMarks_takeq (s : State) (a n : Nat) : (s.clearMarks a n).takeq = s.takeq := rfl
@[simp] theorem State.clearMarks_router (s : State) (a n : Nat) : (s.clearMarks a n).router = s.router := rfl
@[simp] theorem State.clearMarks_conns (s : State) (a n : Nat) : (s.clearMarks a n).conns = s.conns := rfl
@[simp] theorem State.clearMarks_ctxs (s : State) (a n : Nat) : (s.clearMarks a n).ctxs = s.ctxs := rfl
@[simp] theorem State.clearMarks_groups (s : State) (a n : Nat) : (s.clearMarks a n).groups = s.groups := rfl
@[simp] theorem State.clearMarks_skeins (s : State) (a n : Nat) : (s.clearMarks a n).skeins = s.skeins := rfl
@[simp] theorem State.clearMarks_castSeq (s : State) (a n : Nat) : (s.clearMarks a n).castSeq = s.castSeq := rfl
@[simp] theorem State.clearMarks_memSeq (s : State) (a n : Nat) : (s.clearMarks a n).memSeq = s.memSeq := rfl
@[simp] theorem State.clearMarks_mgmtSeq (s : State) (a n : Nat) : (s.clearMarks a n).mgmtSeq = s.mgmtSeq := rfl
@[simp] theorem State.clearMarks_portSeq (s : State) (a n : Nat) : (s.clearMarks a n).portSeq = s.portSeq := rfl
@[simp] theorem State.clearMarks_ports (s : State) (a n : Nat) : (s.clearMarks a n).ports = s.ports := rfl
@[simp] theorem State.clearMarks_frameQs (s : State) (a n : Nat) : (s.clearMarks a n).frameQs = s.frameQs := rfl
@[simp] theorem State.clearMarks_frameBank (s : State) (a n : Nat) : (s.clearMarks a n).frameBank = s.frameBank := rfl
@[simp] theorem State.clearMarks_badFrames (s : State) (a n : Nat) : (s.clearMarks a n).badFrames = s.badFrames := rfl
@[simp] theorem State.clearMarks_ruleDrops (s : State) (a n : Nat) : (s.clearMarks a n).ruleDrops = s.ruleDrops := rfl
@[simp] theorem State.clearMarks_time (s : State) (a n : Nat) : (s.clearMarks a n).time = s.time := rfl
@[simp] theorem State.clearMarks_slewRate (s : State) (a n : Nat) : (s.clearMarks a n).slewRate = s.slewRate := rfl
@[simp] theorem State.clearMarks_life (s : State) (a n : Nat) : (s.clearMarks a n).life = s.life := rfl

/-! ### Core.setTh -/

@[simp] theorem Core.setTh_g (k : Core) (t : Thread) (h : ThreadState) : (k.setTh t h).g = k.g := by cases t <;> rfl
@[simp] theorem Core.setTh_f (k : Core) (t : Thread) (h : ThreadState) : (k.setTh t h).f = k.f := by cases t <;> rfl
@[simp] theorem Core.setTh_v (k : Core) (t : Thread) (h : ThreadState) : (k.setTh t h).v = k.v := by cases t <;> rfl
@[simp] theorem Core.setTh_p (k : Core) (t : Thread) (h : ThreadState) : (k.setTh t h).p = k.p := by cases t <;> rfl
@[simp] theorem Core.setTh_fcsr (k : Core) (t : Thread) (h : ThreadState) : (k.setTh t h).fcsr = k.fcsr := by cases t <;> rfl
@[simp] theorem Core.setTh_rpt (k : Core) (t : Thread) (h : ThreadState) : (k.setTh t h).rpt = k.rpt := by cases t <;> rfl
@[simp] theorem Core.setTh_rptBody (k : Core) (t : Thread) (h : ThreadState) : (k.setTh t h).rptBody = k.rptBody := by cases t <;> rfl
@[simp] theorem Core.setTh_slots (k : Core) (t : Thread) (h : ThreadState) : (k.setTh t h).slots = k.slots := by cases t <;> rfl
@[simp] theorem Core.setTh_hs (k : Core) (t : Thread) (h : ThreadState) : (k.setTh t h).hs = k.hs := by cases t <;> rfl
@[simp] theorem Core.setTh_ppe (k : Core) (t : Thread) (h : ThreadState) : (k.setTh t h).ppe = k.ppe := by cases t <;> rfl
@[simp] theorem Core.setTh_axq (k : Core) (t : Thread) (h : ThreadState) : (k.setTh t h).axq = k.axq := by cases t <;> rfl
@[simp] theorem Core.setTh_xaq (k : Core) (t : Thread) (h : ThreadState) : (k.setTh t h).xaq = k.xaq := by cases t <;> rfl
@[simp] theorem Core.setTh_xaqTags (k : Core) (t : Thread) (h : ThreadState) : (k.setTh t h).xaqTags = k.xaqTags := by cases t <;> rfl
@[simp] theorem Core.setTh_flagLog (k : Core) (t : Thread) (h : ThreadState) : (k.setTh t h).flagLog = k.flagLog := by cases t <;> rfl
@[simp] theorem Core.setTh_ctxid (k : Core) (t : Thread) (h : ThreadState) : (k.setTh t h).ctxid = k.ctxid := by cases t <;> rfl
@[simp] theorem Core.setTh_xb (k : Core) (t : Thread) (h : ThreadState) : (k.setTh t h).xb = k.xb := by cases t <;> rfl
@[simp] theorem Core.setTh_groupid (k : Core) (t : Thread) (h : ThreadState) : (k.setTh t h).groupid = k.groupid := by cases t <;> rfl
@[simp] theorem Core.setTh_kernelid (k : Core) (t : Thread) (h : ThreadState) : (k.setTh t h).kernelid = k.kernelid := by cases t <;> rfl
@[simp] theorem Core.setTh_griddim (k : Core) (t : Thread) (h : ThreadState) : (k.setTh t h).griddim = k.griddim := by cases t <;> rfl
@[simp] theorem Core.setTh_gauge (k : Core) (t : Thread) (h : ThreadState) : (k.setTh t h).gauge = k.gauge := by cases t <;> rfl
@[simp] theorem Core.setTh_gkey (k : Core) (t : Thread) (h : ThreadState) : (k.setTh t h).gkey = k.gkey := by cases t <;> rfl
@[simp] theorem Core.setTh_orow (k : Core) (t : Thread) (h : ThreadState) : (k.setTh t h).orow = k.orow := by cases t <;> rfl
@[simp] theorem Core.setTh_ocol (k : Core) (t : Thread) (h : ThreadState) : (k.setTh t h).ocol = k.ocol := by cases t <;> rfl
@[simp] theorem Core.setTh_ps (k : Core) (t : Thread) (h : ThreadState) : (k.setTh t h).ps = k.ps := by cases t <;> rfl
@[simp] theorem Core.setTh_psTag (k : Core) (t : Thread) (h : ThreadState) : (k.setTh t h).psTag = k.psTag := by cases t <;> rfl
@[simp] theorem Core.setTh_cnt (k : Core) (t : Thread) (h : ThreadState) : (k.setTh t h).cnt = k.cnt := by cases t <;> rfl
@[simp] theorem Core.setTh_mgen (k : Core) (t : Thread) (h : ThreadState) : (k.setTh t h).mgen = k.mgen := by cases t <;> rfl
@[simp] theorem Core.setTh_adtbase (k : Core) (t : Thread) (h : ThreadState) : (k.setTh t h).adtbase = k.adtbase := by cases t <;> rfl
@[simp] theorem Core.setTh_mxErr (k : Core) (t : Thread) (h : ThreadState) : (k.setTh t h).mxErr = k.mxErr := by cases t <;> rfl
@[simp] theorem Core.setTh_bars (k : Core) (t : Thread) (h : ThreadState) : (k.setTh t h).bars = k.bars := by cases t <;> rfl
@[simp] theorem Core.setTh_outs (k : Core) (t : Thread) (h : ThreadState) : (k.setTh t h).outs = k.outs := by cases t <;> rfl
@[simp] theorem Core.setTh_ins (k : Core) (t : Thread) (h : ThreadState) : (k.setTh t h).ins = k.ins := by cases t <;> rfl
@[simp] theorem Core.setTh_round (k : Core) (t : Thread) (h : ThreadState) : (k.setTh t h).round = k.round := by cases t <;> rfl
@[simp] theorem Core.setTh_marked (k : Core) (t : Thread) (h : ThreadState) : (k.setTh t h).marked = k.marked := by cases t <;> rfl
@[simp] theorem Core.setTh_kick (k : Core) (t : Thread) (h : ThreadState) : (k.setTh t h).kick = k.kick := by cases t <;> rfl
@[simp] theorem Core.setTh_kickCl (k : Core) (t : Thread) (h : ThreadState) : (k.setTh t h).kickCl = k.kickCl := by cases t <;> rfl
@[simp] theorem Core.setTh_hold (k : Core) (t : Thread) (h : ThreadState) : (k.setTh t h).hold = k.hold := by cases t <;> rfl
@[simp] theorem Core.setTh_gang (k : Core) (t : Thread) (h : ThreadState) : (k.setTh t h).gang = k.gang := by cases t <;> rfl
@[simp] theorem Core.setTh_edgeStop (k : Core) (t : Thread) (h : ThreadState) : (k.setTh t h).edgeStop = k.edgeStop := by cases t <;> rfl
@[simp] theorem Core.setTh_islandStart (k : Core) (t : Thread) (h : ThreadState) : (k.setTh t h).islandStart = k.islandStart := by cases t <;> rfl
@[simp] theorem Core.setTh_tickets (k : Core) (t : Thread) (h : ThreadState) : (k.setTh t h).tickets = k.tickets := by cases t <;> rfl
@[simp] theorem Core.setTh_xfers (k : Core) (t : Thread) (h : ThreadState) : (k.setTh t h).xfers = k.xfers := by cases t <;> rfl
@[simp] theorem Core.setTh_xferNo (k : Core) (t : Thread) (h : ThreadState) : (k.setTh t h).xferNo = k.xferNo := by cases t <;> rfl
@[simp] theorem Core.setTh_ended (k : Core) (t : Thread) (h : ThreadState) : (k.setTh t h).ended = k.ended := by cases t <;> rfl

/-! ### Core.setF -/

@[simp] theorem Core.setF_a (k : Core) (n : Nat) (w : Word) : (k.setF n w).a = k.a := rfl
@[simp] theorem Core.setF_g (k : Core) (n : Nat) (w : Word) : (k.setF n w).g = k.g := rfl
@[simp] theorem Core.setF_v (k : Core) (n : Nat) (w : Word) : (k.setF n w).v = k.v := rfl
@[simp] theorem Core.setF_p (k : Core) (n : Nat) (w : Word) : (k.setF n w).p = k.p := rfl
@[simp] theorem Core.setF_fcsr (k : Core) (n : Nat) (w : Word) : (k.setF n w).fcsr = k.fcsr := rfl
@[simp] theorem Core.setF_rpt (k : Core) (n : Nat) (w : Word) : (k.setF n w).rpt = k.rpt := rfl
@[simp] theorem Core.setF_rptBody (k : Core) (n : Nat) (w : Word) : (k.setF n w).rptBody = k.rptBody := rfl
@[simp] theorem Core.setF_slots (k : Core) (n : Nat) (w : Word) : (k.setF n w).slots = k.slots := rfl
@[simp] theorem Core.setF_hs (k : Core) (n : Nat) (w : Word) : (k.setF n w).hs = k.hs := rfl
@[simp] theorem Core.setF_ppe (k : Core) (n : Nat) (w : Word) : (k.setF n w).ppe = k.ppe := rfl
@[simp] theorem Core.setF_axq (k : Core) (n : Nat) (w : Word) : (k.setF n w).axq = k.axq := rfl
@[simp] theorem Core.setF_xaq (k : Core) (n : Nat) (w : Word) : (k.setF n w).xaq = k.xaq := rfl
@[simp] theorem Core.setF_xaqTags (k : Core) (n : Nat) (w : Word) : (k.setF n w).xaqTags = k.xaqTags := rfl
@[simp] theorem Core.setF_flagLog (k : Core) (n : Nat) (w : Word) : (k.setF n w).flagLog = k.flagLog := rfl
@[simp] theorem Core.setF_ctxid (k : Core) (n : Nat) (w : Word) : (k.setF n w).ctxid = k.ctxid := rfl
@[simp] theorem Core.setF_xb (k : Core) (n : Nat) (w : Word) : (k.setF n w).xb = k.xb := rfl
@[simp] theorem Core.setF_groupid (k : Core) (n : Nat) (w : Word) : (k.setF n w).groupid = k.groupid := rfl
@[simp] theorem Core.setF_kernelid (k : Core) (n : Nat) (w : Word) : (k.setF n w).kernelid = k.kernelid := rfl
@[simp] theorem Core.setF_griddim (k : Core) (n : Nat) (w : Word) : (k.setF n w).griddim = k.griddim := rfl
@[simp] theorem Core.setF_gauge (k : Core) (n : Nat) (w : Word) : (k.setF n w).gauge = k.gauge := rfl
@[simp] theorem Core.setF_gkey (k : Core) (n : Nat) (w : Word) : (k.setF n w).gkey = k.gkey := rfl
@[simp] theorem Core.setF_orow (k : Core) (n : Nat) (w : Word) : (k.setF n w).orow = k.orow := rfl
@[simp] theorem Core.setF_ocol (k : Core) (n : Nat) (w : Word) : (k.setF n w).ocol = k.ocol := rfl
@[simp] theorem Core.setF_ps (k : Core) (n : Nat) (w : Word) : (k.setF n w).ps = k.ps := rfl
@[simp] theorem Core.setF_psTag (k : Core) (n : Nat) (w : Word) : (k.setF n w).psTag = k.psTag := rfl
@[simp] theorem Core.setF_cnt (k : Core) (n : Nat) (w : Word) : (k.setF n w).cnt = k.cnt := rfl
@[simp] theorem Core.setF_mgen (k : Core) (n : Nat) (w : Word) : (k.setF n w).mgen = k.mgen := rfl
@[simp] theorem Core.setF_adtbase (k : Core) (n : Nat) (w : Word) : (k.setF n w).adtbase = k.adtbase := rfl
@[simp] theorem Core.setF_mxErr (k : Core) (n : Nat) (w : Word) : (k.setF n w).mxErr = k.mxErr := rfl
@[simp] theorem Core.setF_bars (k : Core) (n : Nat) (w : Word) : (k.setF n w).bars = k.bars := rfl
@[simp] theorem Core.setF_outs (k : Core) (n : Nat) (w : Word) : (k.setF n w).outs = k.outs := rfl
@[simp] theorem Core.setF_ins (k : Core) (n : Nat) (w : Word) : (k.setF n w).ins = k.ins := rfl
@[simp] theorem Core.setF_round (k : Core) (n : Nat) (w : Word) : (k.setF n w).round = k.round := rfl
@[simp] theorem Core.setF_marked (k : Core) (n : Nat) (w : Word) : (k.setF n w).marked = k.marked := rfl
@[simp] theorem Core.setF_kick (k : Core) (n : Nat) (w : Word) : (k.setF n w).kick = k.kick := rfl
@[simp] theorem Core.setF_kickCl (k : Core) (n : Nat) (w : Word) : (k.setF n w).kickCl = k.kickCl := rfl
@[simp] theorem Core.setF_hold (k : Core) (n : Nat) (w : Word) : (k.setF n w).hold = k.hold := rfl
@[simp] theorem Core.setF_gang (k : Core) (n : Nat) (w : Word) : (k.setF n w).gang = k.gang := rfl
@[simp] theorem Core.setF_edgeStop (k : Core) (n : Nat) (w : Word) : (k.setF n w).edgeStop = k.edgeStop := rfl
@[simp] theorem Core.setF_islandStart (k : Core) (n : Nat) (w : Word) : (k.setF n w).islandStart = k.islandStart := rfl
@[simp] theorem Core.setF_tickets (k : Core) (n : Nat) (w : Word) : (k.setF n w).tickets = k.tickets := rfl
@[simp] theorem Core.setF_xfers (k : Core) (n : Nat) (w : Word) : (k.setF n w).xfers = k.xfers := rfl
@[simp] theorem Core.setF_xferNo (k : Core) (n : Nat) (w : Word) : (k.setF n w).xferNo = k.xferNo := rfl
@[simp] theorem Core.setF_ended (k : Core) (n : Nat) (w : Word) : (k.setF n w).ended = k.ended := rfl

/-! ### Core.setV -/

@[simp] theorem Core.setV_a (k : Core) (n : Nat) (w : VWord) : (k.setV n w).a = k.a := rfl
@[simp] theorem Core.setV_g (k : Core) (n : Nat) (w : VWord) : (k.setV n w).g = k.g := rfl
@[simp] theorem Core.setV_f (k : Core) (n : Nat) (w : VWord) : (k.setV n w).f = k.f := rfl
@[simp] theorem Core.setV_p (k : Core) (n : Nat) (w : VWord) : (k.setV n w).p = k.p := rfl
@[simp] theorem Core.setV_fcsr (k : Core) (n : Nat) (w : VWord) : (k.setV n w).fcsr = k.fcsr := rfl
@[simp] theorem Core.setV_rpt (k : Core) (n : Nat) (w : VWord) : (k.setV n w).rpt = k.rpt := rfl
@[simp] theorem Core.setV_rptBody (k : Core) (n : Nat) (w : VWord) : (k.setV n w).rptBody = k.rptBody := rfl
@[simp] theorem Core.setV_slots (k : Core) (n : Nat) (w : VWord) : (k.setV n w).slots = k.slots := rfl
@[simp] theorem Core.setV_hs (k : Core) (n : Nat) (w : VWord) : (k.setV n w).hs = k.hs := rfl
@[simp] theorem Core.setV_ppe (k : Core) (n : Nat) (w : VWord) : (k.setV n w).ppe = k.ppe := rfl
@[simp] theorem Core.setV_axq (k : Core) (n : Nat) (w : VWord) : (k.setV n w).axq = k.axq := rfl
@[simp] theorem Core.setV_xaq (k : Core) (n : Nat) (w : VWord) : (k.setV n w).xaq = k.xaq := rfl
@[simp] theorem Core.setV_xaqTags (k : Core) (n : Nat) (w : VWord) : (k.setV n w).xaqTags = k.xaqTags := rfl
@[simp] theorem Core.setV_flagLog (k : Core) (n : Nat) (w : VWord) : (k.setV n w).flagLog = k.flagLog := rfl
@[simp] theorem Core.setV_ctxid (k : Core) (n : Nat) (w : VWord) : (k.setV n w).ctxid = k.ctxid := rfl
@[simp] theorem Core.setV_xb (k : Core) (n : Nat) (w : VWord) : (k.setV n w).xb = k.xb := rfl
@[simp] theorem Core.setV_groupid (k : Core) (n : Nat) (w : VWord) : (k.setV n w).groupid = k.groupid := rfl
@[simp] theorem Core.setV_kernelid (k : Core) (n : Nat) (w : VWord) : (k.setV n w).kernelid = k.kernelid := rfl
@[simp] theorem Core.setV_griddim (k : Core) (n : Nat) (w : VWord) : (k.setV n w).griddim = k.griddim := rfl
@[simp] theorem Core.setV_gauge (k : Core) (n : Nat) (w : VWord) : (k.setV n w).gauge = k.gauge := rfl
@[simp] theorem Core.setV_gkey (k : Core) (n : Nat) (w : VWord) : (k.setV n w).gkey = k.gkey := rfl
@[simp] theorem Core.setV_orow (k : Core) (n : Nat) (w : VWord) : (k.setV n w).orow = k.orow := rfl
@[simp] theorem Core.setV_ocol (k : Core) (n : Nat) (w : VWord) : (k.setV n w).ocol = k.ocol := rfl
@[simp] theorem Core.setV_ps (k : Core) (n : Nat) (w : VWord) : (k.setV n w).ps = k.ps := rfl
@[simp] theorem Core.setV_psTag (k : Core) (n : Nat) (w : VWord) : (k.setV n w).psTag = k.psTag := rfl
@[simp] theorem Core.setV_cnt (k : Core) (n : Nat) (w : VWord) : (k.setV n w).cnt = k.cnt := rfl
@[simp] theorem Core.setV_mgen (k : Core) (n : Nat) (w : VWord) : (k.setV n w).mgen = k.mgen := rfl
@[simp] theorem Core.setV_adtbase (k : Core) (n : Nat) (w : VWord) : (k.setV n w).adtbase = k.adtbase := rfl
@[simp] theorem Core.setV_mxErr (k : Core) (n : Nat) (w : VWord) : (k.setV n w).mxErr = k.mxErr := rfl
@[simp] theorem Core.setV_bars (k : Core) (n : Nat) (w : VWord) : (k.setV n w).bars = k.bars := rfl
@[simp] theorem Core.setV_outs (k : Core) (n : Nat) (w : VWord) : (k.setV n w).outs = k.outs := rfl
@[simp] theorem Core.setV_ins (k : Core) (n : Nat) (w : VWord) : (k.setV n w).ins = k.ins := rfl
@[simp] theorem Core.setV_round (k : Core) (n : Nat) (w : VWord) : (k.setV n w).round = k.round := rfl
@[simp] theorem Core.setV_marked (k : Core) (n : Nat) (w : VWord) : (k.setV n w).marked = k.marked := rfl
@[simp] theorem Core.setV_kick (k : Core) (n : Nat) (w : VWord) : (k.setV n w).kick = k.kick := rfl
@[simp] theorem Core.setV_kickCl (k : Core) (n : Nat) (w : VWord) : (k.setV n w).kickCl = k.kickCl := rfl
@[simp] theorem Core.setV_hold (k : Core) (n : Nat) (w : VWord) : (k.setV n w).hold = k.hold := rfl
@[simp] theorem Core.setV_gang (k : Core) (n : Nat) (w : VWord) : (k.setV n w).gang = k.gang := rfl
@[simp] theorem Core.setV_edgeStop (k : Core) (n : Nat) (w : VWord) : (k.setV n w).edgeStop = k.edgeStop := rfl
@[simp] theorem Core.setV_islandStart (k : Core) (n : Nat) (w : VWord) : (k.setV n w).islandStart = k.islandStart := rfl
@[simp] theorem Core.setV_tickets (k : Core) (n : Nat) (w : VWord) : (k.setV n w).tickets = k.tickets := rfl
@[simp] theorem Core.setV_xfers (k : Core) (n : Nat) (w : VWord) : (k.setV n w).xfers = k.xfers := rfl
@[simp] theorem Core.setV_xferNo (k : Core) (n : Nat) (w : VWord) : (k.setV n w).xferNo = k.xferNo := rfl
@[simp] theorem Core.setV_ended (k : Core) (n : Nat) (w : VWord) : (k.setV n w).ended = k.ended := rfl

/-! ### Core.setG -/

@[simp] theorem Core.setG_x (k : Core) (n : Nat) (w : Word) : (k.setG n w).x = k.x := by unfold Core.setG; split <;> rfl
@[simp] theorem Core.setG_f (k : Core) (n : Nat) (w : Word) : (k.setG n w).f = k.f := by unfold Core.setG; split <;> rfl
@[simp] theorem Core.setG_v (k : Core) (n : Nat) (w : Word) : (k.setG n w).v = k.v := by unfold Core.setG; split <;> rfl
@[simp] theorem Core.setG_p (k : Core) (n : Nat) (w : Word) : (k.setG n w).p = k.p := by unfold Core.setG; split <;> rfl
@[simp] theorem Core.setG_fcsr (k : Core) (n : Nat) (w : Word) : (k.setG n w).fcsr = k.fcsr := by unfold Core.setG; split <;> rfl
@[simp] theorem Core.setG_rpt (k : Core) (n : Nat) (w : Word) : (k.setG n w).rpt = k.rpt := by unfold Core.setG; split <;> rfl
@[simp] theorem Core.setG_rptBody (k : Core) (n : Nat) (w : Word) : (k.setG n w).rptBody = k.rptBody := by unfold Core.setG; split <;> rfl
@[simp] theorem Core.setG_slots (k : Core) (n : Nat) (w : Word) : (k.setG n w).slots = k.slots := by unfold Core.setG; split <;> rfl
@[simp] theorem Core.setG_hs (k : Core) (n : Nat) (w : Word) : (k.setG n w).hs = k.hs := by unfold Core.setG; split <;> rfl
@[simp] theorem Core.setG_ppe (k : Core) (n : Nat) (w : Word) : (k.setG n w).ppe = k.ppe := by unfold Core.setG; split <;> rfl
@[simp] theorem Core.setG_axq (k : Core) (n : Nat) (w : Word) : (k.setG n w).axq = k.axq := by unfold Core.setG; split <;> rfl
@[simp] theorem Core.setG_xaq (k : Core) (n : Nat) (w : Word) : (k.setG n w).xaq = k.xaq := by unfold Core.setG; split <;> rfl
@[simp] theorem Core.setG_xaqTags (k : Core) (n : Nat) (w : Word) : (k.setG n w).xaqTags = k.xaqTags := by unfold Core.setG; split <;> rfl
@[simp] theorem Core.setG_flagLog (k : Core) (n : Nat) (w : Word) : (k.setG n w).flagLog = k.flagLog := by unfold Core.setG; split <;> rfl
@[simp] theorem Core.setG_ctxid (k : Core) (n : Nat) (w : Word) : (k.setG n w).ctxid = k.ctxid := by unfold Core.setG; split <;> rfl
@[simp] theorem Core.setG_xb (k : Core) (n : Nat) (w : Word) : (k.setG n w).xb = k.xb := by unfold Core.setG; split <;> rfl
@[simp] theorem Core.setG_groupid (k : Core) (n : Nat) (w : Word) : (k.setG n w).groupid = k.groupid := by unfold Core.setG; split <;> rfl
@[simp] theorem Core.setG_kernelid (k : Core) (n : Nat) (w : Word) : (k.setG n w).kernelid = k.kernelid := by unfold Core.setG; split <;> rfl
@[simp] theorem Core.setG_griddim (k : Core) (n : Nat) (w : Word) : (k.setG n w).griddim = k.griddim := by unfold Core.setG; split <;> rfl
@[simp] theorem Core.setG_gauge (k : Core) (n : Nat) (w : Word) : (k.setG n w).gauge = k.gauge := by unfold Core.setG; split <;> rfl
@[simp] theorem Core.setG_gkey (k : Core) (n : Nat) (w : Word) : (k.setG n w).gkey = k.gkey := by unfold Core.setG; split <;> rfl
@[simp] theorem Core.setG_orow (k : Core) (n : Nat) (w : Word) : (k.setG n w).orow = k.orow := by unfold Core.setG; split <;> rfl
@[simp] theorem Core.setG_ocol (k : Core) (n : Nat) (w : Word) : (k.setG n w).ocol = k.ocol := by unfold Core.setG; split <;> rfl
@[simp] theorem Core.setG_ps (k : Core) (n : Nat) (w : Word) : (k.setG n w).ps = k.ps := by unfold Core.setG; split <;> rfl
@[simp] theorem Core.setG_psTag (k : Core) (n : Nat) (w : Word) : (k.setG n w).psTag = k.psTag := by unfold Core.setG; split <;> rfl
@[simp] theorem Core.setG_cnt (k : Core) (n : Nat) (w : Word) : (k.setG n w).cnt = k.cnt := by unfold Core.setG; split <;> rfl
@[simp] theorem Core.setG_mgen (k : Core) (n : Nat) (w : Word) : (k.setG n w).mgen = k.mgen := by unfold Core.setG; split <;> rfl
@[simp] theorem Core.setG_adtbase (k : Core) (n : Nat) (w : Word) : (k.setG n w).adtbase = k.adtbase := by unfold Core.setG; split <;> rfl
@[simp] theorem Core.setG_mxErr (k : Core) (n : Nat) (w : Word) : (k.setG n w).mxErr = k.mxErr := by unfold Core.setG; split <;> rfl
@[simp] theorem Core.setG_bars (k : Core) (n : Nat) (w : Word) : (k.setG n w).bars = k.bars := by unfold Core.setG; split <;> rfl
@[simp] theorem Core.setG_outs (k : Core) (n : Nat) (w : Word) : (k.setG n w).outs = k.outs := by unfold Core.setG; split <;> rfl
@[simp] theorem Core.setG_ins (k : Core) (n : Nat) (w : Word) : (k.setG n w).ins = k.ins := by unfold Core.setG; split <;> rfl
@[simp] theorem Core.setG_round (k : Core) (n : Nat) (w : Word) : (k.setG n w).round = k.round := by unfold Core.setG; split <;> rfl
@[simp] theorem Core.setG_marked (k : Core) (n : Nat) (w : Word) : (k.setG n w).marked = k.marked := by unfold Core.setG; split <;> rfl
@[simp] theorem Core.setG_kick (k : Core) (n : Nat) (w : Word) : (k.setG n w).kick = k.kick := by unfold Core.setG; split <;> rfl
@[simp] theorem Core.setG_kickCl (k : Core) (n : Nat) (w : Word) : (k.setG n w).kickCl = k.kickCl := by unfold Core.setG; split <;> rfl
@[simp] theorem Core.setG_hold (k : Core) (n : Nat) (w : Word) : (k.setG n w).hold = k.hold := by unfold Core.setG; split <;> rfl
@[simp] theorem Core.setG_gang (k : Core) (n : Nat) (w : Word) : (k.setG n w).gang = k.gang := by unfold Core.setG; split <;> rfl
@[simp] theorem Core.setG_edgeStop (k : Core) (n : Nat) (w : Word) : (k.setG n w).edgeStop = k.edgeStop := by unfold Core.setG; split <;> rfl
@[simp] theorem Core.setG_islandStart (k : Core) (n : Nat) (w : Word) : (k.setG n w).islandStart = k.islandStart := by unfold Core.setG; split <;> rfl
@[simp] theorem Core.setG_tickets (k : Core) (n : Nat) (w : Word) : (k.setG n w).tickets = k.tickets := by unfold Core.setG; split <;> rfl
@[simp] theorem Core.setG_xfers (k : Core) (n : Nat) (w : Word) : (k.setG n w).xfers = k.xfers := by unfold Core.setG; split <;> rfl
@[simp] theorem Core.setG_xferNo (k : Core) (n : Nat) (w : Word) : (k.setG n w).xferNo = k.xferNo := by unfold Core.setG; split <;> rfl
@[simp] theorem Core.setG_ended (k : Core) (n : Nat) (w : Word) : (k.setG n w).ended = k.ended := by unfold Core.setG; split <;> rfl

/-! ### Core.setP -/

@[simp] theorem Core.setP_a (k : Core) (n : Nat) (w : PWord) : (k.setP n w).a = k.a := by unfold Core.setP; split <;> rfl
@[simp] theorem Core.setP_x (k : Core) (n : Nat) (w : PWord) : (k.setP n w).x = k.x := by unfold Core.setP; split <;> rfl
@[simp] theorem Core.setP_g (k : Core) (n : Nat) (w : PWord) : (k.setP n w).g = k.g := by unfold Core.setP; split <;> rfl
@[simp] theorem Core.setP_f (k : Core) (n : Nat) (w : PWord) : (k.setP n w).f = k.f := by unfold Core.setP; split <;> rfl
@[simp] theorem Core.setP_v (k : Core) (n : Nat) (w : PWord) : (k.setP n w).v = k.v := by unfold Core.setP; split <;> rfl
@[simp] theorem Core.setP_fcsr (k : Core) (n : Nat) (w : PWord) : (k.setP n w).fcsr = k.fcsr := by unfold Core.setP; split <;> rfl
@[simp] theorem Core.setP_rpt (k : Core) (n : Nat) (w : PWord) : (k.setP n w).rpt = k.rpt := by unfold Core.setP; split <;> rfl
@[simp] theorem Core.setP_rptBody (k : Core) (n : Nat) (w : PWord) : (k.setP n w).rptBody = k.rptBody := by unfold Core.setP; split <;> rfl
@[simp] theorem Core.setP_slots (k : Core) (n : Nat) (w : PWord) : (k.setP n w).slots = k.slots := by unfold Core.setP; split <;> rfl
@[simp] theorem Core.setP_hs (k : Core) (n : Nat) (w : PWord) : (k.setP n w).hs = k.hs := by unfold Core.setP; split <;> rfl
@[simp] theorem Core.setP_ppe (k : Core) (n : Nat) (w : PWord) : (k.setP n w).ppe = k.ppe := by unfold Core.setP; split <;> rfl
@[simp] theorem Core.setP_axq (k : Core) (n : Nat) (w : PWord) : (k.setP n w).axq = k.axq := by unfold Core.setP; split <;> rfl
@[simp] theorem Core.setP_xaq (k : Core) (n : Nat) (w : PWord) : (k.setP n w).xaq = k.xaq := by unfold Core.setP; split <;> rfl
@[simp] theorem Core.setP_xaqTags (k : Core) (n : Nat) (w : PWord) : (k.setP n w).xaqTags = k.xaqTags := by unfold Core.setP; split <;> rfl
@[simp] theorem Core.setP_flagLog (k : Core) (n : Nat) (w : PWord) : (k.setP n w).flagLog = k.flagLog := by unfold Core.setP; split <;> rfl
@[simp] theorem Core.setP_ctxid (k : Core) (n : Nat) (w : PWord) : (k.setP n w).ctxid = k.ctxid := by unfold Core.setP; split <;> rfl
@[simp] theorem Core.setP_xb (k : Core) (n : Nat) (w : PWord) : (k.setP n w).xb = k.xb := by unfold Core.setP; split <;> rfl
@[simp] theorem Core.setP_groupid (k : Core) (n : Nat) (w : PWord) : (k.setP n w).groupid = k.groupid := by unfold Core.setP; split <;> rfl
@[simp] theorem Core.setP_kernelid (k : Core) (n : Nat) (w : PWord) : (k.setP n w).kernelid = k.kernelid := by unfold Core.setP; split <;> rfl
@[simp] theorem Core.setP_griddim (k : Core) (n : Nat) (w : PWord) : (k.setP n w).griddim = k.griddim := by unfold Core.setP; split <;> rfl
@[simp] theorem Core.setP_gauge (k : Core) (n : Nat) (w : PWord) : (k.setP n w).gauge = k.gauge := by unfold Core.setP; split <;> rfl
@[simp] theorem Core.setP_gkey (k : Core) (n : Nat) (w : PWord) : (k.setP n w).gkey = k.gkey := by unfold Core.setP; split <;> rfl
@[simp] theorem Core.setP_orow (k : Core) (n : Nat) (w : PWord) : (k.setP n w).orow = k.orow := by unfold Core.setP; split <;> rfl
@[simp] theorem Core.setP_ocol (k : Core) (n : Nat) (w : PWord) : (k.setP n w).ocol = k.ocol := by unfold Core.setP; split <;> rfl
@[simp] theorem Core.setP_ps (k : Core) (n : Nat) (w : PWord) : (k.setP n w).ps = k.ps := by unfold Core.setP; split <;> rfl
@[simp] theorem Core.setP_psTag (k : Core) (n : Nat) (w : PWord) : (k.setP n w).psTag = k.psTag := by unfold Core.setP; split <;> rfl
@[simp] theorem Core.setP_cnt (k : Core) (n : Nat) (w : PWord) : (k.setP n w).cnt = k.cnt := by unfold Core.setP; split <;> rfl
@[simp] theorem Core.setP_mgen (k : Core) (n : Nat) (w : PWord) : (k.setP n w).mgen = k.mgen := by unfold Core.setP; split <;> rfl
@[simp] theorem Core.setP_adtbase (k : Core) (n : Nat) (w : PWord) : (k.setP n w).adtbase = k.adtbase := by unfold Core.setP; split <;> rfl
@[simp] theorem Core.setP_mxErr (k : Core) (n : Nat) (w : PWord) : (k.setP n w).mxErr = k.mxErr := by unfold Core.setP; split <;> rfl
@[simp] theorem Core.setP_bars (k : Core) (n : Nat) (w : PWord) : (k.setP n w).bars = k.bars := by unfold Core.setP; split <;> rfl
@[simp] theorem Core.setP_outs (k : Core) (n : Nat) (w : PWord) : (k.setP n w).outs = k.outs := by unfold Core.setP; split <;> rfl
@[simp] theorem Core.setP_ins (k : Core) (n : Nat) (w : PWord) : (k.setP n w).ins = k.ins := by unfold Core.setP; split <;> rfl
@[simp] theorem Core.setP_round (k : Core) (n : Nat) (w : PWord) : (k.setP n w).round = k.round := by unfold Core.setP; split <;> rfl
@[simp] theorem Core.setP_marked (k : Core) (n : Nat) (w : PWord) : (k.setP n w).marked = k.marked := by unfold Core.setP; split <;> rfl
@[simp] theorem Core.setP_kick (k : Core) (n : Nat) (w : PWord) : (k.setP n w).kick = k.kick := by unfold Core.setP; split <;> rfl
@[simp] theorem Core.setP_kickCl (k : Core) (n : Nat) (w : PWord) : (k.setP n w).kickCl = k.kickCl := by unfold Core.setP; split <;> rfl
@[simp] theorem Core.setP_hold (k : Core) (n : Nat) (w : PWord) : (k.setP n w).hold = k.hold := by unfold Core.setP; split <;> rfl
@[simp] theorem Core.setP_gang (k : Core) (n : Nat) (w : PWord) : (k.setP n w).gang = k.gang := by unfold Core.setP; split <;> rfl
@[simp] theorem Core.setP_edgeStop (k : Core) (n : Nat) (w : PWord) : (k.setP n w).edgeStop = k.edgeStop := by unfold Core.setP; split <;> rfl
@[simp] theorem Core.setP_islandStart (k : Core) (n : Nat) (w : PWord) : (k.setP n w).islandStart = k.islandStart := by unfold Core.setP; split <;> rfl
@[simp] theorem Core.setP_tickets (k : Core) (n : Nat) (w : PWord) : (k.setP n w).tickets = k.tickets := by unfold Core.setP; split <;> rfl
@[simp] theorem Core.setP_xfers (k : Core) (n : Nat) (w : PWord) : (k.setP n w).xfers = k.xfers := by unfold Core.setP; split <;> rfl
@[simp] theorem Core.setP_xferNo (k : Core) (n : Nat) (w : PWord) : (k.setP n w).xferNo = k.xferNo := by unfold Core.setP; split <;> rfl
@[simp] theorem Core.setP_ended (k : Core) (n : Nat) (w : PWord) : (k.setP n w).ended = k.ended := by unfold Core.setP; split <;> rfl

/-! ### Core.setSlot -/

@[simp] theorem Core.setSlot_a (k : Core) (n : Nat) (q : Slot) : (k.setSlot n q).a = k.a := rfl
@[simp] theorem Core.setSlot_x (k : Core) (n : Nat) (q : Slot) : (k.setSlot n q).x = k.x := rfl
@[simp] theorem Core.setSlot_g (k : Core) (n : Nat) (q : Slot) : (k.setSlot n q).g = k.g := rfl
@[simp] theorem Core.setSlot_f (k : Core) (n : Nat) (q : Slot) : (k.setSlot n q).f = k.f := rfl
@[simp] theorem Core.setSlot_v (k : Core) (n : Nat) (q : Slot) : (k.setSlot n q).v = k.v := rfl
@[simp] theorem Core.setSlot_p (k : Core) (n : Nat) (q : Slot) : (k.setSlot n q).p = k.p := rfl
@[simp] theorem Core.setSlot_fcsr (k : Core) (n : Nat) (q : Slot) : (k.setSlot n q).fcsr = k.fcsr := rfl
@[simp] theorem Core.setSlot_rpt (k : Core) (n : Nat) (q : Slot) : (k.setSlot n q).rpt = k.rpt := rfl
@[simp] theorem Core.setSlot_rptBody (k : Core) (n : Nat) (q : Slot) : (k.setSlot n q).rptBody = k.rptBody := rfl
@[simp] theorem Core.setSlot_hs (k : Core) (n : Nat) (q : Slot) : (k.setSlot n q).hs = k.hs := rfl
@[simp] theorem Core.setSlot_ppe (k : Core) (n : Nat) (q : Slot) : (k.setSlot n q).ppe = k.ppe := rfl
@[simp] theorem Core.setSlot_axq (k : Core) (n : Nat) (q : Slot) : (k.setSlot n q).axq = k.axq := rfl
@[simp] theorem Core.setSlot_xaq (k : Core) (n : Nat) (q : Slot) : (k.setSlot n q).xaq = k.xaq := rfl
@[simp] theorem Core.setSlot_xaqTags (k : Core) (n : Nat) (q : Slot) : (k.setSlot n q).xaqTags = k.xaqTags := rfl
@[simp] theorem Core.setSlot_flagLog (k : Core) (n : Nat) (q : Slot) : (k.setSlot n q).flagLog = k.flagLog := rfl
@[simp] theorem Core.setSlot_ctxid (k : Core) (n : Nat) (q : Slot) : (k.setSlot n q).ctxid = k.ctxid := rfl
@[simp] theorem Core.setSlot_xb (k : Core) (n : Nat) (q : Slot) : (k.setSlot n q).xb = k.xb := rfl
@[simp] theorem Core.setSlot_groupid (k : Core) (n : Nat) (q : Slot) : (k.setSlot n q).groupid = k.groupid := rfl
@[simp] theorem Core.setSlot_kernelid (k : Core) (n : Nat) (q : Slot) : (k.setSlot n q).kernelid = k.kernelid := rfl
@[simp] theorem Core.setSlot_griddim (k : Core) (n : Nat) (q : Slot) : (k.setSlot n q).griddim = k.griddim := rfl
@[simp] theorem Core.setSlot_gauge (k : Core) (n : Nat) (q : Slot) : (k.setSlot n q).gauge = k.gauge := rfl
@[simp] theorem Core.setSlot_gkey (k : Core) (n : Nat) (q : Slot) : (k.setSlot n q).gkey = k.gkey := rfl
@[simp] theorem Core.setSlot_orow (k : Core) (n : Nat) (q : Slot) : (k.setSlot n q).orow = k.orow := rfl
@[simp] theorem Core.setSlot_ocol (k : Core) (n : Nat) (q : Slot) : (k.setSlot n q).ocol = k.ocol := rfl
@[simp] theorem Core.setSlot_ps (k : Core) (n : Nat) (q : Slot) : (k.setSlot n q).ps = k.ps := rfl
@[simp] theorem Core.setSlot_psTag (k : Core) (n : Nat) (q : Slot) : (k.setSlot n q).psTag = k.psTag := rfl
@[simp] theorem Core.setSlot_cnt (k : Core) (n : Nat) (q : Slot) : (k.setSlot n q).cnt = k.cnt := rfl
@[simp] theorem Core.setSlot_mgen (k : Core) (n : Nat) (q : Slot) : (k.setSlot n q).mgen = k.mgen := rfl
@[simp] theorem Core.setSlot_adtbase (k : Core) (n : Nat) (q : Slot) : (k.setSlot n q).adtbase = k.adtbase := rfl
@[simp] theorem Core.setSlot_mxErr (k : Core) (n : Nat) (q : Slot) : (k.setSlot n q).mxErr = k.mxErr := rfl
@[simp] theorem Core.setSlot_bars (k : Core) (n : Nat) (q : Slot) : (k.setSlot n q).bars = k.bars := rfl
@[simp] theorem Core.setSlot_outs (k : Core) (n : Nat) (q : Slot) : (k.setSlot n q).outs = k.outs := rfl
@[simp] theorem Core.setSlot_ins (k : Core) (n : Nat) (q : Slot) : (k.setSlot n q).ins = k.ins := rfl
@[simp] theorem Core.setSlot_round (k : Core) (n : Nat) (q : Slot) : (k.setSlot n q).round = k.round := rfl
@[simp] theorem Core.setSlot_marked (k : Core) (n : Nat) (q : Slot) : (k.setSlot n q).marked = k.marked := rfl
@[simp] theorem Core.setSlot_kick (k : Core) (n : Nat) (q : Slot) : (k.setSlot n q).kick = k.kick := rfl
@[simp] theorem Core.setSlot_kickCl (k : Core) (n : Nat) (q : Slot) : (k.setSlot n q).kickCl = k.kickCl := rfl
@[simp] theorem Core.setSlot_hold (k : Core) (n : Nat) (q : Slot) : (k.setSlot n q).hold = k.hold := rfl
@[simp] theorem Core.setSlot_gang (k : Core) (n : Nat) (q : Slot) : (k.setSlot n q).gang = k.gang := rfl
@[simp] theorem Core.setSlot_edgeStop (k : Core) (n : Nat) (q : Slot) : (k.setSlot n q).edgeStop = k.edgeStop := rfl
@[simp] theorem Core.setSlot_islandStart (k : Core) (n : Nat) (q : Slot) : (k.setSlot n q).islandStart = k.islandStart := rfl
@[simp] theorem Core.setSlot_tickets (k : Core) (n : Nat) (q : Slot) : (k.setSlot n q).tickets = k.tickets := rfl
@[simp] theorem Core.setSlot_xfers (k : Core) (n : Nat) (q : Slot) : (k.setSlot n q).xfers = k.xfers := rfl
@[simp] theorem Core.setSlot_xferNo (k : Core) (n : Nat) (q : Slot) : (k.setSlot n q).xferNo = k.xferNo := rfl
@[simp] theorem Core.setSlot_ended (k : Core) (n : Nat) (q : Slot) : (k.setSlot n q).ended = k.ended := rfl

/-! ### Core.raised -/

@[simp] theorem Core.raised_a (k : Core) (fl : Flags) : (k.raised fl).a = k.a := rfl
@[simp] theorem Core.raised_x (k : Core) (fl : Flags) : (k.raised fl).x = k.x := rfl
@[simp] theorem Core.raised_g (k : Core) (fl : Flags) : (k.raised fl).g = k.g := rfl
@[simp] theorem Core.raised_f (k : Core) (fl : Flags) : (k.raised fl).f = k.f := rfl
@[simp] theorem Core.raised_v (k : Core) (fl : Flags) : (k.raised fl).v = k.v := rfl
@[simp] theorem Core.raised_p (k : Core) (fl : Flags) : (k.raised fl).p = k.p := rfl
@[simp] theorem Core.raised_rpt (k : Core) (fl : Flags) : (k.raised fl).rpt = k.rpt := rfl
@[simp] theorem Core.raised_rptBody (k : Core) (fl : Flags) : (k.raised fl).rptBody = k.rptBody := rfl
@[simp] theorem Core.raised_slots (k : Core) (fl : Flags) : (k.raised fl).slots = k.slots := rfl
@[simp] theorem Core.raised_hs (k : Core) (fl : Flags) : (k.raised fl).hs = k.hs := rfl
@[simp] theorem Core.raised_ppe (k : Core) (fl : Flags) : (k.raised fl).ppe = k.ppe := rfl
@[simp] theorem Core.raised_axq (k : Core) (fl : Flags) : (k.raised fl).axq = k.axq := rfl
@[simp] theorem Core.raised_xaq (k : Core) (fl : Flags) : (k.raised fl).xaq = k.xaq := rfl
@[simp] theorem Core.raised_xaqTags (k : Core) (fl : Flags) : (k.raised fl).xaqTags = k.xaqTags := rfl
@[simp] theorem Core.raised_flagLog (k : Core) (fl : Flags) : (k.raised fl).flagLog = k.flagLog := rfl
@[simp] theorem Core.raised_ctxid (k : Core) (fl : Flags) : (k.raised fl).ctxid = k.ctxid := rfl
@[simp] theorem Core.raised_xb (k : Core) (fl : Flags) : (k.raised fl).xb = k.xb := rfl
@[simp] theorem Core.raised_groupid (k : Core) (fl : Flags) : (k.raised fl).groupid = k.groupid := rfl
@[simp] theorem Core.raised_kernelid (k : Core) (fl : Flags) : (k.raised fl).kernelid = k.kernelid := rfl
@[simp] theorem Core.raised_griddim (k : Core) (fl : Flags) : (k.raised fl).griddim = k.griddim := rfl
@[simp] theorem Core.raised_gauge (k : Core) (fl : Flags) : (k.raised fl).gauge = k.gauge := rfl
@[simp] theorem Core.raised_gkey (k : Core) (fl : Flags) : (k.raised fl).gkey = k.gkey := rfl
@[simp] theorem Core.raised_orow (k : Core) (fl : Flags) : (k.raised fl).orow = k.orow := rfl
@[simp] theorem Core.raised_ocol (k : Core) (fl : Flags) : (k.raised fl).ocol = k.ocol := rfl
@[simp] theorem Core.raised_ps (k : Core) (fl : Flags) : (k.raised fl).ps = k.ps := rfl
@[simp] theorem Core.raised_psTag (k : Core) (fl : Flags) : (k.raised fl).psTag = k.psTag := rfl
@[simp] theorem Core.raised_cnt (k : Core) (fl : Flags) : (k.raised fl).cnt = k.cnt := rfl
@[simp] theorem Core.raised_mgen (k : Core) (fl : Flags) : (k.raised fl).mgen = k.mgen := rfl
@[simp] theorem Core.raised_adtbase (k : Core) (fl : Flags) : (k.raised fl).adtbase = k.adtbase := rfl
@[simp] theorem Core.raised_mxErr (k : Core) (fl : Flags) : (k.raised fl).mxErr = k.mxErr := rfl
@[simp] theorem Core.raised_bars (k : Core) (fl : Flags) : (k.raised fl).bars = k.bars := rfl
@[simp] theorem Core.raised_outs (k : Core) (fl : Flags) : (k.raised fl).outs = k.outs := rfl
@[simp] theorem Core.raised_ins (k : Core) (fl : Flags) : (k.raised fl).ins = k.ins := rfl
@[simp] theorem Core.raised_round (k : Core) (fl : Flags) : (k.raised fl).round = k.round := rfl
@[simp] theorem Core.raised_marked (k : Core) (fl : Flags) : (k.raised fl).marked = k.marked := rfl
@[simp] theorem Core.raised_kick (k : Core) (fl : Flags) : (k.raised fl).kick = k.kick := rfl
@[simp] theorem Core.raised_kickCl (k : Core) (fl : Flags) : (k.raised fl).kickCl = k.kickCl := rfl
@[simp] theorem Core.raised_hold (k : Core) (fl : Flags) : (k.raised fl).hold = k.hold := rfl
@[simp] theorem Core.raised_gang (k : Core) (fl : Flags) : (k.raised fl).gang = k.gang := rfl
@[simp] theorem Core.raised_edgeStop (k : Core) (fl : Flags) : (k.raised fl).edgeStop = k.edgeStop := rfl
@[simp] theorem Core.raised_islandStart (k : Core) (fl : Flags) : (k.raised fl).islandStart = k.islandStart := rfl
@[simp] theorem Core.raised_tickets (k : Core) (fl : Flags) : (k.raised fl).tickets = k.tickets := rfl
@[simp] theorem Core.raised_xfers (k : Core) (fl : Flags) : (k.raised fl).xfers = k.xfers := rfl
@[simp] theorem Core.raised_xferNo (k : Core) (fl : Flags) : (k.raised fl).xferNo = k.xferNo := rfl
@[simp] theorem Core.raised_ended (k : Core) (fl : Flags) : (k.raised fl).ended = k.ended := rfl

/-! ## Reading a part after writing it -/

@[simp] theorem State.core_setCore (s : State) (c : CoreName) (k : Core) : (s.setCore c k).core c = k := Tbl.get_set_same _ _ _ _
@[simp] theorem State.core_updCore (s : State) (c : CoreName) (f : Core → Core) : (s.updCore c f).core c = f (s.core c) :=
  Tbl.get_set_same _ _ _ _
theorem State.core_setCore_ne (s : State) {c c' : CoreName} (k : Core) (h : c'.index ≠ c.index) :
    (s.setCore c k).core c' = s.core c' := Tbl.get_set_ne _ _ _ h
theorem State.core_updCore_ne (s : State) {c c' : CoreName} (f : Core → Core) (h : c'.index ≠ c.index) :
    (s.updCore c f).core c' = s.core c' := Tbl.get_set_ne _ _ _ h

@[simp] theorem Core.th_setTh (k : Core) (t : Thread) (h : ThreadState) : (k.setTh t h).th t = h := by cases t <;> rfl
theorem Core.th_setTh_ne (k : Core) {t t' : Thread} (h : ThreadState) (ht : t' ≠ t) : (k.setTh t h).th t' = k.th t' := by
  cases t <;> cases t' <;> first | rfl | exact absurd rfl ht
@[simp] theorem State.th_updTh (s : State) (c : CoreName) (t : Thread) (f : ThreadState → ThreadState) :
    (s.updTh c t f).th c t = f (s.th c t) := by simp [State.th, State.updTh]
theorem State.th_updTh_ne (s : State) (c : CoreName) {t t' : Thread} (f : ThreadState → ThreadState) (ht : t' ≠ t) :
    (s.updTh c t f).th c t' = s.th c t' := by simp [State.th, State.updTh, Core.th_setTh_ne _ _ ht]
theorem State.core_updTh_ne (s : State) {c c' : CoreName} (t : Thread) (f : ThreadState → ThreadState) (h : c'.index ≠ c.index) :
    (s.updTh c t f).core c' = s.core c' := State.core_updCore_ne s _ h

@[simp] theorem State.octet_updOctet (s : State) (o : OctName) (f : Octet → Octet) : (s.updOctet o f).octet o = f (s.octet o) :=
  Tbl.get_set_same _ _ _ _
theorem State.octet_updOctet_ne (s : State) {o o' : OctName} (f : Octet → Octet) (h : o'.index ≠ o.index) :
    (s.updOctet o f).octet o' = s.octet o' := Tbl.get_set_ne _ _ _ h
@[simp] theorem State.cluster_updCluster (s : State) (c : Fin 16) (f : Cluster → Cluster) :
    (s.updCluster c f).cluster c = f (s.cluster c) := Tbl.get_set_same _ _ _ _
theorem State.cluster_updCluster_ne (s : State) {c c' : Fin 16} (f : Cluster → Cluster) (h : c'.val ≠ c.val) :
    (s.updCluster c f).cluster c' = s.cluster c' := Tbl.get_set_ne _ _ _ h
@[simp] theorem State.die_updDie (s : State) (d : Nat) (f : RangeUnit → RangeUnit) : (s.updDie d f).die d = f (s.die d) :=
  Tbl.get_set_same _ _ _ _
@[simp] theorem State.station_updStation (s : State) (n : Nat) (f : Station → Station) :
    (s.updStation n f).station n = f (s.station n) := Tbl.get_set_same _ _ _ _
@[simp] theorem State.ctx_updCtx (s : State) (c : Nat) (f : Context → Context) : (s.updCtx c f).ctx c = f (s.ctx c) :=
  Tbl.get_set_same _ _ _ _
@[simp] theorem State.port_updPort (s : State) (p : PortName) (f : Port → Port) : (s.updPort p f).port p = f (s.port p) :=
  Tbl.get_set_same _ _ _ _

@[simp] theorem Core.gr_zero (k : Core) : k.gr 0 = 0 := rfl
@[simp] theorem Core.setG_zero (k : Core) (w : Word) : k.setG 0 w = k := rfl
theorem Core.gr_setG (k : Core) {n : Nat} (h : n ≠ 0) (m : Nat) (w : Word) : (k.setG n w).gr m = if m = n then w else k.gr m := by
  by_cases hm : m = 0
  · subst hm; simp [Core.gr, Ne.symm h]
  · simp [Core.gr, Core.setG, h, hm, Tbl.get_set]
theorem Core.fr_setF (k : Core) (n m : Nat) (w : Word) : (k.setF n w).fr m = if m = n then w else k.fr m := Tbl.get_set _ _ _ _ _
theorem Core.vr_setV (k : Core) (n m : Nat) (w : VWord) : (k.setV n w).vr m = if m = n then w else k.vr m := Tbl.get_set _ _ _ _ _
@[simp] theorem Core.slot_setSlot (k : Core) (n : Nat) (q : Slot) : (k.setSlot n q).slot n = q := Tbl.get_set_same _ _ _ _

/-! ## Names and numbers -/

theorem OctName.index_lt (o : OctName) : o.index < 384 := by have := o.cl.isLt; have := o.oct.isLt; simp only [OctName.index]; omega
theorem OctName.index_inj {o o' : OctName} (h : o.index = o'.index) : o = o' := by
  obtain ⟨c, x⟩ := o; obtain ⟨c', x'⟩ := o'
  simp only [OctName.index] at h
  have h1 : c.val = c'.val := by omega
  have h2 : x.val = x'.val := by omega
  rw [Fin.ext h1, Fin.ext h2]

/-! ## Bytes -/

theorem State.byte_putByte (s : State) (a b : Nat) (v : Byte) : (s.putByte a v).byte b = if b = a then v else s.byte b :=
  Tbl.get_set _ _ _ _ _
@[simp] theorem State.byte_updCore (s : State) (c : CoreName) (f : Core → Core) (a : Nat) : (s.updCore c f).byte a = s.byte a := rfl
@[simp] theorem State.byte_updTh (s : State) (c : CoreName) (t : Thread) (f : ThreadState → ThreadState) (a : Nat) :
    (s.updTh c t f).byte a = s.byte a := rfl
@[simp] theorem State.byte_clearMarks (s : State) (a n b : Nat) : (s.clearMarks a n).byte b = s.byte b := rfl

/-! ## Every memory operation keeps the memory's canonical form -/

theorem State.memOk_congr {s t : State} (h : s.mem = t.mem) : s.memOk = t.memOk := by unfold State.memOk; rw [h]

theorem State.memOk_reset : State.reset.memOk := rfl

theorem State.memOk_putByte {s : State} (h : s.memOk) (a : Nat) (b : Byte) : (s.putByte a b).memOk := Tbl.wf_set _ h a b

theorem State.memOk_writeLE {s : State} (h : s.memOk) (a n v : Nat) : (s.writeLE a n v).memOk := by
  induction n generalizing s a v with
  | zero => exact h
  | succ n ih => exact ih (State.memOk_putByte h _ _) _ _

theorem State.memOk_writeBytes {s : State} (h : s.memOk) (a : Nat) (l : List Byte) : (s.writeBytes a l).memOk := by
  induction l generalizing s a with
  | nil => exact h
  | cons b l ih => exact ih (State.memOk_putByte h _ _) _

theorem State.memOk_writeLanes {s : State} (h : s.memOk) (a m n w : Nat) : (s.writeLanes a m n w).memOk := by
  induction n generalizing s a m w with
  | zero => exact h
  | succ n ih =>
    simp only [State.writeLanes]
    split
    · exact ih (State.memOk_putByte h _ _) _ _ _
    · exact ih h _ _ _

theorem State.memOk_putWord {s : State} (h : s.memOk) (a : Nat) (w : Word) : (s.putWord a w).memOk := State.memOk_writeLE h _ _ _

theorem State.memOk_putWords {s : State} (h : s.memOk) (a : Nat) (l : List Word) : (s.putWords a l).memOk :=
  State.memOk_writeBytes h _ _

theorem State.memOk_zeroBytes {s : State} (h : s.memOk) (a n : Nat) : (s.zeroBytes a n).memOk := Tbl.wf_filter _ h _

theorem State.memOk_copyBytes {s : State} (h : s.memOk) (a b n : Nat) : (s.copyBytes a b n).memOk := by
  unfold State.copyBytes
  dsimp only
  have h0 := State.memOk_zeroBytes h b n
  generalize (s.mem.filter fun c => decide (a ≤ c.1 ∧ c.1 < a + n)) = l
  generalize s.zeroBytes b n = t at h0
  induction l generalizing t with
  | nil => exact h0
  | cons c l ih => exact ih _ (State.memOk_putByte h0 _ _)

theorem State.memOk_clearMarks {s : State} (h : s.memOk) (a n : Nat) : (s.clearMarks a n).memOk := h
theorem State.memOk_store {s : State} (h : s.memOk) (a n w : Nat) : (s.store a n w).memOk :=
  State.memOk_writeLE (State.memOk_clearMarks h _ _) _ _ _
theorem State.memOk_storeWords {s : State} (h : s.memOk) (a : Nat) (l : List Word) : (s.storeWords a l).memOk :=
  State.memOk_putWords (State.memOk_clearMarks h _ _) _ _
theorem State.memOk_putMark {s : State} (h : s.memOk) (a : Nat) (m : Mark) : (s.putMark a m).memOk := h

theorem State.mem_examine (s : State) (a : Nat) (l : List Nat) : (s.examine a l).1.mem = s.mem := by
  induction l generalizing s with
  | nil => rfl
  | cons g l ih =>
    simp only [State.examine]
    split <;> split <;> simp [ih, State.putMark]

theorem State.memOk_storeRecord {s : State} (h : s.memOk) (cl : Fin 16) (r : CRec) : (s.storeRecord cl r).memOk := by
  unfold State.storeRecord
  dsimp only
  rw [State.memOk_congr (State.updCluster_mem _ _ _)]
  apply State.memOk_storeWords h

theorem State.memOk_setLocal {s : State} (h : s.memOk) (c d : CoreName) (l : List Host.Cell) : (s.setLocal c d l).memOk := by
  unfold State.memOk State.setLocal Memory.wf
  generalize hf : (fun m : Host.Cell => !decide (localBase c ≤ m.1 ∧ m.1 < localBase c + 65536)) = f
  have h0 : Tbl.wf (0 : Byte) (s.mem.filter f) = true := Tbl.wf_filter _ h _
  clear hf
  dsimp only
  generalize s.mem.filter f = t at h0
  generalize localBase d = x
  generalize localBase c = y
  induction l generalizing t with
  | nil => exact h0
  | cons m l ih => exact ih _ (Tbl.wf_set _ h0 _ _)

end Sys2Proof.Machine
end

