-- ==== Sys2Proof/Laws/Trap.lean ====
section
/-! SUPPORT. What posting a record, taking a trap, waiting and retiring come to: one lemma per shared operation, for callers to
cite instead of unfolding it. -/

namespace Sys2Proof.Machine

/-! ## Posting a record changes memory, marks and event queues, nothing else (R399) -/

theorem State.storeRecord_cores (s : State) (cl : Fin 16) (r : CRec) : (s.storeRecord cl r).cores = s.cores := by
  unfold State.storeRecord
  dsimp only
  rw [State.updCluster_cores]
  exact State.storeWords_cores _ _ _
where
  State.writeBytes_cores (s : State) (a : Nat) (l : List Byte) : (s.writeBytes a l).cores = s.cores := by
    induction l generalizing s a with
    | nil => rfl
    | cons b l ih => exact (ih _ _).trans (State.putByte_cores _ _ _)
  State.storeWords_cores (s : State) (a : Nat) (l : List Word) : (s.storeWords a l).cores = s.cores :=
    (State.writeBytes_cores _ _ _).trans rfl

/-- A fold over the held records keeps what each stored record keeps. -/
theorem State.storeHeld_keeps {β : Type} (f : State → β) (h1 : ∀ s cl r, f (State.storeRecord s cl r) = f s)
    (h2 : ∀ (s : State) cl g, f (s.updCluster cl g) = f s) (s : State) (cl : Fin 16) : f (s.storeHeld cl) = f s := by
  unfold State.storeHeld
  dsimp only
  rw [h2]
  have key : ∀ (l : List CRec) (p : State × List CRec), f (l.foldl (fun (p : State × List CRec) r =>
      if p.1.canStore cl r then (p.1.storeRecord cl r, p.2) else (p.1, p.2 ++ [r])) p).1 = f p.1 := by
    intro l
    induction l with
    | nil => intro p; rfl
    | cons r l ih =>
      intro p
      rw [List.foldl_cons, ih]
      split
      · exact h1 _ _ _
      · rfl
  rw [key, h2]

theorem State.postRec_keeps {β : Type} (f : State → β) (h1 : ∀ s cl r, f (State.storeRecord s cl r) = f s)
    (h2 : ∀ (s : State) cl g, f (s.updCluster cl g) = f s) (s : State) (cl : Fin 16) (r : CRec) : f (s.postRec cl r) = f s := by
  unfold State.postRec
  split
  · exact h2 _ _ _
  · rw [State.storeHeld_keeps f h1 h2, h2]

@[simp] theorem State.postRec_cores (s : State) (cl : Fin 16) (r : CRec) : (s.postRec cl r).cores = s.cores :=
  State.postRec_keeps State.cores State.storeRecord_cores State.updCluster_cores _ _ _

@[simp] theorem State.post_cores (s : State) (cl : Fin 16) (kind obj ctx status : Nat) (value : Word) (seq : Option Nat) :
    (s.post cl kind obj ctx status value seq).cores = s.cores := State.postRec_cores _ _ _

@[simp] theorem State.postBy_cores (s : State) (c : CoreName) (t : Thread) (cl : Fin 16) (kind obj ctx status : Nat) (value : Word)
    (seq : Option Nat) : (s.postBy c t cl kind obj ctx status value seq).cores = s.cores := State.postRec_cores _ _ _

@[simp] theorem State.post_core (s : State) (cl : Fin 16) (kind obj ctx status : Nat) (value : Word) (seq : Option Nat)
    (c : CoreName) : (s.post cl kind obj ctx status value seq).core c = s.core c := by
  unfold State.core; rw [State.post_cores]

theorem State.memOk_storeHeld {s : State} (h : s.memOk) (cl : Fin 16) : (s.storeHeld cl).memOk := by
  unfold State.storeHeld
  dsimp only
  rw [State.memOk_congr (State.updCluster_mem _ _ _)]
  have key : ∀ (l : List CRec) (p : State × List CRec), p.1.memOk → (l.foldl (fun (p : State × List CRec) r =>
      if p.1.canStore cl r then (p.1.storeRecord cl r, p.2) else (p.1, p.2 ++ [r])) p).1.memOk := by
    intro l
    induction l with
    | nil => intro p hp; exact hp
    | cons r l ih =>
      intro p hp
      rw [List.foldl_cons]
      apply ih
      split
      · exact State.memOk_storeRecord hp _ _
      · exact hp
  exact key _ _ h

theorem State.memOk_postRec {s : State} (h : s.memOk) (cl : Fin 16) (r : CRec) : (s.postRec cl r).memOk := by
  unfold State.postRec
  split
  · exact h
  · exact State.memOk_storeHeld (s := s.updCluster cl _) h cl

theorem State.memOk_post {s : State} (h : s.memOk) (cl : Fin 16) (kind obj ctx status : Nat) (value : Word) (seq : Option Nat) :
    (s.post cl kind obj ctx status value seq).memOk := State.memOk_postRec h _ _

theorem State.memOk_postBy {s : State} (h : s.memOk) (c : CoreName) (t : Thread) (cl : Fin 16) (kind obj ctx status : Nat) (value : Word)
    (seq : Option Nat) : (s.postBy c t cl kind obj ctx status value seq).memOk := State.memOk_postRec h _ _

/-! ## Taking a trap (R111 to R115) -/

@[simp] theorem State.th_leaveGang (s : State) (c : CoreName) (u t : Thread) : (s.leaveGang c u).th c t = s.th c t := by
  unfold State.leaveGang
  dsimp only
  split
  · cases t <;> simp [State.th, Core.th]
  · split
    · cases t <;> simp [State.th, Core.th]
    · rfl

/-- What a trap of a thread drops first: an X-thread's captured body (R166). -/
def State.dropBody (s : State) (c : CoreName) (t : Thread) : State :=
  if t = .x then s.updCore c fun k => { k with rptBody := [] } else s

theorem State.takeTrap_a {s : State} {c : CoreName} {p : Nat} {cause : BitVec 8} {tval : Word} (h : (s.th c .a).priv = .user)
    (hc : cause ≠ Cause.checkMismatch) : s.takeTrap c .a p cause tval =
      (s.leaveGang c .a).updTh c .a fun q =>
        { q.trapRegs p cause tval with st := .trap, priv := .handler, pc := q.entry cause } := by
  simp only [State.takeTrap, h, hc, reduceIte, reduceCtorEq, or_self]

theorem State.takeTrap_x {s : State} {c : CoreName} {p : Nat} {cause : BitVec 8} {tval : Word} (h : (s.th c .x).priv = .user)
    (hc : cause ≠ Cause.checkMismatch) : s.takeTrap c .x p cause tval =
      ((s.updCore c fun k => { k with rptBody := [] }).leaveGang c .x).updTh c .x fun q =>
        { q.trapRegs p cause tval with st := .trap, priv := .handler, pc := q.entry cause } := by
  simp only [State.takeTrap, h, hc, reduceIte, reduceCtorEq, or_self]

theorem State.takeTrap_stops {s : State} {c : CoreName} {t : Thread} {p : Nat} {cause : BitVec 8} {tval : Word}
    (hs : (s.th c t).priv ≠ .supervisor) (h : cause = Cause.checkMismatch ∨ (s.th c t).priv = .handler) :
    s.takeTrap c t p cause tval =
      ((s.dropBody c t).leaveGang c t).escalate c t p cause tval := by
  cases t <;> simp only [State.takeTrap, State.dropBody, hs, h, reduceIte, reduceCtorEq]

theorem State.takeTrap_supervisor {s : State} {c : CoreName} {p : Nat} {cause : BitVec 8} {tval : Word}
    (h : (s.th c .a).priv = .supervisor) : s.takeTrap c .a p cause tval =
      if (s.th c .a).superTrap then s.stopSupervisor c .a p cause tval
      else s.updTh c .a fun q => { q.trapRegs p cause tval with st := .run, pc := q.entry cause, superTrap := true } := by
  simp only [State.takeTrap, h, reduceIte, reduceCtorEq]

/-! ## Retiring (R96) -/

/-- Outside a gang, retirement is the advance, the end of the wait, and what a HINT or TRAP leaves. -/
theorem State.retire_plain {s t : State} {n : Next} (hl : s.leads = false) (hf : s.follows = false) :
    s.retire t n = (((t.advance n).updTh s.cur s.thr ThreadState.retired).updCore s.cur fun k =>
      k.noteFlags s.cycle ((s.core s.cur).fcsr.setWidth 5)).afterwards n := by
  simp [State.retire, hl, hf]

theorem State.advance_cores_only (t : State) (n : Next) : t.advance n = { t with cores := (t.advance n).cores } := by
  cases n with
  | seq => simp only [State.advance]; split <;> rfl
  | _ => rfl

@[simp] theorem Core.noteFlags_th (k : Core) (now : Nat) (old : BitVec 5) (t : Thread) : (k.noteFlags now old).th t = k.th t := by
  unfold Core.noteFlags; dsimp only; split <;> rfl

/-! ## Waiting (R96, R97) -/

/-- A wait that blocks no queue and no stream changes the thread's wait and nothing else. -/
theorem State.waitFor_plain {s : State} {r : WReason}
    (h : let u := s.updTh s.cur s.thr fun h =>
        { h with st := if h.st = .run then .wait else h.st, wreason := r, since := some (h.since.getD s.cycle) }
      u.deadlock s.cur = u) :
    s.waitFor r = s.updTh s.cur s.thr fun h =>
      { h with st := if h.st = .run then .wait else h.st, wreason := r, since := some (h.since.getD s.cycle) } := h

end Sys2Proof.Machine
end

