-- ==== Sys2Proof/Tests/Slice0.lean ====
section
/-! SUPPORT. Tests: words written out from the spec's encoding tables, ill-formed terms, one step of many instructions, and a
witness for the hypotheses of every statement of Certificates/Slice0/Obligations.lean, under the statement's part it is for. -/

set_option linter.unusedVariables false

open Sys2Proof Sys2Proof.Machine

namespace Sys2Proof.Tests

/-! ## Small states -/

/-- A powered device whose turn is this core's and thread's, its island and its threads running, its execute boundary at 256. -/
def on (c : CoreName) (t : Thread) (f : Core → Core) : State :=
  State.updCore { State.reset with
    cur := c, thr := t, life := { Life.init with powered := true, islands := (islandOfCore c).toList.map fun n => (n, true) } } c fun k =>
    f { k with a := { k.a with st := .run }, x := { k.x with st := .run }, xb := 1 }

abbrev cC : CoreName := .compute ⟨0, 0⟩ 0
abbrev cD : CoreName := .compute ⟨0, 0⟩ 1
abbrev cK : CoreName := .control 0
abbrev cM : CoreName := .memory 0 0
abbrev cT : CoreName := .transfer ⟨0, 0⟩
abbrev cG : CoreName := .management

/-- Values in g registers 1, 2 and 3, or in f registers 1, 2 and 3. -/
def g3 (x y z : Word) (k : Core) : Core := ((k.setG 1 x).setG 2 y).setG 3 z
def f3 (x y z : Word) (k : Core) : Core := ((k.setF 1 x).setF 2 y).setF 3 z

/-- The checks that MayIssueIf asks, as one Bool. -/
def may (s : State) (legal : State → Bool) (ok : Hints) (need : Priv) : Bool :=
  s.pairFollower?.isNone && !s.yarnFull && legal s && ok.accepts (s.th s.cur s.thr).hint && !s.hintedBody &&
    (decide (need ≠ .handler) || decide ((s.th s.cur s.thr).priv ≠ .user))

theorem may_ok {s : State} {legal : State → Bool} {ok : Hints} {need : Priv} (h : may s legal ok need = true) :
    s.MayIssueIf legal ok need := by
  simp only [may, Bool.and_eq_true, Bool.or_eq_true, Bool.not_eq_true', decide_eq_true_eq, Option.isNone_iff_eq_none] at h
  obtain ⟨⟨⟨⟨⟨h1, h2⟩, h3⟩, h4⟩, h5⟩, h6⟩ := h
  exact ⟨h1, h2, h3, h4, h5, fun hn => h6.elim (absurd hn) id⟩

/-- The state after a meaning. -/
def after (o : Host.Outcome State Fault Refusal) : State :=
  match o with
  | .next s => s
  | _ => State.reset

/-- g[n] and f[n] of the current core after an instruction, its A-thread's program counter, and its cause where it trapped. -/
def gAfter (i : Instr) (s : State) (n : Nat) : Word := (after (exec i s)).me.gr n
def fAfter (i : Instr) (s : State) (n : Nat) : Word := (after (exec i s)).me.fr n
def vAfter (i : Instr) (s : State) (n : Nat) : VWord := (after (exec i s)).me.vr n
def pcAfter (i : Instr) (s : State) : Nat := (after (exec i s)).myTh.pc
def causeAfter (i : Instr) (s : State) : BitVec 8 := (after (exec i s)).myTh.tcause

def decodes (l : List (Nat × Instr)) : Prop := ∀ p ∈ l, decodeTableWord 32 p.1 = some p.2
def rejects (l : List Nat) : Prop := ∀ w ∈ l, decodeTableWord 32 w = none
def refuses (l : List Instr) : Bool := l.all fun i => !i.wellFormed

/-! ## Words of the encoding tables -/

/-- Words from the encoding tables of R44, R45, R137, R113, R139, R138, R140, R125, R39. -/
theorem test_decode_system : decodes
    [(0x041CF3C9, Instr.hintImm 1897417), (0x04400008, .hintMod 8), (0x04800002, .hintBr 2), (0x08000001, .trap 1),
     (0x08001000, .hret), (0x0A442806, .wait 18 4 true 6), (0x0A803014, .csrr 20 20), (0x0A854810, .csrw 20 5 2064),
     (0x0A815014, .csrs 20 1 20), (0x08E76014, .csrc 7 7 20), (0x091C7000, .setxb 8 28), (0x08C08006, .gangForm 6 6),
     (0x0B408100, .gangJoin 26), (0x08408200, .gangEnd 2), (0x08009000, .nop)] := by unfold decodes; decide

/-- Words from the encoding tables of R133, R135, R134. -/
theorem test_decode_branch : decodes
    [(0x0EAC12B6, Instr.beq 21 12 4790), (0x0CAB26F4, .bne 5 11 1780), (0x0C754C9D, .blt 3 21 3229),
     (0x0D737003, .bge 11 19 4099), (0x0E108DD4, .bltu 16 16 3540), (0x0D56BE9F, .bgeu 10 22 7839),
     (0x12451E71, .jal 18 335473), (0x13CFD999, .call 30 514457), (0x11D0B6B0, .jalr 14 2 14000), (0x101EC000, .ret 27),
     (0x140019B8, .bpany 0 6584), (0x14803BB8, .bpnone 4 7096), (0x14605719, .bpall 3 5913), (0x148063CD, .bpnall 4 973),
     (0x15608B35, .bfz 11 2869), (0x16E0B3EE, .bfnz 23 5102), (0x1440DF9C, .bfltz 2 8092),
     (0x1580E65B, .bfgez 12 1627)] := by unfold decodes; decide

/-- Words from the encoding tables of R123. -/
theorem test_decode_stack : decodes
    [(0x18770000, Instr.pushmG 3 23), (0x1AF70001, .pushmF 23 23), (0x196D0002, .pushmV 11 13), (0x19980004, .popmG 12 24),
     (0x191D0005, .popmF 8 29), (0x18480006, .popmV 2 8)] := by unfold decodes; decide

/-- Words from the encoding tables of R129. -/
theorem test_decode_integer : decodes
    [(0x208F3000, Instr.add 4 15 6), (0x23278801, .sub 25 7 17), (0x21D89002, .and 14 24 18), (0x21FB7803, .or 15 27 15),
     (0x23768804, .xor 27 22 17), (0x20FAD805, .sll 7 26 27), (0x21D08806, .srl 14 16 17), (0x22A4B007, .sra 21 4 22),
     (0x2145F008, .slt 10 5 30), (0x230BB809, .sltu 24 11 23), (0x2170B00A, .min 11 16 22), (0x2208080B, .max 16 8 1),
     (0x2155680C, .minu 10 21 13), (0x211F200D, .maxu 8 31 4), (0x23BC100E, .rol 29 28 2), (0x227BD00F, .ror 19 27 26),
     (0x21B00010, .clz 13 16), (0x21610011, .ctz 11 1), (0x203F0012, .popc 1 31)] := by unfold decodes; decide

/-- Words from the encoding tables of R130, R131. -/
theorem test_decode_immediate : decodes
    [(0x266D051D, Instr.addi 19 13 1309), (0x26BB1D54, .andi 21 27 3412), (0x279D22FE, .ori 28 29 766),
     (0x26663E96, .xori 19 6 3734), (0x26384C4A, .slti 17 24 3146), (0x267F5AE7, .sltiu 19 31 2791),
     (0x24DC6039, .slli 6 28 57), (0x24A97000, .srli 5 9 0), (0x26A2802D, .srai 21 2 45), (0x263F9006, .rori 17 31 6),
     (0x2BE041F8, .lui 31 16888), (0x2881391E, .luih 4 14622), (0x2BC2A148, .luit 30 41288),
     (0x2923F603, .addpc 9 62979)] := by unfold decodes; decide

/-- Words from the encoding tables of R132. -/
theorem test_decode_multiply : decodes
    [(0x2CF7E800, Instr.mul 7 23 29), (0x2EB29801, .mulh 21 18 19), (0x2D6D7802, .mulhu 11 13 15),
     (0x2E80B803, .div 20 0 23), (0x2FA57004, .divu 29 5 14), (0x2C7C8005, .rem 3 28 16),
     (0x2FBF3006, .remu 29 31 6)] := by unfold decodes; decide

/-- Words from the encoding tables of R268, R271. -/
theorem test_decode_load : decodes
    [(0x404F0666, Instr.ldb 2 15 1638), (0x41D21C31, .ldbu 14 18 3121), (0x42E3273F, .ldh 23 3 1855),
     (0x40A233A8, .ldhu 5 2 936), (0x421041ED, .ldw 16 16 493), (0x40C6526D, .ldwu 6 6 621), (0x40A4627A, .ldd 5 4 634),
     (0x400A74C1, .xpref 10 1217)] := by unfold decodes; decide

/-- Words from the encoding tables of R268, R270. -/
theorem test_decode_store : decodes
    [(0x456807AB, Instr.stb 11 8 1963), (0x45631A1A, .sth 11 3 2586), (0x47622F71, .stw 27 2 3953),
     (0x47E33106, .std 31 3 262), (0x471A4290, .stn 24 26 656)] := by unfold decodes; decide

/-- Words from the encoding tables of R277. -/
theorem test_decode_atomic : decodes
    [(0x4B0C1000, Instr.amoadd 24 12 2 false), (0x4AFC0101, .amoand 23 28 0 true), (0x4BA44802, .amoor 29 4 9 false),
     (0x48F60903, .amoxor 7 22 1 true), (0x49856104, .amomin 12 5 12 true), (0x48596805, .amomax 2 25 13 false),
     (0x4BCBB806, .amominu 30 11 23 false), (0x48D01107, .amomaxu 6 16 2 true), (0x48080808, .amoswap 0 8 1 false),
     (0x4A485809, .amocas 18 8 11 false)] := by unfold decodes; decide

/-- Words from the encoding tables of R282, R283, R284, R287, R286. -/
theorem test_decode_sync : decodes
    [(0x4C142800, Instr.bind 0 20 5), (0x4C1E0001, .acq 30), (0x4C090002, .acqr 9), (0x4C120003, .rel 18),
     (0x4C030004, .fence 3), (0x4C3AD805, .discard 1 26 27)] := by unfold decodes; decide

/-- Words from the encoding tables of R147, R148, R158. -/
theorem test_decode_stream : decodes
    [(0x50241800, Instr.scfg 1 4 3), (0x51876001, .sdim 3 0 7 12), (0x50033802, .sind 0 3 7), (0x5020F003, .sman 1 30),
     (0x50000004, .sen 0), (0x50000005, .sdis 0), (0x50600006, .sflush 3)] := by unfold decodes; decide

/-- Words from the encoding tables of R159, R167, R165. -/
theorem test_decode_queue : decodes
    [(0x54530000, Instr.ldq 2 19), (0x54530001, .stq 2 19), (0x54120002, .qput 18), (0x56600003, .qget 19),
     (0x58110169, .rpt 17 5 2 9)] := by unfold decodes; decide

/-- Words from the encoding tables of R332, R337, R339, R340, R345, R322, R346, R347. -/
theorem test_decode_channel : decodes
    [(0x61523800, Instr.send 10 18 7), (0x61EEF001, .sendm 15 14 30), (0x6261E002, .recv 19 1 28),
     (0x62634003, .recvm 19 3 8), (0x60000004, .mark), (0x62E00005, .radv 23), (0x63580006, .chstatState 26 24),
     (0x63C10806, .chstatDecl 30 1), (0x61D51006, .chstatClose 14 21), (0x63401806, .chstatKword 26),
     (0x60402006, .chstatRound 2), (0x615B2806, .chstatSeq 10 27), (0x60083807, .kickRing 8 7),
     (0x60209007, .kickMbox 0 18), (0x605F3807, .kickDone 31 7), (0x606B0007, .kickDonerec 11 0)] := by unfold decodes; decide

/-- Words from the encoding tables of R352. -/
theorem test_decode_barrier : decodes
    [(0x64151800, Instr.bcfg 21 3), (0x64001801, .barr 3), (0x64000802, .bwait 1), (0x64001803, .bsync 3),
     (0x66E00004, .btest 23 0)] := by unfold decodes; decide

/-- Words from the encoding tables of R383, R384, R385, R394, R395, R396. -/
theorem test_decode_work : decodes
    [(0x68078800, Instr.rqpush false 7 17), (0x68120001, .next 18), (0x6BE00002, .nextw 31), (0x68E46803, .append 7 4 13),
     (0x69B70004, .take 13 23), (0x68930804, .takeEndHold 4 19), (0x680B3805, .tdarm 11 7)] := by unfold decodes; decide

/-- Words from the encoding tables of R372, R376, R368, R365. -/
theorem test_decode_kernel : decodes
    [(0x6FFD0800, Instr.launch 31 29 1), (0x6CFE0001, .lwait 7 30), (0x6ECA0002, .cancel 22 10), (0x6C0A0003, .cntrd 0 10),
     (0x6D284804, .ginfo 9 8 9), (0x6C130005, .gdone 19)] := by unfold decodes; decide

/-- Words from the encoding tables of R400, R410, R411, R431, R432, R415. -/
theorem test_decode_event : decodes
    [(0x70D30000, Instr.evpop 6 19), (0x724F0001, .evpush 18 15 0), (0x711C0002, .preempt 8 28), (0x70B00003, .save 5 16),
     (0x71F90004, .restore 15 25), (0x73DAA805, .pinv 30 26 21), (0x71A0A806, .pprobe 13 0 21), (0x72A50007, .chkpair 21 5),
     (0x72720008, .hmigrate 19 18)] := by unfold decodes; decide

/-- Words from the encoding tables of R454, R447, R436. -/
theorem test_decode_link : decodes
    [(0x76920000, Instr.frpop 20 18), (0x77F80001, .timerd 31 24), (0x77E80002, .lstatRead 31 8),
     (0x76380802, .lstatEnable 17 24), (0x756C1002, .lstatDisable 11 12),
     (0x76701802, .lstatRetrain 19 16)] := by unfold decodes; decide

/-- Words from the encoding tables of R175, R176, R177. -/
theorem test_decode_scalar : decodes
    [(0x82008E50, Instr.fadd 16 0 17 6 5), (0x8167D761, .fsub 11 7 26 7 6), (0x800A8F52, .fmul 0 10 17 7 5),
     (0x81CBA263, .fdiv 14 11 20 2 6), (0x812B0754, .fsqrt 9 11 7 5), (0x802ED365, .fmin 1 14 26 3 6),
     (0x821B5E86, .fmax 16 27 11 6 8), (0x817A9F67, .fsgnj 11 26 19 7 6), (0x83E7B178, .fsgnjn 31 7 22 1 7),
     (0x82DD0D69, .fsgnjx 22 29 1 5 6), (0x80EC046A, .fclass 7 12 4 6), (0x83BB006B, .fmov 29 27 0 6),
     (0x87932F40, .fmadd 28 19 5 29 0), (0x87E35201, .fmsub 31 3 10 8 0), (0x845EAEE2, .fnmadd 2 30 21 27 2),
     (0x841C7CB3, .fnmsub 0 28 15 18 3), (0x887728A0, .fcvt 3 23 5 0 10), (0x8A239B51, .feq 17 3 19 3 5),
     (0x8BF7AE72, .flt 31 23 21 6 7), (0x8BB08783, .fle 29 16 16 7 8), (0x88050284, .funord 0 5 0 2 8),
     (0x89BE0755, .fcvtfl 13 30 7 5), (0x8A180176, .fcvtlf 16 24 1 7)] := by unfold decodes; decide

/-- Words from the encoding tables of R179. -/
theorem test_decode_scalarInteger : decodes
    [(0x8FACAA00, Instr.iadd 29 12 21 2), (0x8D738001, .isub 11 19 16 0), (0x8E42F302, .imul 18 2 30 3),
     (0x8C5F4B03, .iand 2 31 9 3), (0x8F233B04, .ior 25 3 7 3), (0x8C807E05, .ixor 4 0 15 6), (0x8D648006, .isll 11 4 16 0),
     (0x8DC47007, .isrl 14 4 14 0), (0x8E255808, .isra 17 5 11 0), (0x8CBB4409, .imin 5 27 8 4),
     (0x8C5A210A, .imax 2 26 4 1), (0x8F8F5A0B, .iminu 28 15 11 2), (0x8C7D2B0C, .imaxu 3 29 5 3),
     (0x8DF0710D, .islt 15 16 14 1), (0x8D25BB0E, .isltu 9 5 23 3), (0x8E81060F, .imovi 20 32 6)] := by unfold decodes; decide

/-- Words from the encoding tables of R180. -/
theorem test_decode_lane : decodes
    [(0xA27B2A20, Instr.vadd 19 27 5 2 2), (0xA19BFC21, .vsub 12 27 31 4 2), (0xA1502BA2, .vmul 10 16 5 3 10),
     (0xA18AF5A3, .vmin 12 10 30 5 10), (0xA25BBF94, .vmax 18 27 23 7 9), (0xA1EB9195, .vminu 15 11 18 1 9),
     (0xA230F126, .vmaxu 17 16 30 1 2), (0xA25E3197, .vand 18 30 6 1 9), (0xA3B096A8, .vor 29 16 18 6 10),
     (0xA1B2F929, .vxor 13 18 31 1 2), (0xA3D189AA, .vsll 30 17 17 1 10), (0xA151BDAB, .vsrl 10 17 23 5 10),
     (0xA2BF19AC, .vsra 21 31 3 1 10), (0xA141972D, .vmulh 10 1 18 7 2), (0xA30FAFAE, .vmulhu 24 15 21 7 10),
     (0xA039EA9F, .vabsd 1 25 29 2 9)] := by unfold decodes; decide

/-- Words from the encoding tables of R181, R182. -/
theorem test_decode_floatLane : decodes
    [(0xA44EEA50, Instr.vfadd 2 14 29 2 5), (0xA6FB2A61, .vfsub 23 27 5 2 6), (0xA5893A82, .vfmul 12 9 7 2 8),
     (0xA67D8F63, .vfdiv 19 29 17 7 6), (0xA4240684, .vfsqrt 1 4 6 8), (0xA6A03A55, .vfmin 21 0 7 2 5),
     (0xA4DDE976, .vfmax 6 29 29 1 7), (0xA5EE0277, .vfabs 15 14 2 7), (0xA7280778, .vfneg 25 8 7 7),
     (0xA4D4E589, .vfeq 6 20 28 5 8), (0xA44EC15A, .vflt 2 14 24 1 5), (0xA410BE6B, .vfle 0 16 23 6 6),
     (0xA77C06AC, .vsel 27 28 0 6 10), (0xAA5F77F0, .vfmadd 18 31 14 31 3 0), (0xA86F802D, .vfmsub 3 15 16 0 2 3),
     (0xA9B4335E, .vfnmadd 13 20 6 13 1 3), (0xA9210F6F, .vfnmsub 9 1 1 29 2 3)] := by unfold decodes; decide

/-- Words from the encoding tables of R184, R185, R186. -/
theorem test_decode_permute : decodes
    [(0xAE7FC670, Instr.vperm 19 31 24 6 7), (0xAC770721, .vbcast 3 23 7 2), (0xAD0F1152, .vslup 8 15 2 1 5),
     (0xAD88FF23, .vsldn 12 8 31 7 2), (0xAD1A0294, .vcompr 8 26 2 9), (0xACFA0685, .vexpnd 7 26 6 8),
     (0xAEAA0026, .vrsum 21 10 0 2), (0xAF060767, .vrmax 24 6 7 6), (0xAD1F0298, .vrmin 8 31 2 9),
     (0xAFD9F0A9, .vtopk 30 25 30 0 10), (0xACD5828A, .vzip 6 21 16 2 8), (0xAE1B2AAB, .vunzip 16 27 5 2 10),
     (0xADAE035C, .vrev 13 14 3 5)] := by unfold decodes; decide

/-- Words from the encoding tables of R183. -/
theorem test_decode_predicate : decodes
    [(0xB0E11200, Instr.pand 7 1 2 2), (0xB0A02901, .por 5 0 5 1), (0xB0623A02, .pxor 3 2 7 2), (0xB0050203, .pnot 0 5 2),
     (0xB0ED3264, .loopp 7 13 6 2 6), (0xB0E9E7A5, .vcmpeq 7 9 28 7 10), (0xB041B196, .vcmplt 2 1 22 1 9),
     (0xB0F43A27, .vcmpltu 7 20 7 2 2), (0xB03111A8, .vcmple 1 17 2 1 10), (0xB0CB43A9, .vcmpleu 6 11 8 3 10),
     (0xB0C1028A, .pcnt 6 1 2 8), (0xB340042B, .pfirst 26 0 4 2)] := by unfold decodes; decide

/-- Words from the encoding tables of R187, R207, R208, R209, R191, R190, R192, R188. -/
theorem test_decode_convert : decodes
    [(0xB74C3F90, Instr.vcvt 26 12 7 7 9), (0xB44D2921, .vcvtr 2 13 5 1 2), (0xB6C83582, .vderot 22 8 6 5 8),
     (0xB4320803, .hsld 1 18 1), (0xB7A20004, .hsrd 29 2), (0xB8480E70, .vppe 2 8 1 6), (0xB8037101, .ppld 0 3 14 1),
     (0xBA397782, .vrng 17 25 14 7 8), (0xBA000003, .vlq 16), (0xBACEB094, .vmovf 22 14 22 9)] := by unfold decodes; decide

/-- Words from the encoding tables of R221, R251, R238, R219, R211, R224. -/
theorem test_decode_matrix : decodes
    [(0xC322B000, Instr.mma 25 2 22), (0xC080A801, .mmaz 4 0 21), (0xC084E802, .mmaad 4 4 29), (0xC073C803, .msca 3 19 25),
     (0xC04F5804, .mscars 2 15 11), (0xC0BE0005, .geom 5 30), (0xC0000006, .msync),
     (0xC1E18807, .psrd 15 1 17)] := by unfold decodes; decide

/-- Words from the encoding tables of R230, R231, R232, R238, R233. -/
theorem test_decode_handle : decodes
    [(0xC6900000, Instr.halloc 20 16), (0xC4150001, .hfree 21), (0xC410B002, .hcfg 16 22), (0xC40E6003, .hrowld 14 12),
     (0xC7A80004, .hrowst 29 8), (0xC4137005, .hcolld 19 14), (0xC7740006, .hcolst 27 20), (0xC41B0007, .hzero 27),
     (0xC4050008, .hdrain 5), (0xC4060009, .hrescale 6), (0xC611000A, .hstat 16 17)] := by unfold decodes; decide

/-- Words from the encoding tables of R225, R226, R259, R260, R261, R262. -/
theorem test_decode_adapter : decodes
    [(0xC80E6000, Instr.reda 0 14 12), (0xCA20D001, .redx 17 0 26), (0xC8077010, .adtbl 7 14), (0xC81B0011, .ainv 27),
     (0xC81C6812, .apref 28 13), (0xC9600013, .astat 11 0)] := by unfold decodes; decide

/-- Words from the encoding tables of R304, R306, R307, R309. -/
theorem test_decode_external : decodes
    [(0xE12E0000, Instr.xld 9 14), (0xE3630001, .xst 27 3), (0xE15B0002, .xldcol 10 27), (0xE32D0003, .xstcol 25 13),
     (0xE7D50000, .xgath 30 21), (0xE5B00001, .xscat 13 16), (0xE4CB0002, .xred 6 11),
     (0xE4FF0003, .xprog 7 31)] := by unfold decodes; decide

/-- Words from the encoding tables of R312, R313, R314. -/
theorem test_decode_program : decodes
    [(0xEB345000, Instr.xpush 25 20 10), (0xEAC8F801, .xpull 22 8 31), (0xEAE40002, .xwait 23 4),
     (0xEA209003, .xsect 17 0 18)] := by unfold decodes; decide

/-- Words from the encoding tables of R315, R317. -/
theorem test_decode_expand : decodes
    [(0xEC351000, Instr.xexp24 1 21 2), (0xEFEE0801, .xbdot 31 14 1)] := by unfold decodes; decide

/-- Words that R40 refuses: all zeros and all ones, unassigned majors, a field that is not named and not zero (NOP, HRET), a
reserved rounding of FADD's family, a reserved hint kind. -/
theorem test_rejects : rejects [0, 0xFFFFFFFF, 0x30000000, 0x3FFFFFFF, 0xF0000000, 0x08009001, 0x08001001, 0x07000000] := by
  unfold rejects; decide

theorem test_illFormedFields : refuses
    [Instr.hintMod 0, .hintBr 3, .wait 30 18 false 13, .csrr 24 3709, .csrw 26 15 1048, .csrs 17 25 4052, .csrc 3 6 706,
     .gangForm 14 0, .pushmG 26 4, .pushmF 22 12, .pushmV 23 0, .popmG 26 11, .popmF 23 13, .popmV 25 8, .bind 15 15 4,
     .fence 21, .discard 18 22 12, .send 17 2 25, .sendm 30 11 10, .ginfo 23 11 1, .wait 1 2 false 3, .wait 1 0 false 0,
     .ginfo 1 10 0, .ginfo 1 3 1, .hintBr 3, .csrr 1 0x005, .csrw 1 2 0x000] = true := by decide

theorem test_illFormedScalar : refuses
    [Instr.fadd 17 22 21 0 2, .fsub 31 1 22 0 10, .fmul 0 1 25 6 10, .fdiv 24 3 8 5 10, .fsqrt 28 16 2 2, .fmin 26 11 3 2 2,
     .fmax 3 27 2 7 10, .fsgnj 26 2 27 2 9, .fsgnjn 19 31 26 5 9, .fsgnjx 13 5 31 5 9, .fclass 29 3 7 9, .fmov 21 4 0 2,
     .fcvt 7 22 9 5 10, .feq 26 5 14 5 2, .flt 17 2 10 0 10, .fle 11 2 25 6 9, .funord 17 3 30 1 10, .fcvtfl 29 4 5 9,
     .fcvtlf 14 22 4 9, .fcvt 1 2 2 0 9, .fcvt 1 2 11 0 5] = true := by decide

theorem test_illFormedLane : refuses
    [Instr.vadd 1 10 26 7 8, .vsub 0 4 19 5 8, .vmul 23 10 26 1 5, .vmin 17 19 10 5 8, .vmax 1 12 2 6 6, .vminu 9 16 10 6 6,
     .vmaxu 29 20 24 4 6, .vand 6 2 25 6 7, .vor 11 25 3 1 8, .vxor 13 15 1 3 6, .vsll 19 13 1 7 6, .vsrl 13 9 27 2 6,
     .vsra 15 31 22 6 5, .vmulh 6 26 12 7 7, .vmulhu 27 29 18 6 8, .vabsd 27 5 10 1 6, .vfadd 2 27 26 7 9,
     .vfsub 1 8 27 7 2, .vfmul 5 16 14 3 2, .vfdiv 14 11 3 1 9, .vfsqrt 25 25 1 2, .vfmin 25 11 28 4 2, .vfmax 6 23 15 0 10,
     .vfabs 23 22 0 9, .vfneg 6 14 3 10, .vfeq 27 20 26 5 2, .vflt 31 31 30 1 5, .vfle 25 19 16 0 10, .vfeq 8 1 2 0 7,
     .vfeq 1 1 2 0 4] = true := by decide

theorem test_illFormedPermute : refuses
    [Instr.vperm 0 1 0 4 3, .vbcast 5 20 0 4, .vslup 0 2 0 1 0, .vsldn 5 7 20 7 1, .vcompr 1 2 0 3, .vexpnd 0 3 4 0,
     .vrsum 20 20 4 4, .vrmax 1 5 4 1, .vrmin 0 20 3 0, .vtopk 2 5 9 7 2, .vzip 1 7 16 0 0, .vunzip 3 3 2 4 0,
     .vrev 5 16 0 3, .pand 14 24 27 4, .por 8 27 8 5, .pxor 21 0 6 0, .pnot 15 6 2, .loopp 11 29 6 0 8,
     .vcmpeq 23 11 16 4 7, .vcmplt 17 23 27 0 8, .vcmpltu 26 22 5 6 10, .vcmple 8 26 16 5 8, .vcmpleu 15 7 4 4 5,
     .pcnt 13 11 0 5, .pfirst 27 28 0 7, .vcvtr 16 18 2 7 7, .vderot 26 17 9 5 6, .hsld 0 13 3, .vppe 28 23 17 1,
     .ppld 9 20 8 1, .vrng 16 1 28 6 7, .vmovf 3 20 1 0, .pand 1 8 2 0, .pand 1 2 8 0, .pnot 1 8 0, .loopp 8 1 2 0 7,
     .loopp 1 1 2 0 0, .vcmpeq 8 1 2 0 2, .vcmpeq 1 1 2 0 7, .pcnt 1 8 0 7, .pcnt 1 2 0 1, .vcvt 1 2 11 0 5,
     .vcvt 1 2 5 0 11, .vcvtr 1 2 5 0 7, .vcvtr 1 2 7 0 8, .vderot 1 2 7 0 8, .vderot 1 2 5 0 5, .hsld 8 1 0,
     .hsld 1 1 3] = true := by decide

theorem test_illFormedMatrix : refuses
    [Instr.psrd 7 18 6, .reda 16 10 4, .redx 14 10 1, .xexp24 21 10 13] = true := by decide

/-! ## What one instruction does: results worked out by hand from the rules named -/

/-- R129: sums wrap; under SAT they saturate. -/
theorem test_add_wraps : gAfter (.add 4 1 2) (on cC .a (g3 (BitVec.allOnes 64) 2 0)) 4 = 1 := by decide
theorem test_add_saturates : gAfter (.add 4 1 2)
    (on cC .a fun k => { g3 0x7FFFFFFFFFFFFFFF 5 0 k with a := { k.a with hint := some (.mod 1) } }) 4 = 0x7FFFFFFFFFFFFFFF := by decide
/-- R89: g0 discards. -/
theorem test_g0_discards : gAfter (.add 0 1 2) (on cC .a (g3 7 8 0)) 0 = 0 := by decide
theorem test_sub_borrows : gAfter (.sub 4 1 2) (on cC .a (g3 3 5 0)) 4 = 0xFFFFFFFFFFFFFFFE := by decide
theorem test_sra_keeps_sign : gAfter (.sra 4 1 2) (on cC .a (g3 0x8000000000000000 63 0)) 4 = BitVec.allOnes 64 := by decide
theorem test_srl_shifts_zero_in : gAfter (.srl 4 1 2) (on cC .a (g3 0x8000000000000000 63 0)) 4 = 1 := by decide
/-- R129: the amount is taken mod 64. -/
theorem test_sll_amount_mod_64 : gAfter (.sll 4 1 2) (on cC .a (g3 3 65 0)) 4 = 6 := by decide
theorem test_slt_signed : gAfter (.slt 4 1 2) (on cC .a (g3 (BitVec.allOnes 64) 0 0)) 4 = 1 := by decide
theorem test_sltu_unsigned : gAfter (.sltu 4 1 2) (on cC .a (g3 (BitVec.allOnes 64) 0 0)) 4 = 0 := by decide
theorem test_rol_turns : gAfter (.rol 4 1 2) (on cC .a (g3 0x8000000000000001 1 0)) 4 = 3 := by decide
theorem test_clz_of_zero : gAfter (.clz 4 1) (on cC .a (g3 0 0 0)) 4 = 64 := by decide
theorem test_ctz_of_eight : gAfter (.ctz 4 1) (on cC .a (g3 8 0 0)) 4 = 3 := by decide
theorem test_addi_sign_extends : gAfter (.addi 4 1 0xFFF) (on cC .a (g3 10 0 0)) 4 = 9 := by decide
/-- R44: a HINT of kind IMM widens the immediate. -/
theorem test_addi_widened : gAfter (.addi 4 0 0xC00) (on cC .a fun k => { k with a := { k.a with hint := some (.imm 15) } }) 4 = 0xFC00 := by
  decide
/-- R131, the worked example: LUIH then LUIT build 0x0000_FE00_0000_FC00. -/
theorem test_luih_places : gAfter (.luih 1 0xFE00) (on cC .a (g3 0xFC00 0 0)) 1 = 0xFFFFFE000000FC00 := by decide
theorem test_luit_places : gAfter (.luit 1 0) (on cC .a (g3 0xFFFFFE000000FC00 0 0)) 1 = 0x0000FE000000FC00 := by decide
/-- R132: the corners of division. -/
theorem test_div_by_zero : gAfter (.div 4 1 2) (on cC .a (g3 7 0 0)) 4 = BitVec.allOnes 64 := by decide
theorem test_div_overflow : gAfter (.div 4 1 2) (on cC .a (g3 0x8000000000000000 (BitVec.allOnes 64) 0)) 4 = 0x8000000000000000 := by
  decide
theorem test_div_truncates : gAfter (.div 4 1 2) (on cC .a (g3 0xFFFFFFFFFFFFFFF9 2 0)) 4 = 0xFFFFFFFFFFFFFFFD := by decide
theorem test_rem_sign : gAfter (.rem 4 1 2) (on cC .a (g3 0xFFFFFFFFFFFFFFF9 2 0)) 4 = BitVec.allOnes 64 := by decide
theorem test_mulh_floor : gAfter (.mulh 4 1 2) (on cC .a (g3 (BitVec.allOnes 64) 1 0)) 4 = BitVec.allOnes 64 := by decide
theorem test_mulhu_high : gAfter (.mulhu 4 1 2) (on cC .a (g3 (BitVec.allOnes 64) 2 0)) 4 = 1 := by decide

/-- R133: a taken branch goes to P + 4·o, backward as well. -/
theorem test_beq_backward : pcAfter (.beq 1 2 0x1FFF) (on cC .a fun k => { g3 5 5 0 k with a := { k.a with pc := 0x40 } }) = 0x3C := by
  decide
theorem test_bne_not_taken : pcAfter (.bne 1 2 0x10) (on cC .a fun k => { g3 5 5 0 k with a := { k.a with pc := 0x40 } }) = 0x44 := by
  decide
/-- R118: a target below 0 traps with FETCH_BOUNDARY, at the overlay entry. -/
theorem test_branch_below_zero_traps : causeAfter (.beq 0 0 0x1FFF) (on cC .a id) = 0x03 := by decide
/-- R135: the link is P + 4 and the source is read first. -/
theorem test_jalr_reads_before_link : pcAfter (.jalr 1 1 4) (on cC .a (g3 0x20 0 0)) = 0x24 := by decide
theorem test_jal_links : gAfter (.jal 31 0x10) (on cC .a fun k => { k with a := { k.a with pc := 8 } }) 31 = 12 := by decide
/-- R135: a misaligned target traps. -/
theorem test_ret_misaligned : causeAfter (.ret 1) (on cC .a (g3 0x22 0 0)) = 0x04 := by decide

/-- R111: the entry is TVEC.BASE·64; TPC names the instruction. -/
theorem test_trap_entry : (let s := on cC .a fun k => { k with a := { k.a with pc := 0x20, tvec := 2 } }
    let t := s.takeTrap cC .a 0x20 Cause.misaligned 0x33
    ((t.th cC .a).pc, (t.th cC .a).tpc, (t.th cC .a).tval, (t.th cC .a).priv, (t.th cC .a).ppriv)) =
      (128, 8, 0x33, Priv.handler, Priv.user) := by decide
/-- R112: a second trap at handler level stops the thread. -/
theorem test_nested_trap_stops : ((after (exec .hret (on cC .a fun k => { k with a := { k.a with hint := some (.mod 1), priv := .handler } }))).th
    cC .a).st = TState.stop := by decide
/-- R113: HRET goes back to TPC at the saved level. -/
theorem test_hret_returns : (let t := after (exec .hret (on cC .a fun k =>
      { k with a := { k.a with st := .trap, priv := .handler, ppriv := .user, tpc := 5 } }))
    ((t.th cC .a).pc, (t.th cC .a).priv, (t.th cC .a).st)) = (20, Priv.user, TState.run) := by decide
/-- R98: HRET at user level traps with PRIVILEGE. -/
theorem test_hret_privilege : causeAfter .hret (on cC .a id) = 0x02 := by decide
/-- R137: TRAP saves the address after it. -/
theorem test_trap_code : (let t := after (exec (.trap 0x123) (on cC .a fun k => { k with a := { k.a with pc := 0x10 } }))
    ((t.th cC .a).tcause, (t.th cC .a).tval, (t.th cC .a).tpc)) = (0x22#8, 0x123#64, 5#15) := by decide
/-- R40: an A-thread's instruction in an X-thread. -/
theorem test_wrong_class : causeAfter (.add 1 2 3) (on cC .x id) = 0x01 := by decide
/-- R46: SUB accepts no RELAXED. -/
theorem test_hint_misuse : causeAfter (.sub 1 2 3) (on cC .a fun k => { k with a := { k.a with hint := some (.mod 4) } }) = 0x23 := by decide
/-- R140. -/
theorem test_setxb_moves : (let t := after (exec (.setxb 4 1) (on cC .a fun k => { g3 0x300 0 0 k with a := { k.a with priv := .handler } }))
    (t.me.xb, t.me.gr 4)) = (3#9, 0x100#64) := by decide

/-- R267: bytes lie little-endian; LDB sign-extends, LDBU does not. -/
theorem test_store_then_load : (let s := after (exec (.stw 1 2 0) (on cC .a (g3 0x80FF 0x200 0)))
    (gAfter (.ldb 4 2 1) s 4, gAfter (.ldbu 4 2 1) s 4, gAfter (.ldh 4 2 0) s 4)) =
      (0xFFFFFFFFFFFFFF80#64, 0x80#64, 0xFFFFFFFFFFFF80FF#64) := by decide
/-- R117: data access below XB. -/
theorem test_store_below_xb : causeAfter (.stb 1 2 0) (on cC .a (g3 1 0x80 0)) = 0x05 := by decide
theorem test_load_misaligned : causeAfter (.ldw 4 2 2) (on cC .a (g3 1 0x200 0)) = 0x04 := by decide
/-- R270: STN writes one nibble. -/
theorem test_stn_high_nibble : (let s := after (exec (.stb 1 2 0) (on cC .a (g3 0x21 0x200 0)))
    gAfter (.ldbu 4 2 0) (after (exec (.stn 3 2 1) (s.mine fun k => k.setG 3 0xF))) 4) = 0xF1 := by decide
/-- R277: an atomic gives the old value, sign-extended from 32 bits. -/
theorem test_amoadd_old : (let s := after (exec (.stw 1 2 0) (on cC .a (g3 0x80000000 0x100000 1)))
    gAfter (.amoadd 4 2 3 false) s 4) = 0xFFFFFFFF80000000 := by decide

/-- R175 with F32: 1.5 + 2.25 is 3.75; 1/3 rounds to nearest. -/
theorem test_fadd_f32 : fAfter (.fadd 4 1 2 0 7) (on cC .x (f3 0x3FC00000 0x40100000 0)) 4 = 0x40700000 := by decide
theorem test_fdiv_f32 : fAfter (.fdiv 4 1 2 0 7) (on cC .x (f3 0x3F8000003F800000 0x4040000040400000 0)) 4 = 0x3EAAAAAB3EAAAAAB := by decide
theorem test_fmul_overflow_flags : (let t := after (exec (.fmul 4 1 2 0 8) (on cC .x (f3 0x7FE0000000000000 0x7FE0000000000000 0)))
    (t.me.fr 4, t.me.fcsr &&& 0x1F)) = (0x7FF0000000000000#64, 0b00101#9) := by decide
theorem test_imul_wraps : fAfter (.imul 4 1 2 0) (on cC .x (f3 (BitVec.allOnes 64) 3 0)) 4 = 0xFFFFFFFFFFFFFFFD := by decide
theorem test_vbcast_fills : (vAfter (.vbcast 4 1 0 10) (on cC .x (f3 0x11223344 0 0)) 4 >>> 992).toNat = 0x11223344 := by
  decide +kernel
theorem test_vadd_lanes_apart : (vAfter (.vadd 4 1 2 0 2) (on cC .x fun k => (k.setV 1 0xFF01).setV 2 0x0102) 4).toNat = 3 := by
  decide +kernel
/-- R183: p0 reads all ones. -/
theorem test_pnot_of_p0 : (after (exec (.pnot 1 0 0) (on cC .x id))).me.pr 1 = 0 := by decide

/-- R92: a put by one thread is got by the other, oldest first. -/
theorem test_queue_order : (let s := after (exec (.qput 2) (after (exec (.qput 1) (on cC .a (g3 7 8 0)))))
    fAfter (.qget 4) { s with thr := .x } 4) = 7 := by decide
theorem test_qget_empty_waits : (let t := after (exec (.qget 4) (on cC .a id)); ((t.th cC .a).st, (t.th cC .a).wreason)) =
    (TState.wait, WReason.queue) := by decide

/-- R31, R86: a placed word is fetched, decoded and executed, and the program counter moves on. -/
theorem test_step_runs_placed_word : (let t := after (step (State.reset.withFetchWord 32 0x24E00005))
    ((t.core cC).gr 7, (t.th cC .a).pc)) = (5#64, 4) := by decide
/-- R457: from reset with an empty flash the device halts with NO_IMAGE. -/
theorem test_power_on_without_image : (let t := after (step State.reset); (t.life.powered, t.life.status)) = (true, 2) := by decide

/-! ## The hypotheses of the statements can be met -/

/-- An unlisted granule is correct. -/
theorem intact_of_marks {s : State} (h : s.marks = []) : s.intact := by intro g; unfold State.mark; rw [h]; rfl

/-- StepRunsDecodedWord: a thread's turn, a word that decodes, one that does not, a fetch at XB, a poisoned granule, an event. -/
theorem witness_step : (let s := on cC .a id
    let t := s.tick 1;
    s.life.powered = true ∧ s.turns = [] ∧ t.canIssue t.cur t.thr = true ∧ t.follows = false ∧ t.thr = .a ∧
      t.myTh.pc < t.xbOf t.cur ∧ (∀ g ∈ granules (localBase t.cur + t.myTh.pc) 4, t.mark g = .ok)) := by decide
def isWord : NextWord → Bool
  | .word _ => true
  | _ => false
theorem witness_step_word : isWord ((on cC .a id).tick 1).nextWord = true := by decide
theorem witness_step_outside : (let t := (on cC .a fun k => { k with a := { k.a with pc := 256 } }).tick 1;
    t.canIssue t.cur t.thr = true ∧ t.xbOf t.cur ≤ t.myTh.pc) := by decide
theorem witness_step_bad : (let t := ((on cC .a id).putMark (localBase cC) .poisoned).tick 1;
    t.canIssue t.cur t.thr = true ∧ t.myTh.pc < t.xbOf t.cur ∧ ∃ g ∈ granules (localBase t.cur + t.myTh.pc) 4, t.mark g ≠ .ok) := by
  decide
theorem witness_step_decodes : decode 0x24E00005 = .ok (.addi 7 0 5) ∧ (∃ e, decode 0 = .error e) ∧ encodeNat .powerLoss = none :=
  ⟨rfl, ⟨_, rfl⟩, rfl⟩

/-- FetchAndIssueTraps: an aligned program counter over a correct, an uncorrectable and a poisoned granule; a leader with full
followers; the wrong class, a misplaced hint, user level. -/
theorem witness_fetch_traps : (let s := on cC .a id;
    s.myTh.pc % 4 = 0 ∧ s.mark (localBase cC) = .ok ∧ (s.putMark (localBase cC) .bad).mark (localBase cC) = .bad ∧
      (s.putMark (localBase cC) .poisoned).mark (localBase cC) = .poisoned) := by decide
theorem witness_issue_checks : (let s := on cC .a id;
    s.pairFollower? = none ∧ s.yarnFull = false ∧ xAll.legal s = false ∧ axAll.legal s = true ∧ s.myTh.priv = .user ∧
      noHint.accepts (some (.mod 4)) = false ∧ s.thr = .a ∧ (on cC .x id).thr = .x ∧ (on cC .x id).yarnFull = false) := by decide
theorem witness_yarn_full : (let s := (on cC .a fun k => { k with gang := ⟨1, false, true, false, 0, 0, false, [], false⟩ }).updCore cD fun k => { k with gang := ⟨0, true, true, false, 0, 1, false, List.replicate 8 (0, 0, 4), false⟩ }
    s.yarnFull = true ∧ s.pairFollower? = none) := by decide

/-- TrapEntry, TrapEscalation: user, handler and supervisor level, before and after a supervisor's first trap. -/
theorem witness_trap_levels : (let s := fun (p : Priv) (b : Bool) => on cK .a fun k => { k with a := { k.a with priv := p, superTrap := b } };
    ((s .user false).th cK .a).priv = .user ∧ Cause.misaligned ≠ Cause.checkMismatch ∧ ((s .handler false).th cK .a).priv = .handler ∧
      ((s .supervisor false).th cK .a).superTrap = false ∧ ((s .supervisor true).th cK .a).superTrap = true ∧
      ((s .supervisor true).th cK .a).priv = .supervisor) := by decide

/-- ReturnFromTrap. -/
theorem witness_hret : (on cC .a fun k => { k with a := { k.a with priv := .handler } }).MayIssue axAll noHint .handler ∧
    (on cC .a id).MayIssue axAll noHint .user ∧ (on cC .a id).myTh.priv = .user ∧
    (on cC .a fun k => { k with a := { k.a with priv := .handler } }).leads = false ∧
    (on cC .a fun k => { k with a := { k.a with priv := .handler } }).follows = false :=
  ⟨may_ok (by decide), may_ok (by decide), by decide, by decide, by decide⟩

/-- RetireFrame: outside and inside a repetition, in the body, at the end of a pass, at the end. -/
def repeating (b l : BitVec 4) (i c : BitVec 24) : State :=
  on cC .x fun k => { k with rpt := ⟨true, b, l, 0, 0, i, c⟩, rptBody := [0, 0] }
theorem witness_retire : (let s := repeating;
    (on cC .a id).leads = false ∧ (on cC .a id).follows = false ∧ (s 0 1 0 2).leads = false ∧ (s 0 1 0 2).thr = .x ∧
      (s 0 1 0 2).me.rptBody ≠ [] ∧ ((s 0 1 0 2).me.rpt.body < (s 0 1 0 2).me.rpt.len) ∧
      ((s 1 1 0 2).me.rpt.body = (s 1 1 0 2).me.rpt.len ∧ (s 1 1 0 2).me.rpt.iter.toNat + 1 < (s 1 1 0 2).me.rpt.count.toNat) ∧
      ((s 1 1 1 2).me.rpt.body = (s 1 1 1 2).me.rpt.len ∧ (s 1 1 1 2).me.rpt.count.toNat ≤ (s 1 1 1 2).me.rpt.iter.toNat + 1)) := by
  decide

/-- MemoryReadAfterWrite: disjoint ranges of a canonical memory. -/
theorem witness_memory : State.reset.memOk ∧ 8 + 8 ≤ 16 ∧ 3 < 8 := ⟨rfl, by decide, by decide⟩

/-- StepsKeepMemoryForm, IntegerFrame, LaneFrame, AccessFrame: a next state in which the thread goes on. -/
theorem witness_frames : (let s := on cC .a (g3 1 0x200 3);
    s.thr = .a ∧ s.pairFollower? = none ∧ s.myTh.relaxed = [] ∧ s.memOk ∧
      (∃ t, exec (.add 4 1 2) s = .next t ∧ (t.th s.cur .a).st ≠ .stop) ∧
      (∃ t, exec (.ldd 4 2 0) s = .next t ∧ (t.th s.cur .a).st ≠ .stop) ∧
      (∃ t, exec (.std 1 2 0) s = .next t ∧ (t.th s.cur .a).st ≠ .stop)) :=
  ⟨rfl, by decide, by decide, rfl, ⟨_, rfl, by decide⟩, ⟨_, rfl, by decide⟩, ⟨_, rfl, by decide⟩⟩
/-- AccessFrame: an address with a home, one without, one outside the map, one misaligned. -/
theorem witness_access_homes : (let s := on cC .a id;
    (State.resolve (s.noted 0x200) s.cur 0x200 false true).2 = .at_ (.here (localBase cC + 0x200)) ∧
      (State.resolve (s.noted (2 ^ 63)) s.cur (2 ^ 63) false true).2 ≠ .at_ (.here 0) ∧ s.mapOk s.cur 0x80 = false ∧ 0x201 % 8 ≠ 0) := by
  decide
theorem witness_lane_frame : (let s := on cC .x (f3 0x3F800000 0x40000000 0);
    s.thr = .x ∧ s.pairFollower? = none ∧ s.proper [4, 1, 2, 3] ∧ ∃ t, exec (.fadd 4 1 2 0 7) s = .next t ∧ (t.th s.cur .x).st ≠ .stop) :=
  ⟨rfl, by decide, by unfold State.proper; decide, ⟨_, rfl, by decide⟩⟩

/-- CheckedPairResults: a pair that agrees, and one whose cores disagree on a branch. -/
def pair (f : Core → Core) : State :=
  (on cC .a fun k => { g3 5 5 0 k with gang := ⟨1, false, true, true, 0, 0, false, [], false⟩ }).updCore cD fun k =>
    f { k with a := { k.a with st := .run }, gang := ⟨0, true, true, true, 0, 1, false, [], false⟩ }
theorem witness_pair : (let s := pair (g3 5 6 0);
    s.pairFollower? = some cD ∧ s.thr = .a ∧ (s.th s.cur .a).hint = none ∧ (s.th cD .a).hint = none ∧
      (s.th s.cur .a).pc = (s.th cD .a).pc ∧ (s.th s.cur .a).priv = .user ∧ (s.th cD .a).priv = .user ∧
      (0 : Int) ≤ (s.th s.cur .a).pc + 4 * s.immOf 13 16 ∧ s.immOf 13 16 ≠ 1 ∧
      decide ((s.core s.cur).gr 1 = (s.core s.cur).gr 2) ≠
        decide ((s.core cD).gr 1 = (s.core cD).gr 2)) := by decide
/-- R416: both cores of a pair add, each its own registers. -/
theorem test_pair_adds : (let t := after (exec (.add 4 1 2) (pair (g3 1 2 0)));
    ((t.core cC).gr 4, (t.core cD).gr 4)) = (10#64, 3#64) := by decide +kernel
theorem test_pair_branch_mismatch : (let t := after (exec (.beq 1 2 16) (pair (g3 5 6 0)));
    ((t.th cC .a).st, (t.th cD .a).st, (t.th cC .a).tcause)) = (TState.stop, TState.stop, 0x0C#8) := by decide +kernel

/-- The A-thread's instructions of every kind of core: IntegerResults, BranchAndJumpTargets, HintNopTrapResults, CsrAndWaitResults,
SetBoundaryResults, GangResults, StackResults, LoadAndPrefetchResults, StoreResults, AtomicResults, SyncAndDiscardResults. -/
theorem witness_a_thread (ok : Hints) : (on cC .a id).MayIssue aAll ok .user ∧ (on cC .a id).MayIssue axAll ok .user ∧
    (on cC .a id).MayIssue aCompute ok .user ∧
    (on cC .a fun k => { k with a := { k.a with priv := .handler } }).MayIssue axAll ok .handler ∧
    (on cC .a fun k => { k with a := { k.a with hint := some (.mod 1) } }).MayIssue aAll satOnly .user ∧
    (on cC .a fun k => { k with a := { k.a with hint := some (.mod 4) } }).MayIssue aAll storeHints .user ∧
    (on cC .a fun k => { k with a := { k.a with hint := some (.mod 8) } }).MayIssue aAll loadHints .user :=
  ⟨may_ok rfl, may_ok rfl, may_ok rfl, may_ok rfl, may_ok (by decide), may_ok (by decide), may_ok (by decide)⟩

/-- The X-thread's: ScalarResults, VectorResults,
PermuteAndReductionResults, RotationAndExpandResults, RepetitionResults. -/
theorem witness_x_thread (ok : Hints) : (on cC .x id).MayIssue xAll ok .user ∧ (on cC .x id).MayIssue axAll ok .user ∧
    (on cM .x id).MayIssue xMemory ok .user ∧ (∀ l, (on cC .x id).proper l) ∧ (∀ l, (on cM .x id).proper l) := by
  refine ⟨may_ok rfl, may_ok rfl, may_ok rfl, fun l r _ => ?_, fun l r _ => ?_⟩
  · exact (show ∀ r : Reg, (on cC .x id).me.alias? r.val = none by decide) r
  · exact (show ∀ r : Reg, (on cM .x id).me.alias? r.val = none by decide) r

/-- A near access whose home is free of marks reaches it. -/
theorem reaches_near {s : State} {ea n p : Nat} (rd wr : Bool) (h1 : isExt ea = false) (h2 : s.mapOk s.cur ea = true) (h3 : ea % n = 0)
    (h4 : State.nearHome (s.noted ea) s.cur ea = .at_ (.here p)) (h5 : s.marks = []) (h6 : (s.th s.cur .a).relaxed = [])
    (h7 : (s.core s.cur).outs = []) : s.Reaches ea n rd wr (s.noted ea) p where
  mapped := h2
  aligned := h3
  home := by
    have e : State.resolve (s.noted ea) s.cur ea rd wr = (s.noted ea, .at_ (.here p)) := by
      unfold State.resolve
      rw [h1]
      exact congrArg (Prod.mk (s.noted ea)) h4
    show State.access (s.noted ea) s.cur ea rd wr = _
    unfold State.access
    rw [e]
    simp [State.touchHome, h1]
  intact g _ := intact_of_marks (s := s.noted ea) h5 g
  ordered := h6
  landed := by
    have h : (s.noted ea).core (s.noted ea).cur = s.core s.cur := rfl
    simp [State.landsIn, h, h7]

/-- A thread that has stored and sent nothing that is on its way. -/
theorem quiet_of {s : State} (h6 : (s.th s.cur .a).relaxed = []) (h7 : (s.core s.cur).outs = []) : s.quiet :=
  ⟨h6, by simp [State.unsent, h7]⟩

/-- CsrAndWaitResults: a CSR read and written, at handler level too, and WAIT with an event present, absent, or late. -/
theorem witness_csr : (on cC .a id).MayIssueIf (csrLegal 0x014 false) noHint (csrReadNeed 0x014) ∧
    (on cC .a id).MayIssueIf (csrLegal 0x014 true) noHint (csrWriteNeed 0x014) ∧
    (on cC .a fun k => { k with a := { k.a with priv := .handler } }).MayIssueIf (csrLegal 0x008 true) noHint (csrWriteNeed 0x008) ∧
    (on cC .x id).MayIssueIf (csrLegal 0x010 true) noHint (csrWriteNeed 0x010) :=
  ⟨may_ok (by decide), may_ok (by decide), may_ok (by decide), may_ok (by decide)⟩
theorem witness_wait : (on cC .a id).MayIssueIf (fun s => axAll.legal s && waitLegal 4 s) noHint .user ∧
    (4#4 &&& (on cC .a fun k => { k with a := { k.a with wkick := true } }).eventBits cC .a ≠ 0) ∧
    (4#4 &&& (on cC .a id).eventBits cC .a = 0) := ⟨may_ok (by decide), by decide, by decide⟩

/-- SetBoundaryResults: a boundary that is refused and one that is taken. -/
theorem witness_setxb : 0x301 % 256 ≠ 0 ∧ 0x10000 < 0x10100 ∧ ¬(0x300 % 256 ≠ 0 ∨ 0x10000 < 0x300) := by decide

/-- GangResults: followers that have joined; an accepted join; a leader that ends its gang. -/
theorem witness_gang : (let s := (on cC .a id).updCore cD fun k => { k with gang := { Gang.init with joining := true } };
    yarnPos (CoreIdx s.cur) + (1 : Fin 8).val ≤ 7 ∧ s.me.gang.active = false ∧
      ∀ f ∈ gangOf s.cur 1, (s.core f.1).gang.joining = true ∧ (s.core f.1).gang.active = false) := by decide
theorem witness_gang_member : (let s := on cC .a fun k => { k with a := { k.a with pend := .gang }, gang := ⟨0, true, true, false, 0, 1, false, [], false⟩ };
    s.me.gang.active = true ∧ s.me.a.pend = .gang) ∧
    (let s := on cC .a fun k => { k with gang := ⟨1, false, true, false, 0, 0, false, [], false⟩ };
      s.me.gang.active = true ∧ s.me.gang.compare = false ∧ s.me.gang.follower = false) := by decide

/-- StackResults: no room, and room, for g1 and g2. -/
def stacked (sp lo hi : BitVec 14) : State := on cC .a fun k => { k with a := { k.a with ssp := sp, sslo := lo, sshi := hi } }
theorem witness_stack : (let s := stacked 0x40 0x3F 0x41;
    s.MayIssue RegClass.g.who noHint .user ∧ (s.th s.cur .a).relaxed = []) := ⟨may_ok (by decide), by decide⟩
theorem witness_stack_room : ((stacked 0x40 0x3F 0x41).myTh.ssp.toNat * 8 - 16 < (stacked 0x40 0x3F 0x41).myTh.sslo.toNat * 8) ∧
    ((stacked 0x42 0x3F 0x44).myTh.sslo.toNat * 8 ≤ (stacked 0x42 0x3F 0x44).myTh.ssp.toNat * 8 - 16) ∧
    (stacked 0x42 0x3F 0x44).xbOf cC ≤ 0x200 ∧ (stacked 0x40 0x3F 0x41).myTh.sshi.toNat * 8 < 0x210 ∧
    0x220 ≤ (stacked 0x42 0x3F 0x44).myTh.sshi.toNat * 8 := by decide

/-- LoadAndPrefetchResults, StoreResults, AtomicResults, KickResults: an access of own local memory, above XB, of the octet's
scratchpad, and at the last bytes of each. -/
theorem witness_reaches : (on cC .a id).Reaches 0x200 8 true false ((on cC .a id).noted 0x200) (localBase cC + 0x200) ∧
    (on cC .a id).Reaches 0x100 1 false true ((on cC .a id).noted 0x100) (localBase cC + 0x100) ∧
    (on cC .a id).Reaches 0xFFF8 8 false true ((on cC .a id).noted 0xFFF8) (localBase cC + 0xFFF8) ∧
    (on cC .a id).Reaches 0x1FFFF0 8 true true ((on cC .a id).noted 0x1FFFF0) (scratchBase ⟨0, 0⟩ + 0xFFFF0) :=
  ⟨reaches_near _ _ (by decide) (by decide) (by decide) (by decide) rfl (by decide) (by decide),
   reaches_near _ _ (by decide) (by decide) (by decide) (by decide) rfl (by decide) (by decide),
   reaches_near _ _ (by decide) (by decide) (by decide) (by decide) rfl (by decide) (by decide),
   reaches_near _ _ (by decide) (by decide) (by decide) (by decide) rfl (by decide) (by decide)⟩
theorem witness_access_hints : (on cC .a fun k => { k with a := { k.a with hint := some (.mod 8) } }).hintBit 3 = true ∧
    (on cC .a fun k => { k with a := { k.a with hint := some (.mod 4) } }).hintBit 2 = true ∧ (on cC .a id).hintBit 2 = false ∧
    (on cC .a id).mapOk cC 0xFF = false ∧ (on cC .a id).fenced ∧ isExt 0x200 = false :=
  ⟨by decide, by decide, by decide, by decide, ⟨by decide, by decide⟩, by decide⟩
/-- AccessTraps: outside the map, misaligned, a window slot that names no octet. -/
theorem witness_access_traps : (let s := on cC .a fun k => { k with ctxid := 1 };
    s.mapOk s.cur 0xFF = false ∧ (s.mapOk s.cur 0x201 = true ∧ 0x201 % 2 ≠ 0) ∧
      (s.mapOk s.cur 0x80800000 = true ∧ 0x80800000 % 8 = 0 ∧ isExt 0x80800000 = false ∧
        ∃ c ∈ [Cause.accessRights, Cause.localRange], s.nearHome s.cur 0x80800000 = .fails c)) := by decide

/-- SyncAndDiscardResults: a free object, one that the thread holds in either mode, and its region slots; DISCARD of one page. -/
def holding1 (lock : Nat) (wr : Bool) : State :=
  (on cC .a fun k => { g3 0x100000 0x4000000 0x1000 k with a := { k.a with held := [(0x100000, wr)] } }).store (scratchBase ⟨0, 0⟩) 8 lock
theorem witness_sync : (let s := on cC .a (g3 0x100000 0 0); let p := scratchBase ⟨0, 0⟩;
    s.Reaches 0x100000 32 true true (s.noted 0x100000) p ∧ s.fenced ∧ s.myTh.pend = .none ∧ s.myTh.holds 0x100000 = none ∧
      s.myTh.held.length < 4 ∧ Tbl.get [] (s.noted 0x100000).syncq p = [] ∧ lockBad (s.word p) = false ∧ lockW (s.word p) = false ∧
      lockReaders (s.word p) = 0) :=
  ⟨reaches_near _ _ (by decide) (by decide) (by decide) (by decide) rfl (by decide) (by decide), ⟨by decide, by decide⟩, by decide, by decide,
    by decide, by decide, by decide, by decide, by decide⟩
theorem witness_release : (holding1 1 true).myTh.holds 0x100000 = some true ∧ lockW ((holding1 1 true).word (scratchBase ⟨0, 0⟩)) = true ∧
    (holding1 2 false).myTh.holds 0x100000 = some false ∧ 0 < lockReaders ((holding1 2 false).word (scratchBase ⟨0, 0⟩)) ∧
    lockBad ((holding1 2 false).word (scratchBase ⟨0, 0⟩)) = false ∧
    (holding1 1 true).regionOk cC 0x100000 0x4000000 = true ∧ bits 0x4000000 42 22 = 0 := by decide
theorem witness_discard : cC.octet? = some ⟨0, 0⟩ ∧ 2 ^ 20 ≤ 0x1FF000 ∧ 0x1FF000 < 2 ^ 21 ∧ 0x1FF000 + 0x1000 ≤ 2 ^ 21 ∧
    0x1FF000 % 4096 = 0 ∧ 0x1000 % 4096 = 0 := by decide

/-! ## Witnesses: streams and repetition -/

def slotted (f : Slot → Slot) : State := on cC .a fun k => k.updSlot 0 f
def slottedX (f : Slot → Slot) : State := on cC .x fun k => k.updSlot 0 f

/-- StreamStagingAndControlResults: a mode that is right, reserved, or write-masked; a bound at its limit; a shift at its limit. -/
theorem witness_stream_staging : (on cC .a (g3 0x6 0x400 7)).MayIssue aStream noHint .user ∧ modeOk 0x6 = true ∧ modeOk 0x400 = false ∧
    modeOk 0x3FF = false ∧ modeOk 0x86 = false ∧ modeOk 0x89 = true ∧ (2 ^ 32 - 1 : Word).toNat < 2 ^ 32 ∧
    ((6 : Word).getLsbD 5 = false ∧ bits (6 : Word).toNat 8 2 = 0) := ⟨may_ok (by decide), by decide⟩

/-- StreamStagingAndControlResults: a slot that is off, one with an active read or write descriptor, one that is the index slot of another. -/
def readDesc : Desc := { Desc.init with base := 0x100000, mode := 6, n0 := 4, s0 := 8 }
def writeDesc : Desc := { readDesc with mode := 7 }
theorem witness_stream_control : (slotted id).MayIssue aStream noHint .user ∧ ((slotted id).th cC .a).relaxed = [] :=
  ⟨may_ok (by decide), by decide⟩
theorem witness_stream_control_slots : ((slotted fun q => { q with serves := some 1 }).me.slot 0).serves.isSome = true ∧
    (let s := slotted fun q => { q with staging := readDesc }; let q := s.me.slot 0;
      s.me.stagedCount q.staging < 2 ^ 48 ∧ s.me.indexRefused 0 q.staging = false ∧ q.kindDiffers = false ∧ q.pending = none ∧
        q.state = .off) ∧
    (let q := (slotted fun q => { q with state := .active, cur := ⟨readDesc, Desc.init, 0⟩ }).me.slot 0;
      q.state ≠ .off ∧ q.cur.own.write = false) ∧
    (let q := (slotted fun q => { q with state := .active, cur := ⟨writeDesc, Desc.init, 0⟩ }).me.slot 0;
      q.state ≠ .off ∧ q.cur.own.write = true ∧ q.late = none ∧ q.mustWait = false) := by decide

/-- ManualStreamAndControlQueueResults: a manual read slot with room in its queue; a manual write slot with an element to store; a slot of
neither kind. -/
def manualRead : State := on cC .a fun k => (g3 0x100000 0 0 k).updSlot 0 fun q =>
  { q with state := .active, cur := ⟨{ readDesc with manual := true }, Desc.init, 0⟩ }
def manualWrite : State := on cC .a fun k => (g3 0x100000 0 0 k).updSlot 0 fun q =>
  { q with state := .active, cur := ⟨{ writeDesc with manual := true }, Desc.init, 0⟩, store := [⟨5, 255⟩] }
theorem witness_manual : manualRead.MayIssue aStream ntHint .user ∧ manualWrite.MayIssue aStream ntHint .user ∧
    (manualRead.th cC .a).relaxed = [] := ⟨may_ok (by decide), may_ok (by decide), by decide⟩
theorem witness_manual_slots : (let q := manualRead.me.slot 0;
      q.state ≠ .off ∧ q.serves = none ∧ q.cur.own.manual = true ∧ q.cur.own.write = false ∧ q.queue.length < 16) ∧
    (let q := manualWrite.me.slot 0; let d := q.cur.own;
      q.state ≠ .off ∧ q.serves = none ∧ d.manual = true ∧ d.write = true ∧ q.store.length = 1 ∧ cC.kind ≠ .memory ∧
        manualWrite.nearElement cC 0x100000 d.bytes = true ∧ 0x100000 % d.align = 0 ∧ 0x100000 % 1024 + d.bytes ≤ 1024 ∧
        d.maskw = false ∧ manualWrite.nearHome cC 0x100000 = .at_ (.here (scratchBase ⟨0, 0⟩)) ∧ isExt 0x100000 = false ∧
        ∀ g ∈ granules (scratchBase ⟨0, 0⟩) d.bytes, manualWrite.mark g = .ok) ∧
    ((slotted id).me.slot 0).state = .off := by decide

/-- ManualStreamAndControlQueueResults: queues with an entry, empty, and full, for either thread. -/
theorem witness_control_queue : (on cC .a id).MayIssue axStream noHint .user ∧ (on cC .x id).MayIssue axStream noHint .user ∧
    (on cC .x id).proper [1] := ⟨may_ok (by decide), may_ok (by decide), by unfold State.proper; decide⟩
theorem witness_control_queue_lengths : (on cC .a id).me.axq.length < 8 ∧ (on cC .a id).me.xaq = [] ∧
    (on cC .x fun k => { k with axq := [9] }).me.axq = 9 :: [] ∧ (on cC .a fun k => { k with xaq := [9], xaqTags := [[]] }).me.xaq = 9 :: [] ∧
    (on cC .a fun k => { k with axq := List.replicate 8 0 }).me.axq.length = 8 ∧
    (on cC .x fun k => { k with xaq := List.replicate 8 0 }).me.xaq.length = 8 := by decide

/-- RepetitionResults: a body of one FADD word below XB, counted 0 and 3. -/
def rptAt (n : Word) : State := (on cC .x fun k => f3 n 0 0 { k with x := { k.x with pc := 0x40 } }).writeLE (localBase cC + 0x44) 4 0x80221860
theorem witness_repetition : (rptAt 3).MayIssue xAll noHint .user ∧ (rptAt 3).proper [1] ∧ (rptAt 0).MayIssue xAll noHint .user ∧
    0x40 + 4 < (rptAt 3).xbOf cC := ⟨may_ok (by decide), by unfold State.proper; decide, may_ok (by decide), by decide⟩
theorem witness_repetition_body : (∀ g ∈ granules (localBase cC + 0x40 + 4) 4, (rptAt 3).mark g = .ok) ∧
    (let w := BitVec.ofNat 32 ((rptAt 3).readLE (localBase cC + 0x44) 4); fld w.toNat 26 6 ≠ 1 ∧ bodyAllowed .compute w = true) ∧
    ((rptAt 3).me.fr 1).setWidth 24 = (3 : BitVec 24) ∧ ((rptAt 0).me.fr 1).setWidth 24 = (0 : BitVec 24) := by decide

/-- StreamAliasOperands: an alias of a read slot with a value, and of a write slot with room. -/
def aliasRead : State := slottedX fun q =>
  { q with state := .active, cur := ⟨readDesc, Desc.init, 0⟩, queue := [⟨⟨readDesc, Desc.init, 0⟩, 0, .value 7⟩] }
def aliasWrite : State := slottedX fun q => { q with state := .active, cur := ⟨writeDesc, Desc.init, 0⟩ }
theorem witness_alias : aliasRead.MayIssue xAll satX .user ∧ aliasWrite.MayIssue xAll satX .user :=
  ⟨may_ok (by decide), may_ok (by decide)⟩
theorem witness_alias_slots : (let s := aliasRead;
      s.me.alias? 1 = none ∧ (s.me.slot 0).state = .active ∧ (s.me.slot 0).serves = none ∧ (s.me.slot 0).cur.own.esize = 3 ∧
        (s.me.slot 0).cur.own.write = false ∧ (s.me.slot 0).queue.length = 1 ∧ readDesc.esize = 3) ∧
    (let s := aliasWrite;
      (s.me.slot 0).cur.own.write = true ∧ (s.me.slot 0).late = none ∧ (s.me.slot 0).queue = [] ∧ (s.me.slot 0).store.length < 16 ∧
        (s.me.slot 0).cur.own.esize = 3) := by decide
/-- What reading and writing such an alias gives: the head value in f1, and f1 pushed. -/
theorem test_alias : (fAfter (.fmov 1 28 0 8) aliasRead 1).toNat = 7 ∧ ((after (exec (.fmov 28 1 0 8) aliasWrite)).me.slot 0).store.length = 1 := by
  decide +kernel

/-! ## Witnesses: channels, kicks and barriers -/

def out1 (mode : Nat) : OutEp := ⟨.opened, ⟨BitVec.ofNat 64 (16 + 32 * mode), 3, 0, 0⟩, 0, 64, 64, 0, 0x1000, 64, [], 1⟩
def in1 (mode : Nat) (l : List InRec) : InEp := ⟨.opened, ⟨BitVec.ofNat 64 (32 * mode), 3, 0x4000000400, 0⟩, 0, 8, l, 0, [], false, 1⟩
def sender (mode : Nat) (w : Word) : State := on cC .a fun k => { g3 0x400 w 0 k with outs := Tbl.set OutEp.init [] 0 (out1 mode) }
def receiver (mode : Nat) (l : List InRec) (w : Word) : State :=
  on cC .a fun k => { g3 0x800 w 0 k with ins := Tbl.set InEp.init [] 0 (in1 mode l) }

/-- SendResults: an open output of each MODE with room for a record. -/
theorem witness_send : ∀ m ∈ [0, 1, 2], (sender m 8).MayIssue aAll sendHints .user := by
  intro m hm
  simp only [List.mem_cons, List.not_mem_nil, or_false] at hm
  rcases hm with rfl | rfl | rfl <;> exact may_ok (by decide)
theorem witness_send_room : (let e := (sender 1 8).me.outEp 0; e.decl.mode = 1 ∧ e.st ≠ .closed ∧ e.st ≠ .connecting ∧ e.place 2 ≠ none ∧
      e.place 3 ≠ none ∧ e.staged + 3 ≤ 66) ∧
    (let s := sender 0 8; let e := s.me.outEp 0; let w := s.me.gr 2;
      sendWordOk e w = true ∧ (match s.ownRange cC 0x400 (scLen w) with | .ok f => f == localBase cC + 0x400 | _ => false) = true ∧
        (∀ g ∈ granules (localBase cC + 0x400) (scLen w), s.mark g = .ok) ∧ e.decl.mode = 0 ∧ e.place 2 ≠ none) ∧
    (let s := sender 2 8; let e := s.me.outEp 0; let w := s.me.gr 2;
      sendWordOk e w = true ∧ e.decl.mode = 2 ∧ scOff w + scLen w ≤ 64 * e.lsize ∧ scTr w = false ∧ e.place 2 ≠ none ∧
        e.staged + 2 + 1 ≤ 66) ∧ ((sender 0 8).th cC .a).relaxed = [] := by decide

/-- ReceiveResults: an input with a payload of 8 bytes, one of messages, one with none and NOWAIT. -/
theorem witness_receive : (receiver 0 [⟨2, 8, false, 0⟩] 0x800).MayIssue aAll noHint .user ∧ (receiver 0 [⟨2, 8, false, 0⟩] 0x800).intact ∧
    (receiver 1 [⟨2, 8, false, 0⟩, ⟨1, 0, true, 5⟩] 0x4000).MayIssue aAll noHint .user :=
  ⟨may_ok (by decide), intact_of_marks rfl, may_ok (by decide)⟩
def receiveOk (msg : Bool) (s : State) (w : Nat) : Bool :=
  let most := bits w 8 10
  let e := s.me.inEp 0
  bits w 5 3 = 0 && bits w 18 46 = 0 && decide (0 < most) && decide (most ≤ (if msg then 64 else 512)) &&
    (match s.ownRange cC 0x800 (if msg then 16 * most else most) with | .ok _ => true | _ => false) &&
    e.st != .closed && decide (e.decl.mode = 1 ↔ msg = true) && decide (e.passed s.me.round = 0)
theorem witness_receive_words : receiveOk false (receiver 0 [⟨2, 8, false, 0⟩] 0x800) 0x800 = true ∧
    receiveOk true (receiver 1 [⟨2, 8, false, 0⟩] 0x4000) 0x4000 = true ∧ receiveOk false (receiver 0 [] 0x20010) 0x20010 = true ∧
    ((receiver 0 [] 0x20010).me.inEp 0).recs = [] ∧ (0x20010 : Nat).testBit 4 = true ∧
    (((receiver 0 [⟨2, 8, false, 0⟩] 0x800).me.inEp 0).recs.head?.map fun r => (r.2.mark, r.2.len)) = some (false, 8) := by decide

/-- RoundAndChannelStatusResults: a core not marked with room in its outputs; a marked core with the round's marker at an input. -/
def marked1 : State := on cC .a fun k => { k with marked := true, ins := Tbl.set InEp.init [] 0 (in1 0 [⟨1, 0, true, 0⟩]) }
theorem witness_rounds : (sender 0 8).MayIssue aAll noHint .user ∧ marked1.MayIssue aAll noHint .user := ⟨may_ok (by decide), may_ok (by decide)⟩
theorem witness_round_edges : (sender 0 8).me.marked = false ∧ ((sender 0 8).me.outEp 0).st ≠ .connecting ∧ ((sender 0 8).me.outEp 0).place 1 ≠ none ∧
    ((sender 0 8).me.outEp 0).staged + 1 ≤ 66 ∧ marked1.me.marked = true ∧
    ((marked1.me.inEp 0).recs.any fun r => r.2.mark && r.2.seq = marked1.me.round) = true := by decide

/-- RoundAndChannelStatusResults: selects below and at 32, and a declaration of an output to a memory core. -/
def declaring : State := ((on cC .a (g3 0x400 0 0)).storeWords (localBase cC + 0x400) [16, 3])
theorem witness_chstat : (on cC .a (g3 31 32 0)).MayIssue aAll noHint .user ∧ declaring.MayIssue aAll noHint .user ∧ declaring.intact :=
  ⟨may_ok (by decide), may_ok (by decide), intact_of_marks (by decide)⟩
theorem witness_chstat_decl : declaring.xbOf cC ≤ 0x400 ∧ 0x400 + 32 ≤ 2 ^ 16 ∧ 0x400 % 32 = 0 ∧
    (let d : Decl := ⟨declaring.word (localBase cC + 0x400), declaring.word (localBase cC + 0x408), 0, 0⟩
     declaring.declOk cC d = true ∧ (declaring.me.outEp d.ch).st = .closed ∧ declaring.targetOf cC d.peer = .core (.memory 0 0)) ∧
    (31 : Nat) < 32 ∧ (31 : Word).getLsbD 4 = true ∧ (15 : Word).getLsbD 4 = false := by decide

/-- KickResults: a target that is bad, one that fails, one that is a core; a mailbox; an engine core and one that is none. -/
theorem witness_kick : (on cC .a id).MayIssue aAll noHint .user ∧ (on cM .a id).MayIssue aAll noHint .user ∧
    (on cT .a id).MayIssue aAll noHint .user := ⟨may_ok (by decide), may_ok (by decide), may_ok (by decide)⟩
theorem witness_kick_targets : targetBad 5 = true ∧ targetBad 2 = false ∧ (on cC .a id).targetOf cC 2 = .fails ∧ targetBad 3 = false ∧
    (on cC .a id).targetOf cC 3 = .core (.memory 0 0) ∧ cT.kind = .transfer ∧ cM.kind = .memory ∧ cC.kind ≠ .transfer ∧ cC.kind ≠ .memory := by
  decide
theorem witness_kick_mbox : (on cT .a id).Reaches 0x200 8 false true ((on cT .a id).noted 0x200) (localBase cT + 0x200) ∧ (on cT .a id).fenced :=
  ⟨reaches_near _ _ (by decide) (by decide) (by decide) (by decide) rfl (by decide) (by decide), ⟨by decide, by decide⟩⟩

/-! A running group of one octet -/

def key1 : GroupKey := ⟨0, 1, 0⟩
def group1 : Group := ⟨key1, .running, 0, 0, 1, 1, 0, 0, 0, 8, 0, 0, [0], none, none⟩
def grouped (t : Thread) (f : Core → Core) : State :=
  { on cC t fun k => f { k with gkey := some key1, ctxid := 0 } with groups := [group1] }

/-- BarrierResults: registers in each state, owned and not; a shape that is valid and one that is not. -/
def barred (st : BarState) (o : Thread) : State := on cC .a fun k => { k with bars := Tbl.set Bar.init [] 0 { Bar.init with st := st, owner := o, sw := true } }
theorem witness_barrier : (barred .done .a).MayIssue axCompute noHint .user ∧ (on cC .x id).MayIssue axCompute noHint .user ∧
    (on cC .x id).proper [1, 2] := ⟨may_ok (by decide), may_ok (by decide), by unfold State.proper; decide⟩
theorem witness_barrier_states : ((barred .idle .a).me.bar 0).st = .idle ∧ ((barred .arrived .a).me.bar 0).st = .arrived ∧
    ((barred .done .a).me.bar 0).st = .done ∧ ((barred .done .a).me.bar 0).sw = true ∧ ((barred .broken .a).me.bar 0).st = .broken ∧
    ((barred .unconf .a).me.bar 0).st = .unconf ∧ ((barred .idle .x).me.bar 0).owner ≠ .a ∧ ((barred .idle .a).me.bar 0).owner = .a ∧
    ((barred .idle .a).th cC .a).relaxed = [] ∧ (on cC .x id).me.slotsDrained = true ∧ (on cC .x id).mxIdle cC = true ∧
    (grouped .a id).shapeOk cC 0x1F000 = false ∧ (grouped .a id).shapeOk cC 0x13100 = true := by decide

/-! ## Witnesses: queues, events, kernels, groups -/

set_option Elab.async false

/-- RangeTaskAndWorkListResults: bounds that are wrong, equal and right; an answer address; an index that has come. -/
theorem witness_range : (grouped .a (g3 2 9 0)).MayIssue aCompute noHint .user ∧
    (grouped .a fun k => { k with a := { k.a with pend := .index 4 } }).MayIssue aCompute noHint .user :=
  ⟨may_ok (by decide), may_ok (by decide)⟩
theorem witness_range_bounds : (9 : Word).toNat ≤ 0xFFFFFFFF ∧ (0xFFFFFFFF : Nat) < 0x100000000 ∧
    ((grouped .a id).die (cC.die)).stateOf 0 1 = none ∧ ((grouped .a id).die cC.die).tasks.length < 64 ∧
    ((grouped .a id).die cC.die).heldReturns = [] ∧ 2 ^ 20 ≤ 0x100008 ∧ 0x100008 < 2 ^ 21 ∧ 0x100008 % 8 = 0 ∧
    (grouped .a id).nextsOf cC < 8 ∧ (grouped .a id).myTh.pend = .none ∧
    (grouped .a fun k => { k with a := { k.a with pend := .index 4 } }).myTh.pend = .index 4 := by decide

/-- RangeTaskAndWorkListResults: a list record of 16 items in the scratchpad, empty, with an item, full and terminated. -/
def listed (f : Core → Core) (head tail active : Nat) (flags : Nat) : State :=
  (on cC .a fun k => f (g3 0x100000 7 0 k)).storeWords (scratchBase ⟨0, 0⟩)
    [0x400100, BitVec.ofNat 64 (head + tail * 2 ^ 32), BitVec.ofNat 64 (active + flags * 2 ^ 16), 0]
theorem listAt {f : Core → Core} {h t a fl : Nat} (h1 : (listed f h t a fl).mapOk (listed f h t a fl).cur 0x100000 = true)
    (h2 : State.nearHome ((listed f h t a fl).noted 0x100000) (listed f h t a fl).cur 0x100000 = .at_ (.here (scratchBase ⟨0, 0⟩)))
    (hq : (listed f h t a fl).quiet) (h3 : (listed f h t a fl).marks = []) (h4 : (listed f h t a fl).listBad (scratchBase ⟨0, 0⟩) = false) :
    (listed f h t a fl).ListAt 0x100000 (scratchBase ⟨0, 0⟩) where
  mapped := h1
  aligned := by decide
  window := Or.inl (by decide)
  home := congrArg (Prod.mk ((listed f h t a fl).noted 0x100000)) h2
  quiet := hq
  intact := intact_of_marks h3
  good := h4
theorem witness_list : (listed id 0 0 0 0).ListAt 0x100000 (scratchBase ⟨0, 0⟩) ∧ (listed id 3 3 1 2).ListAt 0x100000 (scratchBase ⟨0, 0⟩) ∧
    (listed id 0 16 0 0).ListAt 0x100000 (scratchBase ⟨0, 0⟩) :=
  ⟨listAt (by decide) (by decide) (quiet_of (by decide) (by decide)) (by decide) (by decide), listAt (by decide) (by decide) (quiet_of (by decide) (by decide)) (by decide) (by decide),
    listAt (by decide) (by decide) (quiet_of (by decide) (by decide)) (by decide) (by decide)⟩
theorem witness_list_issue : (listed id 0 1 0 0).MayIssue aCompute noHint .user ∧ (listed id 0 1 0 0).fenced ∧
    (listed id 0 1 0 0).MayIssue ⟨true, false, [.compute, .control]⟩ noHint .user :=
  ⟨may_ok (by decide), ⟨by decide, by decide⟩, may_ok (by decide)⟩
theorem witness_list_states : (let p := scratchBase ⟨0, 0⟩;
    (listed id 0 0 0 0).lTerm p = false ∧ (listed id 0 0 0 2).lTerm p = true ∧ (listed id 0 0 0 0).lArmed p = false ∧
      ((listed id 0 16 0 0).lTail p - (listed id 0 16 0 0).lHead p).toNat = (listed id 0 16 0 0).lCap p ∧
      (listed id 0 1 0 0).lHead p ≠ (listed id 0 1 0 0).lTail p ∧ (listed id 0 1 0xFFFE 0).lActive p ≠ 0xFFFF ∧
      Tbl.get [] (listed id 0 1 0 0).takeq p = [] ∧ (listed id 0 1 0 0).me.hold = none ∧
      (listed (fun k => { k with hold := some 0x100000 }) 1 1 1 0).me.hold = some 0x100000 ∧
      (State.nearHome (listed (fun k => { k with hold := some 0x100000 }) 1 1 1 0) cC 0x100000 = .at_ (.here p))) ∧
    (7 : Word) ≠ BitVec.allOnes 64 ∧ (7 : Word).toNat < 2 ^ 36 := by decide

/-- EventQueueResults: an empty queue, one with a record; a record to push with a place for it and without. -/
def evented (n : Nat) (k : CoreName) : State :=
  ((on k .a (g3 0x400 0 0)).updCluster 0 fun q => { q with evEn := true, evSzl := 4, evBase := 0x100, evCount := n }).storeWords
    (localBase k + 0x400) [0x8000000000000005, 0, 9, 0]
theorem witness_events : (evented 1 cK).MayIssue aControl noHint .user ∧ (evented 0 cG).MayIssue aSuper noHint .user ∧ (evented 1 cK).intact ∧
    (evented 0 cG).intact := ⟨may_ok (by decide), may_ok (by decide), intact_of_marks (by decide), intact_of_marks (by decide)⟩
theorem witness_event_queue : (evented 1 cK).xbOf cK ≤ 0x400 ∧ 0x400 + 32 ≤ 2 ^ 16 ∧ 0x400 % 32 = 0 ∧ ((evented 1 cK).cluster 0).evCount = 1 ∧
    ((evented 0 cK).cluster 0).evCount = 0 ∧
    (let s := evented 0 cG; let w0 := (s.word (localBase cG + 0x400)).toNat; let kind := bits w0 56 8;
      (s.me.gr 2).toNat < 16 ∧ kind ≠ 0 ∧ (kind ≤ 10 ∨ 128 ≤ kind) ∧ s.word (localBase cG + 0x408) = 0 ∧ s.word (localBase cG + 0x418) = 0) ∧
    ((evented 0 cG).cluster 0).held = [] ∧ (let r : CRec := ⟨128, 5, 0, 0, 9, 0, some 0, none⟩
      (evented 0 cG).canStore 0 r = true ∧ (evented 16 cG).canStore 0 r = false) := by decide

/-- LaunchAndObjectResults: a block that is good, one that is malformed, an address that is none, a context with 4,096 kernels. -/
def paged (s : State) : State := s.updStation (clusterStation 0) fun q => { q with tlb := [⟨0, 3, 0, 0xF⟩, ⟨1, 3, 0, 0xF⟩] }
def launchable (w0 : Word) : State := (paged (on cC .a (g3 0x10000 1 0))).putWords 0x10000 [w0, 0, 0, 0x20100, 0]
def checkOf (s : State) : Nat :=
  match (s.launchCheck 0 0 0x10000).2 with
  | .refused c => c
  | .full => 100
  | .good _ => 200
theorem witness_launch : (launchable 0x9000001000001).MayIssueIf
    (fun s => s.thr = .a && (s.cur.kind = .control || (s.cur.kind = .compute && (0 : Reg).val = 0))) noHint .user ∧
    ((launchable 0x9000001000001).th cC .a).relaxed = [] := ⟨may_ok (by decide), by decide⟩
theorem witness_launch_check : checkOf (launchable 0x9000001000001) = 200 ∧ checkOf (launchable 0) = 4 ∧
    ¬(2 ^ 60 ≤ 0x10000 ∨ 0x10000 % 64 ≠ 0 ∨ (cC.kind = .control ∧ (0 : Nat) = 0)) ∧ (0x10001 % 64 ≠ 0) := by decide +kernel
def kernel1 (st : KState) : Kernel := { Kernel.ofBlock 0 [0x9000001000001, 0, 0, 0x20100, 0] with kid := 1, st := st }
theorem witness_launch_full : checkOf ((launchable 0x9000001000001).updCtx 0 fun c => { c with kernels := List.replicate 4096 (kernel1 .waiting) }) = 100 := by
  decide +kernel

/-- LaunchAndObjectResults: a kernel that goes on, has ended, is unknown; a word of the core's own kernel and of another; a graph and a job. -/
def launched (st : KState) (own : Nat) : State :=
  (on cC .a fun k => { g3 1 (1 + 2 ^ 36) (2 * 2 ^ 36) k with kernelid := BitVec.ofNat 60 own }).updCtx 0 fun c =>
    { c with kernels := [kernel1 st], graphs := [⟨1, false, 1, 1, false, false⟩] }
theorem witness_objects : (launched .waiting 1).MayIssue aLaunch noHint .user ∧ objectOk false 1 ∧ objectOk false (1 + 2 ^ 36) ∧
    objectOk false (2 * 2 ^ 36) ∧ objectOk true (1 + 2 ^ 40) :=
  ⟨may_ok (by decide), by unfold objectOk; decide, by unfold objectOk; decide, by unfold objectOk; decide, by unfold objectOk; decide⟩
theorem witness_object_states : (launched .waiting 2).object 0 0 1 = .going ∧ (launched .waiting 2).object 0 0 2 = .unknown ∧
    (launched .finished 2).object 0 0 1 = .ended 0 ∧ (launched .waiting 2).object 0 1 1 = .going ∧ (launched .waiting 2).object 0 2 0 = .going ∧
    (launched .finished 2).object 0 2 0 = .ended 0 ∧ owId 1 ≠ bits (launched .waiting 2).me.kernelid.toNat 0 36 ∧
    owId 1 = bits (launched .waiting 1).me.kernelid.toNat 0 36 ∧ owNowait (1 + 2 ^ 38) = true ∧ owNowait 1 = false := by decide

/-- GroupResults: items 0 to 9; a core with nothing outstanding. -/
theorem witness_group : ∀ i ∈ [0, 3, 8, 9], (grouped .a id).MayIssueIf
    (fun s => aCompute.legal s && decide (i < 10) && (i = 8 || (0 : Reg).val = 0)) noHint .user := by
  intro i hi
  simp only [List.mem_cons, List.not_mem_nil, or_false] at hi
  rcases hi with rfl | rfl | rfl | rfl <;> exact may_ok (by decide)
theorem witness_gdone : (grouped .a id).me.hold = none ∧ (grouped .a id).mxIdle cC = true ∧
    ((grouped .a id).me.outs.any fun e => e.2.staging != []) = false ∧ (grouped .a id).me.slotsDrained = true ∧
    (grouped .a id).myGroup = some group1 := by decide

/-! ## Witnesses: pages, contexts, ports, rotation -/

/-- PageResults: an operand word of each operation, one that is malformed, a context that is resident and one that is not. -/
theorem witness_page : (on cK .a id).MayIssue aSuper noHint .user ∧ (on cG .a id).MayIssue aSuper noHint .user ∧ (on cK .a id).fenced :=
  ⟨may_ok (by decide), may_ok (by decide), ⟨by decide, by decide⟩⟩
theorem witness_page_words : pinvBad 0x8000 0 = true ∧ pinvBad 0x14000 0 = true ∧ pinvBad 0x10000 0x10000 = false ∧ pinvBad 0x4000 0 = false ∧
    pinvBad 1 0x10000 = false ∧ pinvBad 2 0x10000 = false ∧ pinvBad 3 0x1000 = false ∧ (on cK .a id).resident 0 = true ∧
    (on cK .a id).resident 1 = false ∧ bits 0x2C000 14 4 = 11 ∧ bits 0x30000 14 4 = 12 ∧ bits 0x2C000 18 46 = 0 ∧ bits 0x2C001 0 2 = 1 ∧
    bits 0x2C001 2 12 = 0 ∧ 1 < bits 2 0 2 := by decide

/-- ContextAndPlacementResults: a context with a running group and an operand word of each kind; a saved group with a stopped thread. -/
def key2 : GroupKey := ⟨1, 1, 0⟩
def resident1 (st : GState) : State :=
  let s := on cK .a id
  let t := { s with groups := [{ group1 with key := key2, st := st }], skeins := [⟨1, 0, 0, key2, 1, 1, [{ Core.init with a := { Core.init.a with st := .stop } }]⟩] }
  t.updCtx 1 fun c => { c with resident := true }
theorem witness_context : (resident1 .running).MayIssue aControl noHint .user ∧ (resident1 .saved).MayIssue aControl noHint .user ∧
    (resident1 .running).cur = .control 0 := ⟨may_ok (by decide), may_ok (by decide), by decide⟩
theorem witness_context_words : bits 0x1001 0 12 = 1 ∧ bits 0x1001 12 5 = 1 ∧ bits 0x18001 12 5 = 24 ∧ bits 0x19001 12 5 = 25 ∧
    bits 0x1001 18 46 = 0 ∧ ((resident1 .running).choose 1 0 false 24 1 []).2.map Group.key = [key2] ∧
    holding ((resident1 .running).eligible 1 0) 0 ≠ none ∧ holding ((resident1 .running).eligible 1 0) 1 = none := by decide
theorem witness_pairs : bits 0 2 5 ≤ 23 ∧ bits 0x5C 2 5 = 23 ∧ bits 0x60 2 5 = 24 ∧ bits 0x181 7 2 = 3 ∧ bits 0x181 0 2 = 1 ∧ bits 0x182 0 2 = 2 ∧
    bits 0x100003 0 2 = 3 ∧ bits 0x100003 20 12 = 1 ∧ bits 0x100003 9 11 = 0 ∧
    (holding ((resident1 .saved).groups.filter fun g => g.key.ctx = 1 && g.cl = 0 && (g.st = .running || g.st = .saved)) 0).isSome = true ∧
    (resident1 .saved).hasStopped { group1 with key := key2, st := .saved } = true ∧
    (resident1 .running).hasStopped { group1 with key := key2 } = false := by decide
theorem witness_pair_running : (let s := (resident1 .running).updCore cC fun k => { k with a := { k.a with st := .stop } };
    s.hasStopped { group1 with key := key2 } = true ∧ ∀ o ∈ Group.octets { group1 with key := key2 }, (s.octet o).cmds = []) := by decide

/-- ContextAndPlacementResults: PLACE free and busy, a record in own memory. -/
theorem witness_place : (let s := resident1 .running; s.fenced ∧ s.intact ∧ s.xbOf s.cur ≤ 0x400 ∧ (s.cluster 0).placeStatus ≠ 1) ∧
    (let s := (resident1 .running).updCluster 0 fun c => { c with placeStatus := 1 }; s.fenced ∧ s.intact ∧ (s.cluster 0).placeStatus = 1) :=
  ⟨⟨⟨by decide, by decide⟩, intact_of_marks (by decide), by decide, by decide⟩,
    ⟨⟨by decide, by decide⟩, intact_of_marks (by decide), by decide⟩⟩

/-- LinkResults: a frame queue of the core's context, empty and not; a port, and a word that names none. -/
def framed (n : Nat) : State :=
  let s := (on cC .a id).storeWords (bankBase false + 0x10000) [0x12C001, 0, 0, 0]
  s.updFrameQ 0 fun q => { q with tail := BitVec.ofNat 32 n }
theorem witness_frame_issue : (framed 1).MayIssue ⟨true, false, [.compute, .memory]⟩ noHint .user ∧ (framed 1).MayIssue aAll noHint .user ∧
    (on cK .a id).MayIssue aPort noHint .user ∧ (on cG .a id).MayIssue aMgmt noHint .user :=
  ⟨may_ok (by decide), may_ok (by decide), may_ok (by decide), may_ok (by decide)⟩
theorem witness_frame_queue : (let s := framed 1; let e := s.frameEntry s.frameBank 0;
      e.enabled = true ∧ e.ctx = s.me.ctxid.toNat ∧ e.qk = false ∧ e.cl = 0 ∧ (s.frameQ 0).head ≠ (s.frameQ 0).tail) ∧
    ((framed 0).frameQ 0).head = ((framed 0).frameQ 0).tail ∧ portOf 0x400 = none ∧ portOf 0x100 ≠ none ∧ (framed 1).xbOf cC ≤ 0x400 ∧
    0x400 % 16 = 0 := by decide

/-- RotationAndExpandResults: FP8 lanes in blocks of 32 and 128, no register an alias. -/
theorem witness_rotation : (on cC .x id).MayIssue xAll satX .user ∧ (on cC .x id).MayIssue xAll noHint .user ∧
    (on cC .x id).proper (groupRegs 4 2) ∧ (on cC .x id).proper (groupRegs 8 1) :=
  ⟨may_ok (by decide), may_ok (by decide), by unfold State.proper; decide, by unfold State.proper; decide⟩
/-- RotationAndExpandResults, XEXP24: a memory core's X-thread. -/
theorem witness_expand : (on cM .x id).MayIssue xMemory noHint .user ∧ (on cM .x id).proper [4, 5, 6] :=
  ⟨may_ok (by decide), by unfold State.proper; decide⟩

/-! ## Witnesses: the matrix unit -/

def mx (x y z : Word) : State := on cC .x (f3 x y z)
def mxHandle (x y z : Word) (gen : BitVec 8) : State := (mx x y z).updOctet ⟨0, 0⟩ fun q => q.updHandle 0 fun h => { h with free := false, gen := gen }
theorem mxReady : (mx 0 0 0).MxReady ⟨0, 0⟩ 0 := ⟨by decide, by decide, by decide⟩
theorem witness_matrix : (mx 0x1000100040 0x310000000 0x310000000).MayIssue xCompute noHint .user ∧ (mx 0 0 0).MxReady ⟨0, 0⟩ 0 ∧
    (mx 0 0 0).proper [1, 2, 3] := ⟨may_ok (by decide), mxReady, by unfold State.proper; decide⟩
theorem witness_tiles : tilesOk 0x100010040 0x300100000 0x300100000 false false none ∧ tilesOk 0x100010040 0x300100000 0x300100000 false true none ∧
    tilesOk 0x100010040 0x300100000 0x300100000 true false (some 0) ∧
    (2 ^ 20 < tileEnd 0x3000FFFC0 true (cRows 0x100010041) 0x41) := by
  unfold tilesOk
  decide
theorem witness_bind : (match bindRows [0, 0, 0, 0] 0x100010040 0x300100000 0 (cRows 0x100010040) (mx 0 0 0) with
    | .ok (l, t) => l.isEmpty && decide (t = mx 0 0 0)
    | _ => false) = true := by decide +kernel
theorem witness_scale : scaleOk 0x1000000 (cRows 0x10000) ∧ scaleOk 0x500000 (cCols 0x100000000) ∧ bits (0x100010000 : Nat) 8 5 = 0 ∧
    (((mxHandle 0 0 0 0).octet ⟨0, 0⟩).handle 0).free = false ∧ (((mxHandle 0 0 0 0).octet ⟨0, 0⟩).handle 0).gen = (mx 0 0 0).me.mgen ∧
    (((mxHandle 0 0 0 5).octet ⟨0, 0⟩).handle 0).gen ≠ (mx 0 0 0).me.mgen := by
  refine ⟨⟨by decide, by decide, by decide⟩, ⟨by decide, by decide, ?_⟩, by decide, by decide, by decide, by decide⟩
  intro _
  exact ⟨by decide, by decide, fun m hm => by
    obtain rfl : m = 0 := by revert hm; rw [show (cCols 0x100000000).getLast? = some 0 from by decide]; intro h; exact (Option.some.inj h).symm
    decide⟩

/-- MatrixCommandAndHandleResults and MatrixWaitAndAdapterResults: a free handle, none free, selector words, commands done, failed and asked. -/
theorem witness_selector : selectorOk 0 false false false ∧ selectorOk 0 true false false ∧ selectorOk 0 false true false := by
  unfold selectorOk
  exact ⟨by decide, by decide, by decide⟩
theorem witness_selectors : selectorOk 0x30000 false true false ∧ selectorOk 0x140000 false false true ∧ sPsf 0x10000 = true ∧ sPsf 0 = false ∧
    sH 0x10000 = 0 ∧ sWhat 0x140000 ≠ 3 ∧ sH 0x140000 = 0 := by
  unfold selectorOk
  exact ⟨by decide, by decide, by decide, by decide, by decide, by decide, by decide⟩
theorem witness_handles : (List.range 256).find? (fun f => (((mx 0 0 0).octet ⟨0, 0⟩).handle f).free) = some 0 ∧
    (List.range 256).find? (fun f => (((mxHandle 0 0 0 0).octet ⟨0, 0⟩).handle f).free) = some 1 ∧
    (let s := (mx 0 0 0).updOctet ⟨0, 0⟩ fun q => { q with handles := (List.range 256).map fun n => (n, { Handle.init with free := false }) };
      (List.range 256).find? (fun f => ((s.octet ⟨0, 0⟩).handle f).free) = none) := by decide +kernel
def done1 : MxWait := .done { MxCmd.new .psrd with id := 3, vres := [0, 0, 0, 0] }
def mxWaiting (m : MxWait) : State := on cC .x fun k => { f3 0x50 0x50 0x50 k with x := { k.x with mx := m } }
theorem witness_matrix_wait : (mxWaiting .none).MayIssue xCompute noHint .user ∧ (mxWaiting done1).MayIssue xCompute noHint .user ∧
    (mxWaiting .none).proper (groupRegs 4 4 ++ groupRegs 8 2 ++ [1]) ∧ (mxWaiting .none).MayIssue xCompute ⟨false, 1⟩ .user :=
  ⟨may_ok (by decide), may_ok (by decide), by unfold State.proper; decide, may_ok (by decide)⟩
theorem witness_matrix_results : (match (mxWaiting done1).myTh.mx with | .done c => c.vres.length == 4 && !c.late | _ => false) = true ∧
    (mxWaiting (.failed 7 9)).myTh.mx = .failed 7 9 ∧ (mxWaiting (.asked 3)).myTh.mx = .asked 3 ∧ (mxWaiting .none).myTh.mx = .none ∧
    5 ≤ bits (0x50 : Nat) 4 4 ∧ bits (0x50 : Nat) 4 4 ≤ 7 ∧ (0x50 : Nat) < 256 ∧ (15 : Nat) < 16 ∧
    ((groupRegs 8 2).all fun r => (List.range 8).all fun j => bits ((mxWaiting .none).me.vr r.val).toNat (128 * j + 99) 29 == 0) = true ∧
    ((mx 0 0 0).octet ⟨0, 0⟩).cmds = [] := by decide +kernel

/-- MatrixWaitAndAdapterResults: a table of one entry that is valid, one that is not, an identifier that the directory holds. -/
def tabled (rank : Word) : State := (mx 0x400 0x40 0).storeWords (scratchBase ⟨0, 0⟩ + 0x400) [1 + rank * 2 ^ 16, 0, 0, 0x100010002]
theorem witness_adapter : (tabled 4).MayIssue xCompute noHint .user ∧ (tabled 4).MxReady ⟨0, 0⟩ 0 ∧ (tabled 4).proper [1, 2] :=
  ⟨may_ok (by decide), ⟨by decide, by decide, by decide⟩, by unfold State.proper; decide⟩
theorem witness_adapter_table : bits 0x40 0 6 = 0 ∧ bits 0x40 6 7 = 1 ∧
    tableFault 0 (entriesOf ((tabled 4).words (scratchBase ⟨0, 0⟩ + 0x400) 4)) = none ∧
    tableFault 0 (entriesOf ((tabled 0).words (scratchBase ⟨0, 0⟩ + 0x400) 4)) = some 0 ∧
    (∀ g ∈ granules (scratchBase ⟨0, 0⟩ + 0x400) 32, (tabled 4).mark g = .ok) := by decide
theorem witness_prefetch : (let e : AdEntry := ⟨1 + 4 * 2 ^ 16, 0, 0, 0x100010002⟩;
    let s := (mx 1 0x40 0).updOctet ⟨0, 0⟩ fun q => q.setEntry 0 e;
    (s.octet ⟨0, 0⟩).lookup 1 = some (0, e) ∧ 128 * adKB s.me.adtbase + 0x40 ≤ 64 * e.klim ∧ 16 * adNB s.me.adtbase + 16 ≤ 64 * e.nlim ∧
      ceilDiv 0x40 64 ≤ 63) := by decide

/-! ## Witnesses: external instructions and transfers -/

/-- Whether a check passes and changes nothing. -/
def passes (m : M Unit) (s : State) : Bool :=
  match m s with
  | .ok (_, t) => decide (t = s)
  | _ => false
def extern (ws : List Word) : State := paged ((on cM .a (g3 0x400 0 0)).storeWords (localBase cM + 0x400) ws)
def externing (op : ExtOp) (w : List Word) (ended : Bool) (k : BitVec 24) (miss : Bool) : State :=
  on cM .a fun c => { c with a := { c.a with pend := .external op w ended, progK := k, progMiss := miss } }
def copy1 : List Word := [0x800, 0x8000000000010000, 0x100000100102003, 0]
def gather1 : List Word := [0x10000, 0x1000, 0x1000800, 8]
theorem witness_external : (extern copy1).MayIssue aMemory ntHint .user ∧ (extern copy1).MayIssue aMemory noHint .user ∧
    (extern copy1).DescAt 0x400 :=
  ⟨may_ok (by decide), may_ok (by decide), ⟨quiet_of (by decide) (by decide), by decide, by decide, by decide⟩⟩
theorem witness_external_checks : passes (copyChecks .xld ((extern copy1).descWords 0x400)) ((extern copy1).noted 0x400) = true ∧
    0 < extCount .xld copy1 ∧ passes (gatherChecks .xgath ((extern gather1).descWords 0x400)) ((extern gather1).noted 0x400) = true ∧
    (0 : Nat) < extCount .xgath gather1 ∧ (extern copy1).myTh.pend = .none ∧ ((extern copy1).th cM .a).relaxed = [] := by decide +kernel
theorem witness_external_ends : (externing .xld copy1 true 5 false).myTh.pend = .external .xld copy1 true ∧
    (externing .xld copy1 false 5 false).myTh.progK.toNat < extCount .xld copy1 ∧
    extCount .xld copy1 ≤ (externing .xld copy1 false 64 false).myTh.progK.toNat ∧
    extCount .xgath gather1 ≤ (externing .xgath gather1 false 1 true).myTh.progK.toNat ∧ ExtOp.xgath.mapped = true ∧
    (match extRead false (mapAddr gather1) (mapLen gather1) (externing .xgath gather1 false 1 true) with | .ok (some _, _) => true | _ => false) = true := by
  decide +kernel

/-- TransferResults: sixteen outstanding and none; a descriptor that passes; tickets outstanding, ended, forgotten, never given;
a sector of the memory that the core reaches. -/
def push1 : List Word := [0x10000, 0, 0x550000000000 + 64 * 4096 + 1, 0]
theorem witness_transfer : (extern push1).MayIssue aMemory ntHint .user ∧ (extern push1).DescAt 0x400 :=
  ⟨may_ok (by decide), ⟨quiet_of (by decide) (by decide), by decide, by decide, by decide⟩⟩
theorem witness_transfer_checks : passes (pushChecks true ((extern push1).descWords 0x400)) ((extern push1).noted 0x400) = true ∧
    passes (pushChecks false ((extern push1).descWords 0x400)) ((extern push1).noted 0x400) = true ∧
    (let s := State.updCtx (extern push1) 0 fun c => { c with slots := [(0, SlotMap.mapped 0)] };
      match s.resolveSlot s.cur (psCl push1) (psSlot push1) with | .error (.fails _) => false | _ => true) = true := by decide +kernel
def xfer1 (t : BitVec 32) : Xfer := ⟨t.toNat, 0, false, t, true, push1, 0, 0, [0], 0, none⟩
theorem witness_tickets : (let s := on cM .a fun k => { k with xfers := (List.range 16).map fun n => xfer1 (BitVec.ofNat 32 n), tickets := 16 };
      16 ≤ (s.me.xfers.filter fun x => !x.past).length ∧ (s.me.xfers.any fun x => !x.past && x.ticket = 3) = true ∧
        (s.me.xfers.any fun x => !x.past && x.ticket = 30) = false) ∧
    (let s := on cM .a fun k => { k with tickets := 9, ended := [(4, 0)] };
      (s.me.ended.find? fun e => e.1 = 4).isSome = true ∧ (s.me.ended.find? fun e => e.1 = 5) = none ∧ (5 : BitVec 32) < s.me.tickets ∧
        ¬ (9 : BitVec 32) < s.me.tickets) := by decide
theorem witness_xsect : (on cM .a id).Reaches 0x201 1 true false ((on cM .a id).noted 0x201) (localBase cM + 0x201) ∧ (4 : Nat) ≤ 4 :=
  ⟨reaches_near _ _ (by decide) (by decide) (by decide) (by decide) rfl (by decide) (by decide), by decide⟩

/-- RotationAndExpandResults, XBDOT: one row of two products. -/
def dot1 : List Word := [0x10000, 0x60020750001, 0x800, 0]
def dotted : State := paged ((on cM .x (f3 0x400 0 0)).storeWords (localBase cM + 0x400) dot1)
theorem witness_dot : dotted.MayIssue xMemory noHint .user ∧ dotted.proper [4, 1, 2] ∧ dotted.DescAt 0x400 :=
  ⟨may_ok (by decide), by unfold State.proper; decide, ⟨quiet_of (by decide) (by decide), by decide, by decide, by decide⟩⟩
theorem witness_dot_rows : passes (dotChecks dot1) (dotted.noted 0x400) = true ∧
    (∀ g ∈ granules (localBase cM + dotX dot1) 8, dotted.mark g = .ok) ∧
    (match dotRows dot1 [Exact.zero, Exact.zero] (dotted.noted 0x400) with
      | .ok (r, t) => r.length == 1 && decide (t.cur = cM) && decide (t.me = dotted.me)
      | _ => false) = true := by decide +kernel

/-! ## Witnesses: the steps that are not instructions -/

/-- ThreadAndMemoryEvents: a CSR that may be written, and shares within and beyond the octets; a queue base; a thread that waits and may
go on; an access held; a relaxed store. -/
theorem witness_register_write : csrLegal 0x014 true (on cC .a id) = true ∧ ((on cC .a id).th cC .a).priv = .user ∧
    csrWriteNeed 0x014 ≠ .handler ∧ 23 < bits 0x18 0 5 ∧ bits 0x17 0 5 ≤ 23 := by decide
theorem witness_queue_base : (let w := 0x14004; 4 ≤ bits w 0 4 ∧ bits w 0 4 ≤ 10 ∧ bits w 6 10 * 64 + 32 * 2 ^ bits w 0 4 ≤ 0x10000 ∧
    (on cK .a id).xbOf (.control 0) ≤ bits w 6 10 * 64 ∧ ((on cK .a id).cluster 0).evCount = 0) := by decide
/-- A thread that waits at a word, and what its next try answers. -/
def waits (w : Nat) (r : WReason) (f : Core → Core) : State :=
  (on cC .a fun k => f { k with a := { k.a with st := .wait, wreason := r, pc := 0x40, since := some 0 } }).writeLE (localBase cC + 0x40) 4 w
def triesAgain (s : State) (live : Bool) : Bool :=
  s.canIssue cC .a && (s.th cC .a).live && match s.again cC .a with
    | some r => (r.th cC .a).live == live
    | none => false
def waitWord : Nat := 2 * 2 ^ 26 + 2 * 2 ^ 12 + 4
theorem witness_again : triesAgain (waits waitWord .event fun k => { k with a := { k.a with wkick := true } }) false = true ∧
    triesAgain (waits waitWord .event id) true = true := by decide +kernel
def heldAccess (ea : Word) : State := on cC .a fun k => { k with a := { k.a with st := .wait, pend := .held ea } }
theorem witness_held_access : ((heldAccess 0x200).th cC .a).pend = .held 0x200 ∧ (heldAccess 0x200).nearHome cC 0x200 ≠ .held := by decide
theorem witness_relaxed : ((on cC .a fun k => { k with a := { k.a with relaxed := [⟨0x200, 8, false, 7, []⟩] } }).th cC .a).relaxed = [⟨0x200, 8, false, 7, []⟩] ∧
    ((on cC .a id).th cC .a).relaxed = [] ∧ ((on cC .a id).resolve cC 0x200 false true).2 ≠ .held := by decide

/-- ThreadAndMemoryEvents: a slot that generates; an element on its way; a write slot with an element; transfers with and without elements
left. -/
def requested (q : Slot → Slot) : State := slotted fun s => q { s with state := .active, cur := ⟨readDesc, Desc.init, 0⟩ }
theorem witness_stream_events : ((requested id).me.slot 0).generates = true ∧ ((requested id).me.slot 0).cur.own.idx = none ∧
    ((slotted id).me.slot 0).generates = false ∧
    (let s := requested fun q => { q with queue := [⟨q.cur, 0, .requested 0x100000⟩] };
      (firstRequested (s.me.slot 0).queue).map (·.2) = some 0x100000) := by decide
theorem witness_stream_read : (match (requested id).attempt cC .x (streamRead 0x100000 8 8) with | (_, .ok v) => v == 0 | _ => false) = true ∧
    (match (requested id).attempt cC .x (streamRead 0x100004 8 8) with | (_, .error (some _)) => true | _ => false) = true ∧
    (match (requested id).attempt cC .x (streamWrite 0x100000 8 8 (BitVec.allOnes 128) 5) with | (_, .ok _) => true | _ => false) = true := by
  decide +kernel
theorem witness_element : (let s := externing .xld copy1 false 3 false;
    s.myTh.progK.toNat < extCount .xld copy1 ∧
      (match (extern copy1).attempt cM .a (extElem .xld copy1 3) with | (_, .ok (.done _)) => true | _ => false) = true) := by decide +kernel
theorem witness_transfer_events : (let x := xfer1 3; x.todo ≠ [] ∧ x.fail = none ∧ psMben x.desc = false) ∧
    (let x := { xfer1 3 with todo := [] }; x.todo = []) ∧
    ((on cM .a fun k => { k with xfers := [xfer1 3] }).me.xfers.find? fun y => y.id = 3) = some (xfer1 3) := by decide

/-- MatrixAndChannelEvents: nothing queued, a command queued, one taken, one executed. -/
def commanded (stage : MxStage) : State := (mx 0 0 0).updOctet ⟨0, 0⟩ fun q =>
  { q with weights := 0x11111111, cmds := [{ MxCmd.new .mma with stage := stage }] }
theorem witness_matrix_events : ((mx 0 0 0).octet ⟨0, 0⟩).nextVisit = none ∧ ((commanded .queued).octet ⟨0, 0⟩).nextVisit = some 0 ∧
    (((commanded .taken).octet ⟨0, 0⟩).cmds.any fun c => c.stage = .taken) = true ∧
    (((commanded .queued).octet ⟨0, 0⟩).cmds.any fun c => c.stage = .taken) = false ∧ (MxCmd.new .mma).op ≠ .mmaad ∧
    (((commanded .executed).octet ⟨0, 0⟩).cmds.all fun c => c.stage = .executed && c.rows.isEmpty && !c.op.waits && !c.late) = true ∧
    ((mx 0 0 0).octet ⟨0, 0⟩).turn? = none := by decide

/-- MatrixAndChannelEvents: a record staged for a core whose input is open; a credit; a barrier complete at its corner and elsewhere. -/
def delivering : State := (on cC .a fun k => { k with outs := Tbl.set OutEp.init [] 0 { out1 0 with staging := [⟨[8, 5], 0, false, false, [], 0⟩] } }).updCore cM
  fun k => { k with ins := Tbl.set InEp.init [] 0 (in1 0 []) }
theorem witness_delivery : (delivering.me.outEp 0).st = .opened ∧ (delivering.vacating cC).any (fun v => v.saving) = false ∧
    (delivering.me.outEp 0).staging.length = 1 ∧ delivering.targetOf cC (delivering.me.outEp 0).decl.peer = .core cM ∧
    ((delivering.core cM).inEp (delivering.me.outEp 0).decl.peerch).st = .opened := by decide
def arrivedAt (x : Fin 8) : State :=
  { (on (.compute ⟨0, 0⟩ x) .a fun k => { k with gkey := some key1, bars := Tbl.set Bar.init [] 0 { Bar.init with st := .arrived, shape := 0x3100 } }) with
    groups := [group1] }
theorem witness_barrier_events : (on cC .a id).groupOf cC = none ∧ (arrivedAt 7).groupOf (.compute ⟨0, 0⟩ 7) = some group1 ∧
    (((arrivedAt 7).core (.compute ⟨0, 0⟩ 7)).bar 0).complete 1 3 = true ∧ group1.nextHop 0x3100 1 3 = some (.compute ⟨0, 0⟩ 6, true) ∧
    group1.nextHop 0x3100 0 0 = none ∧
    ({ Bar.init with st := .arrived, shape := 0x3100, inbox := [⟨0x3100, 0, true⟩, ⟨0x3100, 0, false⟩] } : Bar).complete 0 0 = true ∧
    ({ Bar.init with st := .arrived, shape := 0x3100 } : Bar).breaks ⟨0x2100, 0, true⟩ = true := by decide

/-- PlacementAndOutsideEvents: PLACE free; a group being cast on whose image reads; a vacating group whose cores have stopped; window map and
isolation words that are kept and that are not. -/
def casting : State :=
  let s := (paged (on cK .a id)).updCtx 0 fun c => { c with kernels := [kernel1 .running] }
  { s with groups := [{ group1 with st := .casting, loaded := [] }], life := { s.life with islands := [(0, true), (1, true)] } }
theorem witness_cast_on : (casting.cluster 0).placeStatus ≠ 1 ∧ (casting.castingAt ⟨0, 0⟩).isSome = true ∧ casting.octetRuns ⟨0, 0⟩ = true ∧
    casting.mayLoad group1 = true ∧
    (match casting.loadImage { group1 with st := .casting, loaded := [] } (kernel1 .running) ⟨0, 0⟩ with | (_, .ok _) => true | _ => false) = true ∧
    (on cK .a id).castingAt ⟨0, 0⟩ = none := by decide +kernel
def leaving (saving : Bool) : State :=
  { (on cK .a id) with groups := [{ group1 with vac := some ⟨0, 0, false, none, false, saving⟩ }] }
theorem witness_vacate : (leaving false).group? key1 = some { group1 with vac := some ⟨0, 0, false, none, false, false⟩ } ∧
    (Group.cores group1).all (leaving false).stopped = true ∧ (leaving true).saveReady group1 = true := by decide
theorem witness_maps : (let s := (on cK .a id).updCtx 1 fun c => { c with resident := true };
    s.ctxmapKeeps 0 3 = true ∧ s.ctxmapKeeps 0 4 = false ∧ s.ctxmapKeeps 0 (1 + 4 + 31 * 2 ^ 19) = false ∧ s.ctxmapKeeps 0 6 = false ∧
      s.isocfgKeeps 1 = false ∧ s.isocfgKeeps 2 = true ∧ (0x1001 : Word).getLsbD 12 = true ∧ (1 : Word).getLsbD 12 = false) := by decide
theorem witness_placing : (let s := casting; (s.cluster 0).stopped = false ∧ s.life.powerLimit = false ∧ s.firstGroup 0 = none) := by decide +kernel

/-- PlacementAndOutsideEvents: a request, a walk, a fault that waits for room; a port in training and one up; a frame that no rule takes; a host
block with a command of each kind. -/
theorem witness_outside : nextArrival [⟨0, key1, 0, 0, 0, none⟩] = some ⟨0, key1, 0, 0, 0, none⟩ ∧ nextArrival [] = none ∧
    (let s := (on cC .a id).updStation 0 fun q => { q with walks := [⟨0, 0x10000, false, .cast 0⟩] };
      (s.station 0).walks = [⟨0, 0x10000, false, .cast 0⟩] ∧ s.resident 0 = true) ∧
    (let p : PortName := ⟨.scaleUp, 0⟩; let s := (on cC .a id).updPort p fun q => { q with st := .training };
      (s.port p).st = .training ∧ p.real = true ∧ (s.port p).live = false) ∧
    (let p : PortName := ⟨.frame, 0⟩; let s := (on cC .a id).updPort p fun q => { q with st := .up, lanes := 4 };
      (s.port p).st = .up ∧ (s.port p).live = true ∧ 3 < (s.port p).lanes) ∧ (on cC .a id).life.mstop = false := by decide
theorem witness_ingress : (on cC .a id).ruleOf 0 [1, 2, 3] = none ∧
    (let s := (framed 0).storeWords (bankBase false + 128) [0x20000001]; s.ruleOf 0 [1, 2, 3] = some 0x20000001) ∧
    (let s := (framed 0).updCtx 0 fun c => { c with slots := [(0, SlotMap.mapped 0)] };
      match s.frameSlot 0 (s.frameEntry s.frameBank 0) (s.frameQ 0) 67 with | (_, .ok _) => true | _ => false) = true ∧
    (match (on cC .a id).frameSlot 0 ((on cC .a id).frameEntry false 0) FrameQ.init 67 with | (_, .error w) => w == 2 | _ => false) = true := by
  decide +kernel
def hosted (ctx : Nat) (cmd : List Word) : State :=
  (((on cG .a id).updCtx ctx fun c => { c with resident := true, hostBlock := some 0x20000 }).storeWords 0x20000
    (1 :: (hostBlockWords ctx 0x30000 0x40000 4 0).drop 1)).storeWords 0x30000 cmd
theorem witness_host : (hosted 1 [1, 0x10000, 7, 0]).hostEntry 1 = some [1, 0x10000, 7, 0] ∧ hostBad 1 [1, 0x10000, 7, 0] = false ∧
    hostBad 1 [9, 0, 7, 0] = true ∧ hostBad 1 [2, 1, 7, 0] = false ∧ (hosted 1 [2, 1, 7, 0]).object 1 0 1 = .unknown ∧
    (hosted 0 [3, 5, 7, 0x1000]).hostEntry 0 = some [3, 5, 7, 0x1000] ∧ hostBad 0 [3, 5, 7, 0x1000] = false ∧
    (hosted 0 [3, 5, 7, 0x1000]).resident 5 = false ∧ hostPlaceOk 0x50000 0x60000 0x70000 4 = true ∧ hostBad 0 [4, 5, 7, 0] = false ∧
    (on cG .a id).hostEntry 0 = none := by decide +kernel

/-- DeviceEvents: an image that is accepted in either slot or in none; a managed device; islands that run and do not. -/
def image1 : Image := ⟨true, true, 1, 5, ⟨[], 1, 0⟩, ⟨[], 1, 0⟩, ⟨[], 1, 0⟩, ⟨[], 1, 0⟩⟩
def managing : State := { (on cG .a id) with life := { Life.init with powered := true, status := 1, flashA := some image1, islands := [(768, true)] } }
theorem witness_device : managing.life.powered = true ∧ State.reset.life.powered = false ∧ (Life.slot { Life.init with flashA := some image1 } false).isSome = true ∧
    Life.slot { Life.init with flashB := some image1 } false = none ∧ (Life.slot { Life.init with flashB := some image1 } true).isSome = true ∧
    State.reset.life.slot false = none ∧ managing.managed = true ∧ State.reset.managed = false ∧ managing.life.updating = false ∧
    managing.life.accepts image1 = true ∧ managing.islandRetired 0 = false ∧ managing.islandRuns 0 = false ∧ managing.islandRuns 768 = true ∧
    managing.islandIdle 768 = true ∧ islandOf 0 = .octet ⟨0, 0⟩ 0 ∧ Tbl.get false managing.life.retiredParts 400 = false := by decide
theorem witness_update : (let s := { managing with life := { managing.life with updating := true } };
    (s.cluster 0).placeStatus ≠ 1 ∧ (s.th (.control 0) .a).superTrap = false ∧ (s.cluster 0).stopped = false ∧
      ∀ c ∈ allClusters, (s.cluster c).newFw = decide (c.val < (0 : Fin 16).val)) := by decide
theorem witness_host_memory : (let s := (on cG .a id).updPort ⟨.umval, 0⟩ fun q => { q with st := .up }; s.portUp .umval = true) := by decide

/-! ## Witnesses: further clauses of the same statements -/

/-- FetchAndIssueTraps: a word in a repetition's body behind a HINT of that body. HintNopTrapResults: a thread that follows no gang,
with no HINT pending, at user level, outside a repetition. -/
theorem witness_hinted_body : (let s := on cC .x fun k => { k with rptBody := [0], x := { k.x with hint := some (.mod 1) } };
    s.pairFollower? = none ∧ s.yarnFull = false ∧ xAll.legal s = true ∧ satX.accepts s.myTh.hint = true ∧ s.hintedBody = true) ∧
    (let s := on cC .x id;
      s.follows = false ∧ s.myTh.hint = none ∧ s.myTh.priv = .user ∧ s.me.rptBody = [] ∧ (on cC .a id).follows = false) := by decide

/-- CheckedPairResults: a pair at an ADD. -/
theorem witness_pair_word : (let s := { pair (g3 1 2 0) with ir := 0x20811000 };
    s.pairFollower? = some cD ∧ s.thr = .a ∧ encode (.add 4 1 2) = some s.ir ∧ (s.th s.cur .a).hint = none ∧ (s.th cD .a).hint = none ∧
      (s.th s.cur .a).pc = (s.th cD .a).pc ∧ (s.th s.cur .a).priv = .user ∧ (s.th cD .a).priv = .user) := by decide +kernel

/-- AccessFrame, StoreResults: the own local memory, and an address with no home here, to which a relaxed store waits. -/
theorem witness_relaxed_homes : (let s := on cC .a fun k => { k with ctxid := 1 };
    isExt 0x200 = false ∧ s.nearHome s.cur 0x200 = .at_ (.here (localBase cC + 0x200)) ∧ ownHome s.cur (.here (localBase cC + 0x200)) = true ∧
      (∀ g ∈ granules (localBase cC + 0x200) 8, s.mark g = .ok) ∧
      s.mapOk s.cur 0x80800000 = true ∧
      (match (State.resolve (s.noted 0x80800000) s.cur 0x80800000 false true).2 with | .at_ _ => false | _ => true) = true ∧
      ownHome cC (.here (scratchBase ⟨0, 1⟩)) = false) ∧ (on cC .a id).quiet :=
  ⟨by decide, quiet_of (by decide) (by decide)⟩

/-- StackResults, ManualStreamAndControlQueueResults, AtomicResults, SyncAndDiscardResults, KickResults, PageResults, ReceiveResults, RoundAndChannelStatusResults, EventQueueResults,
LinkResults, ContextAndPlacementResults: threads that have stored and sent nothing that is on its way. -/
theorem witness_quiet : (on cC .x id).quiet ∧ (stacked 0x42 0x3F 0x44).quiet ∧ (on cC .a id).quiet ∧ (on cK .a id).quiet ∧ (evented 1 cK).quiet ∧
    (evented 0 cG).quiet ∧ (resident1 .running).quiet ∧ declaring.quiet ∧ (framed 1).quiet ∧ (on cC .a id).unsent cC = false ∧
    (on cK .a id).unsent cK = false ∧ (receiver 0 [⟨2, 8, false, 0⟩] 0x800).quiet :=
  ⟨quiet_of (by decide) (by decide), quiet_of (by decide) (by decide), quiet_of (by decide) (by decide), quiet_of (by decide) (by decide), quiet_of (by decide) (by decide),
    quiet_of (by decide) (by decide), quiet_of (by decide) (by decide), quiet_of (by decide) (by decide), quiet_of (by decide) (by decide),
    by decide, by decide, quiet_of (by decide) (by decide)⟩

/-- ManualStreamAndControlQueueResults, STQ: a core that is no follower of a pair, and one that is. -/
theorem witness_manual_pair : (manualWrite.me.gang.compare && manualWrite.me.gang.follower) = false ∧
    (((pair id).core cD).gang.compare && ((pair id).core cD).gang.follower) = true := by decide

/-- SendResults: a transposing put to another core, to its own place, and to one that overlaps it. -/
def putting (peer : Word) (land : Nat) : State :=
  (on cC .a fun k => { g3 0x400 0x82040 0 k with outs := Tbl.set OutEp.init [] 0 ({ out1 2 with
    decl := { (out1 2).decl with w1 := peer }, land := land }) }).updCtx 0 fun c => { c with slots := [(0, SlotMap.mapped 0)] }
theorem witness_send_landing : (sender 0 8).landsIn cC (localBase cC + 0x400) 8 = false ∧
    (let s := putting 3 0x400; let e := s.me.outEp 0; let w := s.me.gr 2;
      s.MayIssue aAll sendHints .user ∧ sendWordOk e w = true ∧ scTr w = true ∧ scOff w + scLen w ≤ 64 * e.lsize ∧
        e.decl.mode = 2 ∧ e.place 2 ≠ none ∧ e.staged + 2 + 8 ≤ 66 ∧ s.placeOf s.cur e.decl.peer = some cM ∧
        meets (localBase cC + 0x400) (scLen w) (s.ownFlat cM (e.land + scOff w)) (scLen w) = false) ∧
    (let s := putting 0 0x400; let e := s.me.outEp 0; let w := s.me.gr 2;
      s.placeOf s.cur e.decl.peer = some cC ∧ localBase cC + 0x400 = s.ownFlat cC (e.land + scOff w) ∧
        scNr w * scNr w * scEs w = scLen w ∧ meets (localBase cC + 0x400) (scLen w) (s.ownFlat cC (e.land + scOff w)) (scLen w) = true) ∧
    (let s := putting 0 0x408; let e := s.me.outEp 0; let w := s.me.gr 2;
      localBase cC + 0x400 ≠ s.ownFlat cC (e.land + scOff w) ∧
        meets (localBase cC + 0x400) (scLen w) (s.ownFlat cC (e.land + scOff w)) (scLen w) = true) :=
  ⟨by decide, ⟨may_ok (by decide), by decide⟩, by decide, by decide⟩

/-- BarrierResults: words with EN clear; a register that BCFG may take; a BSYNC that has asked, and one that has not. -/
theorem witness_barrier_words : (5 : Word).getLsbD 16 = false ∧ bits (5 : Word).toNat 17 47 = 0 ∧
    (let b := (barred .idle .a).me.bar 0; b.st ≠ .arrived ∧ b.st ≠ .done) ∧
    (let s := on cC .a fun k =>
      { k with bars := Tbl.set Bar.init [] 0 { Bar.init with st := .done, owner := .a }, a := { k.a with pend := .asked } };
      (s.me.bar 0).sw = false ∧ s.myTh.pend = .asked) ∧
    (let s := on cC .a fun k => { k with bars := Tbl.set Bar.init [] 0 { Bar.init with st := .done, owner := .a } };
      (s.me.bar 0).st ≠ .arrived ∧ (s.me.bar 0).sw = false ∧ s.myTh.pend ≠ .asked) := by decide

/-- LaunchAndObjectResults: an LWAIT that has met an instance, and one that has not; a kernel that is not the core's own.
GroupResults: an X-thread in STOP. -/
theorem witness_instance : (let s := (launched .waiting 2).updTh cC .a fun h => { h with pend := .object 0 };
    s.myTh.pend = .object 0 ∧ owId 1 ≠ bits s.me.kernelid.toNat 0 36) ∧ (launched .waiting 2).myTh.pend = .none ∧
    (let s := grouped .a fun k => { k with x := { k.x with st := .stop } }; (s.th s.cur .x).st = .stop ∧ s.me.gang.compare = false) ∧
    ((grouped .a id).th (grouped .a id).cur .x).st ≠ .stop ∧ (grouped .a id).fenced :=
  ⟨by decide, by decide, by decide, by decide, ⟨by decide, by decide⟩⟩

/-- LinkResults: a frame queue's entry whose granules are correct. TransferResults, XSECT: the same of a byte. -/
theorem witness_entry_granules : (∀ g ∈ granules (frameEntryAt (framed 1).frameBank 0) 32, (framed 1).mark g = .ok) ∧
    (∀ g ∈ granules (localBase cM + 0x201) 1, (on cM .a id).mark g = .ok) := by decide +kernel

/-- ThreadAndMemoryEvents: a QGET whose entry has come, in either thread; a WAIT whose deadline has passed; an HZERO that waits for
room; a SENDM that has waited 2,048 cycles, connecting and without credit. -/
def retry (t : Thread) (w : Nat) (r : WReason) (f : Core → Core) : State :=
  ((on cC t fun k => f { k with a := { k.a with pc := 0x40 }, x := { k.x with pc := 0x40 } }).updTh cC t fun h =>
    { h with st := .wait, wreason := r, since := some 0 }).writeLE (localBase cC + 0x40) 4 w
def wordAt (s : State) (t : Thread) : Option State :=
  match State.nextWord { s with cur := cC, thr := t } with
  | .word u => some u
  | _ => none
def retries (s : State) (t : Thread) (i : Instr) (legal : State → Bool) (ok : Hints) : Bool :=
  s.canIssue cC t && (s.th cC t).live && (wordAt s t).any fun u =>
    !u.leads && !u.follows && encode i == some u.ir && may u legal ok .user && decide (∀ r : Reg, u.me.alias? r.val = none)
theorem witness_retry_qget :
    retries (retry .x 0x54600003 .queue fun k => { k with axq := [9] }) .x (.qget 3) axStream.legal noHint = true ∧
    retries (retry .a 0x54600003 .queue fun k => { k with xaq := [9], xaqTags := [[]] }) .a (.qget 3) axStream.legal noHint = true := by
  decide +kernel
theorem witness_retry_wait : (let s := retry .a 0x08802804 .event id;
    retries s .a (.wait 4 0 true 4) (fun s => axAll.legal s && waitLegal 4 s) noHint = true ∧ (s.th cC .a).wreason = .event ∧
      fld 0x08802804 26 6 = 2 ∧ fld 0x08802804 12 4 = 2 ∧ fld 0x08802804 11 1 = 1 ∧ 4#4 &&& s.eventBits cC .a = 0 ∧
      (wordAt s .a).any fun u => decide ((u.reg 0).toNat ≤ s.timeWord.toNat)) := by decide +kernel
theorem witness_retry_hzero : (let s := (retry .x 0xC4010007 .matrix id).updOctet ⟨0, 0⟩ fun q => q.updHandle 0 fun h => { h with free := false };
    retries s .x (.hzero 1) xCompute.legal noHint = true ∧ (s.th cC .x).wreason = .matrix ∧ (s.th cC .x).mx = .none ∧
      sPsf 0 = false ∧ ((s.octet ⟨0, 0⟩).handle 0).free = false ∧ (wordAt s .x).any fun u => (u.me.fr 1) == 0) := by decide +kernel
theorem witness_retry_hzero_ready : (let s := (retry .x 0xC4010007 .matrix id).updOctet ⟨0, 0⟩ fun q => q.updHandle 0 fun h => { h with free := false };
    s.MxReady ⟨0, 0⟩ 0) ∧ selectorOk 0 false true false := ⟨⟨by decide, by decide, by decide⟩, by unfold selectorOk; exact by decide⟩
def sending (st : EpState) (room : Nat) : State :=
  { retry .a 0x60010801 .channel (fun k => { k with outs := Tbl.set OutEp.init [] 0 ({ out1 1 with st := st, mfree := room, sfree := 0 }) }) with
    cycle := 2048 }
theorem witness_retry_send : (let s := sending .connecting 64;
    retries s .a (.sendm 0 1 1) aAll.legal sendHints = true ∧ (s.th cC .a).priv = .user ∧ (s.th cC .a).wreason = .channel ∧
      ((wordAt s .a).any fun u => decide ((u.th cC .a).since = some 0 ∧ (u.th cC .a).relaxed = [] ∧ (u.me.outEp 0).st = .connecting ∧
        (u.me.outEp 0).decl.mode = 1)) = true ∧ 0 + 2048 ≤ s.cycle) ∧
    (let s := sending .opened 0;
      ((wordAt s .a).any fun u => decide ((u.me.outEp 0).st ≠ .closed ∧ (u.me.outEp 0).place 3 = none)) = true) := by decide +kernel

/-- ThreadAndMemoryEvents: a relaxed store on its way, whose home is here. MatrixAndChannelEvents: a command that waits for no
replay of its core, and one that does; the turn of a deferred row that needs no line; a peer that names the sender's channel; a
barrier that has not fired. -/
def relaxing : State := on cC .a fun k => { k with a := { k.a with relaxed := [⟨0x200, 8, false, 7, []⟩] } }
theorem witness_relaxed_ack : (relaxing.th cC .a).relaxed ≠ [] ∧
    (RStore.home relaxing cC ⟨0x200, 8, false, 7, []⟩ ≠ .held) ∧
    (match RStore.home relaxing cC ⟨0x200, 8, false, 7, []⟩ with
      | .at_ h => ([] : List RStore).any (RStore.meets relaxing cC h 8) == false
      | _ => false) = true := by decide
theorem witness_replays : (let q := (commanded .executed).octet ⟨0, 0⟩;
      q.replaysBefore (MxCmd.new .mma) = false ∧ (MxCmd.new .mma).op.waits = false ∧ (MxCmd.new .psrd).op.waits = true) ∧
    (let q := ((mx 0 0 0).updOctet ⟨0, 0⟩ fun q => { q with cmds := [MxCmd.new .mmaad, { MxCmd.new .psrd with id := 1 }] }).octet ⟨0, 0⟩;
      q.replaysBefore { MxCmd.new .psrd with id := 1 } = true ∧ q.replaysBefore (MxCmd.new .psrd) = false) := by decide
theorem witness_turn : (let q := ((mx 0 0 0).updOctet ⟨0, 0⟩ fun q =>
      { q with cmds := [{ MxCmd.new .mmaad with stage := .executed, rows := [0] }] }).octet ⟨0, 0⟩;
    q.turn? = some ({ MxCmd.new .mmaad with stage := .executed, rows := [0] }, 0) ∧
      ({ MxCmd.new .mmaad with stage := .executed, rows := [0] } : MxCmd).needs 0 = []) := by decide
theorem witness_peer : (let s := delivering.updIn cM 0 fun e => { e with decl := { e.decl with w1 := 0 } };
    ((s.core cM).inEp 0).st = .opened ∧ ((s.core cM).inEp 0).decl.peerch = 0) ∧
    (let s := ({ delivering with cur := cC }).updCtx 0 fun c => { c with slots := [(0, SlotMap.mapped 0)] };
      s.targetOf cM 0 = .core cC) ∧
    (((arrivedAt 7).core (.compute ⟨0, 0⟩ 7)).bar 0).fired = false := by decide

/-- PlacementAndOutsideEvents: a cluster that a group which did not fit holds up, and one that none does; a group that fits nowhere;
a save whose relaxed stores are acknowledged, and one whose are not; a walk that ended at a granule that is not correct, and at
none. -/
def queued (owner : Nat) : State :=
  let s := (on cK .a id).updCtx 1 fun c =>
    { c with resident := true, kernels := [{ Kernel.ofBlock 0 [0x9000001000001, 0, 0, 0x20100, 0] with kid := 1, st := .ready }] }
  { s with octets := (List.range 24).map fun n => (n, { Octet.init with owner := owner }) }
theorem witness_placing_queued : ((queued 0).firstGroup 0).map (fun e => (e.1.2.kid, e.2)) = some (1, 0) ∧
    ((queued 0).firstGroup 0).any (fun e => ((queued 0).fit 0 e.1.1 e.1.2).isSome) = true ∧
    ((queued 5).firstGroup 0).any (fun e => ((queued 5).fit 0 e.1.1 e.1.2).isNone) = true ∧ (queued 0).blockedAt 0 = false ∧
    (let s := (queued 5).updCluster 0 fun q => { q with blocked := some ⟨1, 1, 0⟩ }; s.blockedAt 0 = true) := by decide +kernel
theorem witness_acked : (leaving true).acked group1 = true ∧
    (((leaving true).updCtx 0 fun c => { c with slots := [(5, SlotMap.switched)] }).updTh cC .a fun h => { h with relaxed := [⟨0x85800000, 8, false, 7, []⟩] }).acked group1 = false := by decide
theorem witness_walk_end : WalkEnd.eccCause ⟨0, 4, 0, 0, [], []⟩ = some Cause.eccUncorrectable ∧ WalkEnd.eccCause ⟨0, 1, 0, 0, [], []⟩ = none ∧
    (let s := (on cC .a id).updCtx 0 fun c => { c with root := 0x4000 };
      (s.walk 0 0 0x10000).code = 1 ∧ ((s.putMark 0x4000 .bad).walk 0 0 0x10000).code = 4) := by decide +kernel
/-- Frame rules that can be read and that cannot; a host queue whose granules are correct; a store of the host away from every block,
and one to a block's RO and RW fields. -/
theorem witness_frame_rules : (framed 0).badRules = false ∧ ((framed 0).putMark (bankBase false) .bad).badRules = true ∧
    (∀ g ∈ granules (frameEntryAt (framed 0).frameBank 0) 32, (framed 0).mark g = .ok) := by decide +kernel
theorem witness_host_places : (∀ p ∈ (hosted 1 [1, 0x10000, 7, 0]).hostPlaces 1, ∀ g ∈ granules p.1 p.2, (hosted 1 [1, 0x10000, 7, 0]).mark g = .ok) ∧
    (let s := hosted 1 [1, 0x10000, 7, 0];
      s.blockAt 0x20004 = some (1, 4) ∧ s.blockAt 0x20010 = some (1, 16) ∧ s.blockAt 0x20040 = none) := by decide +kernel

/-! ## Witnesses: clauses that were widened -/


/-- CheckedPairResults: a pair at a word, its two cores' g registers 1 to 3 given. -/
def pairing (k l : Core → Core) (i : Instr) : State :=
  (State.updCore { pair l with ir := (encode i).getD 0 } cC k)
theorem pairAt {k l : Core → Core} {i : Instr} (h : ((pairing k l i).pairFollower? == some cD &&
    decide ((pairing k l i).myTh.hint = none ∧ (pairing k l i).myTh.pc = ((pairing k l i).th cD .a).pc ∧
      (pairing k l i).myTh.priv = .user ∧ ((pairing k l i).th cD .a).priv = .user)) = true) : (pairing k l i).PairAt ⟨0, 0⟩ 0 cD := by
  simp only [Bool.and_eq_true, beq_iff_eq, decide_eq_true_eq] at h
  exact ⟨rfl, h.1, rfl, h.2.1, h.2.2.1, h.2.2.2.1, h.2.2.2.2, rfl⟩
theorem witness_pair_at : (pairing (g3 1 2 3) (g3 4 5 6) (.add 4 1 2)).PairAt ⟨0, 0⟩ 0 cD ∧
    (pairing (g3 7 0x100000 0) (g3 7 0x100000 0) (.std 1 2 0)).PairAt ⟨0, 0⟩ 0 cD ∧
    (pairing (g3 7 0x100000 0) (g3 8 0x100000 0) (.std 1 2 0)).PairAt ⟨0, 0⟩ 0 cD ∧
    (pairing (g3 7 0x100000 0) (g3 7 0x100008 0) (.amoadd 3 2 1 true)).PairAt ⟨0, 0⟩ 0 cD ∧
    (pairing (g3 0x1FFFE0 0 0) (g3 0x1FFFE0 0 0) (.acq 1)).PairAt ⟨0, 0⟩ 0 cD :=
  ⟨pairAt (by decide +kernel), pairAt (by decide +kernel), pairAt (by decide +kernel), pairAt (by decide +kernel), pairAt (by decide +kernel)⟩
def pairPlaced (s : State) (r size : Nat) : Bool := [cC, cD].all fun c =>
  let ea := ((s.core c).gr r).toNat
  decide (2 ^ 20 ≤ ea ∧ ea < 2 ^ 21 ∧ ea % size = 0) &&
    (granules (scratchBase ⟨0, 0⟩ + (ea - 2 ^ 20)) size).all fun g => s.mark g == .ok
theorem witness_pair_places : (let s := pairing (g3 7 0x100000 0) (g3 8 0x1FFFF8 0) (.std 1 2 0);
      s.fenced ∧ s.unsent s.cur = false ∧ encode (.std 1 2 0) = some s.ir ∧ pairPlaced s 2 8 = true ∧ (s.core s.cur).gr 1 ≠ (s.core cD).gr 1) ∧
    (let s := pairing (g3 7 0x100000 0) (g3 7 0x100000 0) (.amoadd 3 2 1 true);
      encode (.amoadd 3 2 1 true) = some s.ir ∧ pairPlaced s 2 8 = true ∧ (s.core s.cur).gr 1 = (s.core cD).gr 1) ∧
    (let s := pairing (g3 0x1FFFE0 0 0) (g3 0x1FFFE0 0 0) (.acq 1);
      encode (.acq 1) = some s.ir ∧ pairPlaced s 1 32 = true ∧ s.myTh.pend = .none ∧ s.myTh.held.length < 4 ∧
        ∀ c ∈ [cC, cD], let at_ := scratchBase ⟨0, 0⟩ + (((s.core c).gr 1).toNat - 2 ^ 20)
          s.myTh.holds ((s.core c).gr 1).toNat = none ∧ Tbl.get [] s.syncq at_ = [] ∧ lockBad (s.word at_) = false ∧
            lockW (s.word at_) = false ∧ lockReaders (s.word at_) = 0) :=
  ⟨⟨⟨by decide, by decide⟩, by decide +kernel⟩, by decide +kernel, by decide +kernel⟩
theorem witness_pair_branch : (let s := pairing (g3 5 5 0) (g3 5 6 0) (.beq 1 2 16);
    encode (.beq 1 2 16) = some s.ir ∧ (0 : Int) ≤ s.myTh.pc + 4 * sext 13 16 ∧ (s.myTh.pc : Int) + 4 * sext 13 16 ≤ 0x10000 ∧ sext 13 16 ≠ 1 ∧
      decide ((s.core s.cur).gr 1 = (s.core s.cur).gr 2) ≠ decide ((s.core cD).gr 1 = (s.core cD).gr 2)) := by decide +kernel
/-- R416: a pair that agrees stores once; one whose data differ stores nothing, and both of its cores stop. -/
def pairStore (y : Word) : State := after (exec (.std 1 2 0) (pairing (g3 7 0x100000 0) (g3 y 0x100000 0) (.std 1 2 0)))
theorem test_pair_stores : ((pairStore 7).readLE (scratchBase ⟨0, 0⟩) 8 == 7 && (pairStore 7).marks.isEmpty &&
    ((pairStore 7).th cD .a).pc == 4) = true := by decide +kernel
theorem test_pair_store_mismatch : ((pairStore 8).readLE (scratchBase ⟨0, 0⟩) 8 == 0 && ((pairStore 8).th cD .a).st == .stop &&
    ((pairStore 8).th cC .a).tval == 0x100000) = true := by decide +kernel

/-- StepInvariants: a request that waits for an object held for writing, after a step; the bank-select word's granule. -/
def contended : State := { holding1 1 true with syncq := [(scratchBase ⟨0, 0⟩, [SyncReq.own cD .a true])] }
theorem witness_invariants : (match contended.turn with | .next u => u.syncq.all fun q => q.1 % 32 == 0 | _ => false) = true ∧
    (match step contended with
      | .next t => Tbl.get [] t.syncq (scratchBase ⟨0, 0⟩) == [SyncReq.own cD .a true] && decide (t.mark 0x3FF000 = .ok)
      | _ => false) = true := by decide +kernel
/-- R285: a release lets the oldest request have the object, whatever instruction follows. -/
theorem test_release_grants : (let s := (contended.updTh cD .a fun h => { h with st := .wait, wreason := .sync, pend := .syncAsked 0x100000 true });
    match State.settled (exec (.rel 1) s) with
    | .next t => decide ((t.th cD .a).pend = .syncGranted 0 true ∧ lockW (t.word (scratchBase ⟨0, 0⟩)) = true) && (Tbl.get [] t.syncq (scratchBase ⟨0, 0⟩)).isEmpty
    | _ => false) = true := by decide +kernel

/-- TrapFrames: a word of the matrix unit whose descriptors are wrong. -/
theorem witness_trap_frames : (encode (.mma 1 2 3)).any (fun w => decide (fld w.toNat 26 6 = 0x30)) = true ∧
    ((after (exec (.mma 1 2 3) (mx 0xC000 0 0))).th cC .x).st = .trap ∧ (mx 0xC000 0 0).MayIssueIf xCompute.legal noHint .user :=
  ⟨by decide, by decide +kernel, may_ok (by decide)⟩

/-- AccessTraps: an external address without a translation, one whose port is down, granules that are not correct. -/
def unmapped : State := on cM .a (g3 0x8000000000010000 0x400 0)
def farOff : State := (on cM .a id).updStation 0 fun q => { q with tlb := [⟨0, 4, 0, 0x801000000000F⟩] }
theorem witness_access_failures :
    (let s := unmapped;
      s.mapOk s.cur 0x8000000000010000 = true ∧ (match (State.access (s.noted 0x8000000000010000) s.cur 0x8000000000010000 true false).2 with
        | .fault _ => true | _ => false) = true) ∧
    (let s := on cC .a fun k => { k with ctxid := 1 };
      (match (State.access (s.noted 0x80800000) s.cur 0x80800000 true false).2 with | .fails _ => true | _ => false) = true) ∧
    (let s := farOff;
      s.mapOk s.cur (2 ^ 63) = true ∧ (match (State.access (s.noted (2 ^ 63)) s.cur (2 ^ 63) true false).2 with | .lost => true | _ => false) = true) ∧
    (let s := (on cC .a id).putMark (localBase cC + 0x220) .bad;
      (match (State.access (s.noted 0x220) s.cur 0x220 true false) with
        | (t, .at_ (.here p)) => (t.checkRead p 8).2.isSome && (t.checkWrite p 1).2.isSome && !t.landsIn t.cur p 8 && !isCxl p
        | _ => false) = true) := by decide +kernel

/-- StreamAliasOperands: two entries in one read slot, a head in each of two slots, vectors in a read slot, room in a write slot. -/
def entryOf (d : Desc) (v : VWord) : Entry := ⟨⟨d, Desc.init, 0⟩, 0, .value v⟩
def vecDesc (write : Bool) : Desc := { readDesc with mode := if write then 9 else 8 }
def aliasTwo : State := slottedX fun q => { q with state := .active, cur := ⟨readDesc, Desc.init, 0⟩, queue := [entryOf readDesc 9, entryOf readDesc 7] }
def aliasHeads : State := aliasRead.updCore cC fun k => k.updSlot 1 fun q =>
  { q with state := .active, cur := ⟨readDesc, Desc.init, 0⟩, queue := [entryOf readDesc 5] }
def aliasVec (write : Bool) (l : List Entry) : State :=
  slottedX fun q => { q with state := .active, cur := ⟨vecDesc write, Desc.init, 0⟩, queue := l }
theorem witness_alias_more : aliasTwo.MayIssue xAll satX .user ∧ aliasHeads.MayIssue xAll satX .user ∧
    (aliasVec false [entryOf (vecDesc false) 1, entryOf (vecDesc false) 2]).MayIssue xAll noHint .user ∧
    (aliasVec true []).MayIssue xAll noHint .user ∧ aliasRead.MayIssue xAll noHint .user ∧ (aliasVec false []).proper [1, 2] ∧
    (aliasVec true []).proper [1, 2] :=
  ⟨may_ok (by decide), may_ok (by decide), may_ok (by decide), may_ok (by decide), may_ok (by decide),
    by unfold State.proper; decide, by unfold State.proper; decide⟩
theorem witness_alias_more_slots : aliasTwo.hintBit 0 = false ∧
    (let q := aliasTwo.me.slot 0; q.state = .active ∧ q.serves = none ∧ q.cur.own.esize = 3 ∧ q.cur.own.write = false ∧
      q.queue = [entryOf readDesc 9, entryOf readDesc 7]) ∧
    (let q := aliasHeads.me.slot 1; q.state = .active ∧ q.serves = none ∧ q.cur.own.esize = 3 ∧ q.cur.own.write = false ∧
      q.queue = [entryOf readDesc 5]) ∧ (aliasHeads.me.slot 0).queue.length = 1 ∧
    (let q := (aliasVec true []).me.slot 0; q.state = .active ∧ q.serves = none ∧ q.cur.own.esize = 4 ∧ q.cur.own.write = true ∧
      q.late = none ∧ q.queue = [] ∧ q.store.length < 16) ∧
    (let q := (aliasVec false []).me.slot 0; q.cur.own.esize = 4 ∧ q.cur.own.write = false) ∧
    ((aliasRead.me.slot 0).cur.own.esize ≠ 4 ∧ (aliasRead.me.slot 0).cur.own.write = false) := by decide +kernel
/-- R152: operand a takes the older entry, operand b the next. -/
theorem test_alias_order : (fAfter (.isub 1 28 28 0) aliasTwo 1).toNat = 2 ∧ (fAfter (.isub 1 28 29 0) aliasHeads 1).toNat = 2 := by decide +kernel

/-- RangeTaskAndWorkListResults: a state that is CLOSED and one that is not; a list that has ended, one that the detector ends, one of
which the core holds an item. -/
def ranged (closed : Bool) : State := (grouped .a (g3 2 9 0)).updDie 0 fun u => { u with states := [⟨0, 1, closed, [], []⟩] }
theorem witness_range_states : (ranged true).MayIssue aCompute noHint .user ∧ (ranged false).quiet ∧
    (((ranged true).die (ranged true).cur.die).stateOf (ranged true).me.group.ctx (ranged true).me.group.kid).any (fun r => r.closed) = true ∧
    (((ranged false).die (ranged false).cur.die).stateOf (ranged false).me.group.ctx (ranged false).me.group.kid).any (fun r => !r.closed) = true :=
  ⟨may_ok (by decide), quiet_of (by decide) (by decide), by decide, by decide⟩
theorem witness_takes : (let p := scratchBase ⟨0, 0⟩;
    (let s := listed id 3 3 0 2; s.lHead p = s.lTail p ∧ s.lTerm p = true ∧ Tbl.get [] s.takeq p = []) ∧
    (let s := listed id 3 3 0 1; s.lHead p = s.lTail p ∧ s.lTerm p = false ∧ s.lArmed p = true ∧ s.lActive p = 0) ∧
    (let s := listed id 3 3 2 1; s.lTerm p = false ∧ s.lArmed p = true ∧ s.lActive p ≠ 0) ∧
    (let s := listed (fun k => { k with hold := some 0x100000 }) 1 2 1 0; let noted := s.noted 0x100000;
      s.me.hold = some 0x100000 ∧ noted.resolve s.cur 0x100000 true true = (noted, .at_ (.here p)) ∧
        (let u := (State.writeLE (noted.mine fun k => { k with hold := none }) (p + 16) 2 (s.lActive p - 1).toNat).listChanged p;
          Tbl.get [] u.takeq p = [] ∧ u.cur = s.cur ∧ u.lHead p ≠ u.lTail p ∧ u.lActive p ≠ 0xFFFF ∧
            ∀ g ∈ granules (u.lItem p (u.lHead p)) 8, u.mark g = .ok))) := by decide +kernel
/-- R395: a TAKE of a list that has ended gives all ones. -/
theorem test_take_terminated : gAfter (.take 4 1) (listed id 3 3 0 2) 4 = BitVec.allOnes 64 := by decide +kernel

/-- LaunchAndObjectResults: nothing on its way. PageResults: a request queued at its object's home that used a leaf. LinkResults: ports
whose island runs and does not. -/
theorem witness_on_its_way : (launchable 0).quiet ∧ (launched .waiting 2).quiet ∧
    (let s := { on cK .a id with syncq := [(0x10000, [SyncReq.other 0 0x10000 true 0])] };
      s.syncUses 0 0x10000 (some 0x10000) = true ∧ s.syncUses 0 0x30000 (some 0x10000) = false ∧ s.syncUses 0 0 none = true) ∧
    (let p : PortName := ⟨.scaleUp, 0⟩;
      ((on cG .a id).port p).st = .down ∧ (on cG .a id).islandRuns (portIsland p) = false ∧
        State.islandRuns ((on cG .a id).setIsland (portIsland p) true) (portIsland p) = true) :=
  ⟨quiet_of (by decide) (by decide), quiet_of (by decide) (by decide), by decide, by decide⟩

/-- MatrixWaitAndAdapterResults: groups that go on from v31 to v0; REDA and PSRD on an alias. -/
def aliasMx (write : Bool) (m : MxWait) : State :=
  (aliasVec write (if write then [] else [entryOf (vecDesc false) 0])).updTh cC .x fun h => { h with mx := m }
def done2 : MxWait := .done { MxCmd.new .psrd with id := 3, vres := [1, 2] }
theorem witness_matrix_groups : (mxWaiting .none).proper (groupRegs 30 4 ++ groupRegs 31 2 ++ [1]) ∧
    (aliasMx false .none).MayIssue xCompute noHint .user ∧ (aliasMx false .none).MxReady ⟨0, 0⟩ 0 ∧
    (aliasMx true done2).MayIssue xCompute noHint .user ∧ (aliasMx true done2).MxReady ⟨0, 0⟩ 0 ∧
    (aliasMx false .none).proper [29, 1] ∧ (aliasMx true done2).proper [29, 1] :=
  ⟨by unfold State.proper; decide, may_ok (by decide), ⟨by decide, by decide, by decide⟩, may_ok (by decide),
    ⟨by decide, by decide, by decide⟩, by unfold State.proper; decide, by unfold State.proper; decide⟩
theorem witness_matrix_aliases :
    (let s := aliasMx false .none; let q := s.me.slot 0;
      q.state = .active ∧ q.serves = none ∧ q.cur.own.esize = 4 ∧ q.cur.own.write = false ∧ q.queue = [entryOf (vecDesc false) 0] ∧
        s.myTh.mx = .none ∧ (s.me.fr 1).toNat < 16 ∧
        ([0, s.me.vr 29].all fun z => (List.range 8).all fun i => bits z.toNat (128 * i + 99) 29 == 0) = true) ∧
    (aliasMx false done2).myTh.mx = done2 ∧
    (let s := aliasMx true done2; let q := s.me.slot 0;
      q.state = .active ∧ q.serves = none ∧ q.cur.own.esize = 4 ∧ q.cur.own.write = true ∧ q.late = none ∧ q.queue = [] ∧
        q.store.length < 16 ∧ (match s.myTh.mx with | .done c => c.vres.length == 2 && !c.late | _ => false) = true) := by decide +kernel

/-- ExternalResults: a gather that starts afresh. -/
theorem witness_external_fresh : (let s := extern gather1;
    s.myTh.pend = .none ∧ s.myTh.progK = 0 ∧ s.myTh.progMiss = false ∧ s.DescAt 0x400 ∧ s.MayIssue aMemory ntHint .user) ∧
    (let w := (extern gather1).descWords 0x400;
      passes (gatherChecks .xgath w) ((extern gather1).noted 0x400) = true ∧ 0 < extCount .xgath w ∧
        (match extWrite false (mapAddr w) (List.replicate (mapLen w) 0) ((extern gather1).noted 0x400) with | .ok _ => true | _ => false) = true) :=
  ⟨⟨by decide, by decide, by decide, ⟨quiet_of (by decide) (by decide), by decide, by decide, by decide⟩, may_ok (by decide)⟩, by decide +kernel⟩

/-- ThreadAndMemoryEvents: a relaxed store that its home may acknowledge, and one whose home holds it; a core in no checked pair.
MatrixAndChannelEvents: the ends of one connection, and of two; a store that is performed before a record; credit on its way. -/
def heldStore : State := ({ on cC .a id with groups := [group1] }).updCtx 0 fun c => { c with slots := [(5, SlotMap.switched)] }
theorem witness_stuck : (let r : RStore := ⟨0x200, 8, false, 7, []⟩;
      (relaxing.th cC .a).relaxed[0]? = some r ∧ r.stuck relaxing cC [] = false ∧
        RStore.stuck heldStore cC [] ⟨0x85800000, 8, false, 7, []⟩ = true) ∧
    ((on cC .a id).core cC).pairFollows = false ∧ (on cC .a id).pairOf cC = none := by decide
def crediting (conn : Nat) : State :=
  State.updCtx { delivering with router := [⟨0, .compute, 0, 0, conn, .credit 2 0⟩] } 0 fun c => { c with slots := [(0, SlotMap.mapped 0)] }
theorem witness_connections : ((delivering.core cM).inEp 0).conn = (delivering.me.outEp 0).conn ∧
    ((delivering.updIn cM 0 fun e => { e with conn := 2 }).core cM |>.inEp 0).conn ≠ (delivering.me.outEp 0).conn ∧
    (let e := delivering.me.outEp 0; e.staging.all (fun r => !(delivering.ackAll cC).storeBefore cC 0 e r) = true) ∧
    (∀ n ∈ [1, 2], ((crediting n).router.find? fun m => m.ch = 0 && (crediting n).goesTo m = .core cC &&
      match m.what with | .credit _ _ => true | _ => false) = some ⟨0, .compute, 0, 0, n, .credit 2 0⟩) := by decide +kernel

/-- PlacementAndOutsideEvents: a cluster that has stopped, and one whose PLACE is busy; a walk whose leaf is cached by now; a fault that
waits for room, of a key that is queued and of one that is not; time that the boot has reached; an entry of a frame queue whose granules
are correct; the host's address in no block. -/
def walking (cached : Bool) : State := (on cC .a id).updStation 0 fun q =>
  { q with walks := [⟨0, 0x10000, false, .cast 0⟩], tlb := if cached then [⟨0, 3, 0, 0xF⟩] else [] }
def faulted (key : Nat) (n : Nat) : State := (on cC .a id).updStation 0 fun q =>
  { q with faults := List.replicate n ⟨0, 1, 3, false, [], 1, false, false⟩, full := [⟨0, key, 3, false, [], 1, false, false⟩] }
theorem witness_outside_states : ((casting.updCluster 0 fun q => { q with stopped := true }).cluster 0).stopped = true ∧
    ((walking true).cachedLeaf 0 0 0x10000).isSome = true ∧ (walking false).cachedLeaf 0 0 0x10000 = none ∧
    (walking false).resident 0 = true ∧ (walking false).resident 1 = false ∧ ((walking false).walk 0 0 0x10000).code ≠ 0 ∧
    (let q := (faulted 1 1).station 0; q.faults.length < 64 ∧ q.full.any (fun e => (joinFault q.faults e).isSome) = true) ∧
    (let q := (faulted 2 1).station 0; q.faults.length < 64 ∧ q.full.all (fun e => (joinFault q.faults e).isNone) = true) ∧
    64 ≤ ((faulted 2 64).station 0).faults.length ∧
    (let s := { on cG .a id with life := { (on cG .a id).life with bootStep := 7 } }; s.life.mstop = false ∧ 7 ≤ s.life.bootStep) ∧
    (on cG .a id).memOk ∧ (∀ i < 8, (hosted 1 [1, 0x10000, 7, 0]).blockAt (0x50000 + i) = none) :=
  ⟨by decide +kernel, by decide +kernel, by decide +kernel, by decide +kernel, by decide +kernel, by decide +kernel, by decide +kernel,
    by decide +kernel, by decide +kernel, by decide, rfl, by decide +kernel⟩

/-- DeviceEvents: writes over I3C that ask for a report and that do not; an image that is refused; an update that goes on, and one that
goes back; an octet whose part has failed while a spare serves, and before. -/
theorem witness_device_more :
    (let asks := fun (w : I3cWrite) (n : Nat) => w.off ≤ 0x30 ∧ w.data[0x30 - w.off]? = some 1 ∧ n ≠ 1;
      asks ⟨0x30, [1]⟩ 0 ∧ ¬asks ⟨0x10, [1, 2]⟩ 0 ∧ ¬asks ⟨0x30, [1]⟩ 1) ∧
    managing.life.accepts { image1 with rsaOk := false } = false ∧ (1 : Nat) ≤ 400 ∧
    managing.octetOf 3 = some ⟨0, 3⟩ ∧ managing.octetOf 24 = none ∧
    (let s := { managing with life := { managing.life with rolling := true, updating := true } };
      let t := s.updCluster 0 fun q => { q with newFw := true };
      t.life.rolling = true ∧ ∀ c ∈ allClusters, (t.cluster c).newFw = decide (c.val ≤ (0 : Fin 16).val)) ∧
    managing.life.rolling = false ∧ State.reset.managed = false ∧ (on cG .a id).life.powered = true ∧ (on cG .a id).managed = false := by
  decide +kernel

end Sys2Proof.Tests
end

/-! The life of the device (R16, R20, R414, R438, R457 to R465): what each event of its life and each access of the host makes of a
state, and from these the statement about them. -/

namespace Sys2Proof.Machine

/-! ## What leaves the device's life alone -/

@[simp] theorem State.writeBytes_life (s : State) (a : Nat) (l : List Byte) : (s.writeBytes a l).life = s.life := by
  induction l generalizing s a with
  | nil => rfl
  | cons b l ih => exact (ih _ _).trans (State.putByte_life s a b)

theorem State.storeRecord_life (s : State) (cl : Fin 16) (r : CRec) : (s.storeRecord cl r).life = s.life := by
  unfold State.storeRecord
  rw [State.updCluster_life]
  exact State.writeBytes_life _ _ _

@[simp] theorem State.post_life (s : State) (cl : Fin 16) (kind obj ctx status : Nat) (value : Word) (seq : Option Nat) :
    (s.post cl kind obj ctx status value seq).life = s.life :=
  State.postRec_keeps State.life State.storeRecord_life State.updCluster_life _ _ _

@[simp] theorem State.postMgmt_life (s : State) (cl : Fin 16) (kind obj status : Nat) (value : Word) :
    (s.postMgmt cl kind obj status value).life = s.life := by
  unfold State.postMgmt
  split
  · rfl
  · exact State.post_life _ _ _ _ _ _ _ _

theorem State.foldl_updCore_life (f : State → Core → Core) (l : List CoreName) (s : State) :
    (l.foldl (fun s c => s.updCore c (f s)) s).life = s.life := by
  induction l generalizing s with
  | nil => rfl
  | cons c l ih => exact (ih _).trans (State.updCore_life _ _ _)

/-! ## Power (R457, R458, R462) -/

/-- The device with its supplies on and CYCLE of the shared islands' cores started, before any image is tried (R102, R457). -/
def State.suppliesOn (s : State) : State :=
  sharedCores.foldl (fun s c => s.updCore c fun k => { k with islandStart := s.cycle }) { s with life := { s.life with powered := true } }

theorem State.suppliesOn_life (s : State) : s.suppliesOn.life = { s.life with powered := true } :=
  State.foldl_updCore_life (fun s k => { k with islandStart := s.cycle }) _ _

theorem Life.slot_powered (l : Life) (p b : Bool) : Life.slot { l with powered := p } b = l.slot b := rfl

theorem State.powerUp_powered {s : State} (h : s.life.powered = true) (bo bc : List Nat) : s.powerUp bo bc = s := if_pos h

theorem State.suppliesOn_slot (s : State) (b : Bool) : s.suppliesOn.life.slot b = s.life.slot b := by
  rw [s.suppliesOn_life, Life.slot_powered]

theorem State.suppliesOn_selectB (s : State) : s.suppliesOn.life.selectB = s.life.selectB := by rw [s.suppliesOn_life]

/-- From off, the image of the active slot comes up, else that of the other one, else none (R458). -/
theorem State.powerUp_off {s : State} (h : s.life.powered = false) (bo bc : List Nat) :
    s.powerUp bo bc =
      let on := s.suppliesOn
      let a := on.life.selectB
      match on.life.slot a with
      | some im => { on with life := { on.life with slotB := a } }.bootWith im bo bc
      | none =>
        match on.life.slot (!a) with
        | some im => { on with life := { on.life with slotB := !a } }.bootWith im bo bc
        | none => { on with life := { on.life with status := 2 } } := by
  have hoff : ¬s.life.powered = true := by simp [h]
  exact if_neg hoff

theorem State.powerUp_active {s : State} (h : s.life.powered = false) {im : Image} (ha : s.life.slot s.life.selectB = some im)
    (bo bc : List Nat) : s.powerUp bo bc =
      State.bootWith { s.suppliesOn with life := { s.suppliesOn.life with slotB := s.life.selectB } } im bo bc := by
  simp only [State.powerUp_off h, State.suppliesOn_slot, State.suppliesOn_selectB, ha]

theorem State.powerUp_other {s : State} (h : s.life.powered = false) {im : Image} (ha : s.life.slot s.life.selectB = none)
    (hb : s.life.slot (!s.life.selectB) = some im) (bo bc : List Nat) : s.powerUp bo bc =
      State.bootWith { s.suppliesOn with life := { s.suppliesOn.life with slotB := !s.life.selectB } } im bo bc := by
  simp only [State.powerUp_off h, State.suppliesOn_slot, State.suppliesOn_selectB, ha, hb]

theorem State.powerUp_noImage {s : State} (h : s.life.powered = false) (ha : s.life.slot s.life.selectB = none)
    (hb : s.life.slot (!s.life.selectB) = none) (bo bc : List Nat) :
    s.powerUp bo bc = { s.suppliesOn with life := { s.suppliesOn.life with status := 2 } } := by
  simp only [State.powerUp_off h, State.suppliesOn_slot, State.suppliesOn_selectB, ha, hb]

/-! ## Attestation (R460) -/

/-- A requester's write is heard while the device is on; it asks for a report where it writes 1 to ATTREQ, none is being made and the
management core runs. -/
theorem State.i3cWrite_powered {s : State} (h : s.life.powered = true) (off : Nat) (data : List Byte) :
    s.i3cWrite off data =
      let l := { s.life with nonce := nonceAfter s.life.nonce off data }
      { s with life := if (off ≤ 0x30 ∧ data[0x30 - off]? = some 1) ∧ s.managed = true ∧ s.life.attreq ≠ 1 then
          { l with attreq := 1, asked := l.nonce } else l } := by
  simp [State.i3cWrite, h, and_assoc]

theorem State.powered_of_managed {s : State} (h : s.managed = true) : s.life.powered = true := by
  simp only [State.managed, Bool.and_eq_true] at h
  exact h.1.1

theorem State.i3cWrite_asks {s : State} (h : s.managed = true) {off : Nat} {data : List Byte}
    (ha : off ≤ 0x30 ∧ data[0x30 - off]? = some 1 ∧ s.life.attreq ≠ 1) :
    s.i3cWrite off data = { s with life := { s.life with
      nonce := nonceAfter s.life.nonce off data, attreq := 1, asked := nonceAfter s.life.nonce off data } } := by
  obtain ⟨hoff, hone, hidle⟩ := ha
  rw [State.i3cWrite_powered (State.powered_of_managed h)]
  dsimp only
  rw [if_pos ⟨⟨hoff, hone⟩, h, hidle⟩]

theorem State.i3cWrite_unasked {s : State} (h : s.life.powered = true) {off : Nat} {data : List Byte}
    (ha : ¬((off ≤ 0x30 ∧ data[0x30 - off]? = some 1) ∧ s.managed = true ∧ s.life.attreq ≠ 1)) :
    s.i3cWrite off data = { s with life := { s.life with nonce := nonceAfter s.life.nonce off data } } := by
  rw [State.i3cWrite_powered h]
  dsimp only
  rw [if_neg ha]

theorem State.report_asked {s : State} (h : s.managed = true) (ha : s.life.attreq = 1) :
    s.report = { s with life := { s.life with
      report := s.reportBody ++ padTo 16608 (Config.reportSignature s.reportBody), attreq := 2 } } := if_pos ⟨h, ha⟩

/-! ## Hitless update (R461, R462) -/

/-- The flash with a verdict in the slot that is not active. -/
def Life.putInactive (l : Life) (v : Option Image) : Life := if l.selectB then { l with flashA := v } else { l with flashB := v }

/-- A write under a running management core, while no update is open, leaves the image or an invalid slot (R461). -/
theorem State.writeImage_managed {s : State} (h : s.managed = true) (hu : s.life.updating = false) (im : Image) :
    s.writeImage im = { s with
      life :=
        if s.life.accepts im then { s.life.putInactive (some im) with updating := true, upfail := false, next := some im }
        else s.life.putInactive none } := by
  have hgo : ¬((!s.managed) = true ∨ s.life.updating = true) := by simp [h, hu]
  refine (if_neg hgo).trans ?_
  cases s.life.accepts im <;> rfl

/-- A cluster switches only under a running management core, during an update and at a launch boundary of a running control core. -/
theorem State.switchCluster_boundary {s : State} {cl : Fin 16} (h : s.managed = true) (hu : s.life.updating = true)
    (hp : (s.cluster cl).placeStatus ≠ 1) (ht : (s.th (.control cl) .a).superTrap = false) (hs : (s.cluster cl).stopped = false)
    (ok : Bool) : s.switchCluster cl ok =
      if s.life.rolling then
        if (s.cluster cl).newFw && allClusters.all fun c => decide (c.val ≤ cl.val) || !(s.cluster c).newFw then s.rollBack cl else s
      else if !(allClusters.all fun c => if c.val < cl.val then (s.cluster c).newFw else !(s.cluster c).newFw) then s
      else if !ok then s.rollBack cl
      else
        let t := (s.updCluster cl fun q => { q with newFw := true }).bootControl cl
        if cl.val = 15 then t.commitUpdate else t := by
  have hgo : ¬(!s.managed || !s.life.updating || (s.cluster cl).placeStatus = 1 || (s.th (.control cl) .a).superTrap ||
      (s.cluster cl).stopped) = true := by simpa [h, hu, ht, hs] using hp
  exact if_neg hgo

theorem mem_allClusters (cl : Fin 16) : cl ∈ allClusters := by revert cl; decide

/-- While an update goes back, the highest cluster still ahead is the last one (R462). -/
theorem State.last_ahead {s : State} {cl : Fin 16} (h : ∀ c ∈ allClusters, (s.cluster c).newFw = decide (c.val ≤ cl.val)) :
    ((s.cluster cl).newFw && allClusters.all fun c => decide (c.val ≤ cl.val) || !(s.cluster c).newFw) = true := by
  have hself : (s.cluster cl).newFw = true := by simp [h cl (mem_allClusters cl)]
  have hrest : (allClusters.all fun c => decide (c.val ≤ cl.val) || !(s.cluster c).newFw) = true :=
    List.all_eq_true.2 fun c hc => by rw [h c hc]; exact Bool.or_not_self _
  rw [hself, hrest]; rfl

/-- While an update goes on, the lowest cluster not yet ahead is the next one (R461). -/
theorem State.next_behind {s : State} {cl : Fin 16} (h : ∀ c ∈ allClusters, (s.cluster c).newFw = decide (c.val < cl.val)) :
    (allClusters.all fun c => if c.val < cl.val then (s.cluster c).newFw else !(s.cluster c).newFw) = true := by
  refine List.all_eq_true.2 fun c hc => ?_
  rw [h c hc]
  split
  case isTrue hlt => exact decide_eq_true hlt
  case isFalse hge => simp [hge]

/-! ## Islands, parts and resets (R414, R464, R465) -/

theorem State.islandOn_starts {s : State} {n : Nat} (hr : s.islandRetired n = false) (hn : s.islandRuns n = false) :
    s.islandOn n = (islandCores n).foldl (fun s c => s.updCore c fun k => { k with islandStart := s.cycle }) (s.setIsland n true) := by
  have hgo : ¬(s.islandRetired n || s.islandRuns n) = true := by simp [hr, hn]
  exact if_neg hgo

theorem State.idleStop_octet {s : State} {n : Nat} {o : OctName} {half : Nat} (h : s.managed = true) (hi : islandOf n = .octet o half)
    (hn : s.islandRuns n = true) (ho : (s.octet o).owner = 0) (hg : s.standing o = none)
    (ht : (s.octet o).retired = true ∨ (s.octet o).freeSince + 800000 ≤ s.cycle) : s.idleStop n = s.islandOff n := by
  simp [State.idleStop, hi, h, hn, ho, hg, ht]

theorem State.idleStop_unmanaged {s : State} (h : s.managed = false) (n : Nat) : s.idleStop n = s := by
  unfold State.idleStop
  split <;> simp [h]

theorem State.octetOf_congr {s t : State} (h : t.life.spared = s.life.spared) (n : Nat) : t.octetOf n = s.octetOf n := by
  unfold State.octetOf
  rw [h]

theorem State.retirePart_spared (s : State) (n : Nat) : (s.retirePart n).life.spared = s.life.spared := by
  unfold State.retirePart
  rw [State.postMgmt_life]
  dsimp only
  split <;> rfl

theorem State.octetOf_retirePart (s : State) (n m : Nat) : (s.retirePart n).octetOf m = s.octetOf m :=
  State.octetOf_congr (s.retirePart_spared n) m

theorem State.partFault_good {s : State} {n : Nat} (h : s.managed = true) (hn : Tbl.get false s.life.retiredParts n = false) :
    s.partFault n =
      if n < 400 then
        match s.octetOf n with
        | some o => (s.retirePart n).evacuate o
        | none => s.retirePart n
      else ((s.endCore (.memory (Fin.ofNat 12 ((n - 400) / 16)) (Fin.ofNat 16 (n - 400)))).retirePart n).islandOff (768 + (n - 400)) := by
  have hgo : ¬((!s.managed) = true ∨ Tbl.get false s.life.retiredParts n = true) := by simp [h, hn]
  rw [← s.octetOf_retirePart n n]
  exact if_neg hgo

theorem State.resetControl_stopped {s : State} {cl : Fin 16} (h : s.managed = true) (hs : (s.cluster cl).stopped = true) :
    s.resetControl cl = (((s.updCluster cl fun q => { q with stopped := false }).bootControl cl).storeHeld cl).settleBinds := by
  have hgo : ¬((!s.managed) = true ∨ (!(s.cluster cl).stopped) = true) := by simp [h, hs]
  exact if_neg hgo

/-! ## The host's stores (R438, R439) -/

/-- The byte at an address as a host store of it takes effect: in a block, a field that the host may not write stays (R4, R439). -/
def State.hostByte (s : State) (x : Nat) (b : Byte) : Byte :=
  match s.blockAt x with
  | some p => if hostWrites p.2 then b else s.byte ((homePA x).getD x)
  | none => b

theorem State.hostByte_outside {s : State} {x : Nat} (h : s.blockAt x = none) (b : Byte) : s.hostByte x b = b := by
  simp only [State.hostByte, h]

theorem State.hostByte_block {s : State} {x ctx off : Nat} (h : s.blockAt x = some (ctx, off)) (b : Byte) :
    s.hostByte x b = if off < 8 ∨ (36 ≤ off ∧ off < 40) then b else s.byte ((homePA x).getD x) := by
  simp only [State.hostByte, h, hostWrites, decide_eq_true_eq]

theorem State.hostBytes_getElem? (s : State) (pa : Nat) (l : List Byte) (i : Nat) :
    (s.hostBytes pa l)[i]? = l[i]?.map (s.hostByte (pa + i)) := by
  have numbered : (l.zip (List.range l.length))[i]? = l[i]?.map fun b => (b, i) := by
    rw [List.range_eq_range', ← List.zipIdx_eq_zip_range', List.getElem?_zipIdx, Nat.zero_add]
  rw [State.hostBytes, List.getElem?_map, numbered, Option.map_map]
  rfl

/-- Outside every queue block a host store takes effect as it is. -/
theorem State.hostBytes_outside {s : State} {pa : Nat} {l : List Byte} (h : ∀ i < l.length, s.blockAt (pa + i) = none) :
    s.hostBytes pa l = l := by
  refine List.ext_getElem? fun i => ?_
  rw [State.hostBytes_getElem?]
  rcases Nat.lt_or_ge i l.length with hi | hi
  · rw [List.getElem?_eq_getElem hi, Option.map_some, State.hostByte_outside (h i hi)]
  · rw [List.getElem?_eq_none hi, Option.map_none]

theorem State.hostBytes_block {s : State} {pa : Nat} {l : List Byte} {i ctx off : Nat} (hi : i < l.length)
    (hb : s.blockAt (pa + i) = some (ctx, off)) : (s.hostBytes pa l)[i]? =
      some (if off < 8 ∨ (36 ≤ off ∧ off < 40) then l.getD i 0 else s.byte ((homePA (pa + i)).getD (pa + i))) := by
  rw [State.hostBytes_getElem?, List.getElem?_eq_getElem hi, Option.map_some, State.hostByte_block hb, List.getElem_eq_getD]

/-- Outside every queue block a host store covers no TAIL. -/
theorem State.tailsIn_outside {s : State} {pa n : Nat} (h : ∀ i < n, s.blockAt (pa + i) = none) : s.tailsIn pa n = [] := by
  refine List.filter_eq_nil_iff.2 fun ctx _ => ?_
  simp only [List.any_eq_true, List.mem_range, not_exists, not_and]
  intro i hi
  simp [h i hi]

theorem State.hostAccess_store {s : State} (h : s.portUp .umval = true) (pa : Nat) (data : List Byte) :
    s.hostAccess pa (some data) =
      let t := s.writePA (pageParts (data.length / 1024 + 2) pa data.length) (s.hostBytes pa data)
      let u := (s.tailsIn pa data.length).foldl (fun s ctx => s.ring (s.hostCore ctx) 1 none 0) t
      (u.ctxs.foldl (fun s c => s.flushHost c.1 c.2.hostDone.length) u).followBank := by
  have hgo : ¬(!s.portUp .umval) = true := by simp [h]
  exact if_neg hgo

/-- A host store that meets no queue block is performed, and kicks nothing. -/
theorem State.hostAccess_store_outside {s : State} (h : s.portUp .umval = true) {pa : Nat} {data : List Byte}
    (hb : ∀ i < data.length, s.blockAt (pa + i) = none) : s.hostAccess pa (some data) =
      let t := s.writePA (pageParts (data.length / 1024 + 2) pa data.length) data
      (t.ctxs.foldl (fun t c => t.flushHost c.1 c.2.hostDone.length) t).followBank := by
  rw [State.hostAccess_store h, State.hostBytes_outside hb, State.tailsIn_outside hb]
  rfl

/-! ## The statement -/

/-- A step of the device goes on in the state that its effect makes. -/
theorem exec_of_event {i : Instr} {s t : State} {f : State → State} (hi : exec i s = event f s) (h : f s = t) : exec i s = .next t := by
  rw [hi, event, h]

/-- Settles O60: each event by what the lemmas above say of its effect on the state. -/
theorem deviceEvents : Obligations.DeviceEvents := by
  unfold Obligations.DeviceEvents
  intro s bo bc n part cl
  refine ⟨fun h => exec_of_event (exec_powerOn bo bc s) (State.powerUp_powered h bo bc), fun h => ?off,
    ⟨s.powerDown, exec_powerLoss s, rfl, rfl, rfl⟩,
    fun h => ⟨fun w => ?request, fun ha => ⟨_, exec_of_event (exec_attestationReport s) (State.report_asked h ha)⟩,
      fun im hu => ?image, fun hu hp ht hs => ?switch,
      fun hr hn => exec_of_event (exec_islandStart n s) ((if_pos h).trans (State.islandOn_starts hr hn)),
      fun hn hi => exec_of_event (exec_islandStopRequest n s) (if_pos ?stop),
      fun o half hi hn ho hg ht => exec_of_event (exec_islandIdleStop n s) (State.idleStop_octet h hi hn ho hg ht),
      fun hn => ?fault, fun hs => exec_of_event (exec_controlCoreReset cl s) (State.resetControl_stopped h hs),
      fun r => exec_of_event (exec_packagePowerLimit r s) (if_pos h)⟩,
    fun hp h w => ?unheard, fun h => ?unmanaged, fun pa => exec_hostMemoryAccess pa none s,
    fun pa data hu hb => exec_of_event (exec_hostMemoryAccess pa _ s) (State.hostAccess_store_outside hu hb),
    fun pa data hu => exec_of_event (exec_hostMemoryAccess pa _ s) (State.hostAccess_store hu pa.toNat data),
    fun pa data i ctx off hi hb => State.hostBytes_block hi hb⟩
  case off =>
    refine ⟨fun im ha => ?_, fun ha im hb => ?_, fun ha hb => ?_⟩ <;> rw [exec_powerOn, execPowerOn, event]
    · rw [State.powerUp_active h ha]; rfl
    · rw [State.powerUp_other h ha hb]; rfl
    · rw [State.powerUp_noImage h ha hb]; rfl
  case request =>
    refine ⟨fun ha => exec_of_event (exec_attestationRequest w s) (State.i3cWrite_asks h ha), fun ha =>
      exec_of_event (exec_attestationRequest w s) (State.i3cWrite_unasked (State.powered_of_managed h) ?_)⟩
    exact fun ⟨⟨hoff, hone⟩, _, hidle⟩ => ha ⟨hoff, hone, hidle⟩
  case image =>
    have write := exec_of_event (exec_updateImageWrite im s) (State.writeImage_managed h hu im)
    refine ⟨fun hok => ?_, fun hok => ?_⟩
    · rw [write, hok]; rfl
    · rw [write, hok]; rfl
  case switch =>
    have switch (ok : Bool) := exec_of_event (exec_updateClusterSwitch cl ok s) (State.switchCluster_boundary h hu hp ht hs ok)
    refine ⟨fun ok hr hc => ?_, fun hr hc => ⟨?_, ?_⟩⟩
    · rw [switch, hr, State.last_ahead hc]; rfl
    · rw [switch, hr, State.next_behind hc]; rfl
    · rw [switch, hr, State.next_behind hc]; rfl
  case stop => simp [h, hn, hi]
  case fault =>
    have fault := exec_of_event (exec_partFault part s) (State.partFault_good h hn)
    refine ⟨fun hlt => ⟨fun o ho => ?_, fun ho => ?_⟩, fun hle => ?_⟩
    · rw [fault, if_pos hlt, ho]
    · rw [fault, if_pos hlt, ho]
    · rw [fault, if_neg (Nat.not_lt.2 hle)]
  case unheard =>
    refine exec_of_event (exec_attestationRequest w s) (State.i3cWrite_unasked hp fun ha => ?_)
    simp [h] at ha
  case unmanaged =>
    have still : ¬s.managed = true := by simp [h]
    simp only [List.forall_mem_cons]
    exact ⟨exec_of_event (exec_attestationReport s) (if_neg fun ha => still ha.1),
      exec_of_event (exec_islandStart n s) (if_neg still),
      exec_of_event (exec_islandIdleStop n s) (State.idleStop_unmanaged h n),
      exec_of_event (exec_islandStopRequest n s) (if_neg (by simp [h])),
      exec_of_event (exec_partFault part s) (if_pos (Or.inl (by simp [h]))),
      exec_of_event (exec_controlCoreReset cl s) (if_pos (Or.inl (by simp [h]))),
      exec_of_event (exec_packagePowerLimit true s) (if_neg still), fun _ hi => absurd hi List.not_mem_nil⟩

end Sys2Proof.Machine

/-! Streams, the control queues and the repetition buffer (R147 to R150, R158, R159, R164 to R167): what each step of their
instructions does to a state, and from these the statements about them. -/

namespace Sys2Proof

/-- Removing every pair of some keys leaves the default there and every other key as it was. -/
theorem Tbl.get_filter_keys {α : Type} (d : α) (t : Tbl α) (l : List Nat) (k : Nat) :
    Tbl.get d (t.filter fun m => !l.contains m.1) k = if k ∈ l then d else Tbl.get d t k := by
  induction t with
  | nil => simp [Tbl.get]
  | cons p t ih =>
    obtain ⟨j, v⟩ := p
    by_cases hj : j ∈ l
    · rw [List.filter_cons_of_neg (by simpa using hj), ih]
      split
      · rfl
      · have : j ≠ k := by rintro rfl; contradiction
        simp [Tbl.get, this]
    · rw [List.filter_cons_of_pos (by simpa using hj)]
      by_cases hjk : j = k
      · subst hjk; simp [Tbl.get, hj]
      · simpa [Tbl.get, hjk] using ih

end Sys2Proof

namespace Sys2Proof.Machine

/-! ## Issuing -/

theorem streamMisuse_run {α : Type} (n : Nat) (s : State) :
    (streamMisuse n : M α) s = .error (.trap Cause.queueProtocol (BitVec.ofNat 64 n) id) := rfl

theorem issue_retires {s t : State} {who : Who} {ok : Hints} {need : Priv} {body : M Unit} (h : s.MayIssue who ok need)
    (hb : body s = .ok ((), t)) : issue who ok need (seq body) s = s.retires t := issueIf_retires h (M.seq_ok hb)

theorem issue_misuses {s : State} {who : Who} {ok : Hints} {need : Priv} {body : M Unit} {k : Nat} (h : s.MayIssue who ok need)
    (hb : body s = streamMisuse k s) :
    issue who ok need (seq body) s = s.traps Cause.queueProtocol (BitVec.ofNat 64 k) := issueIf_traps h (M.seq_error hb)

theorem issue_waits {s : State} {who : Who} {ok : Hints} {need : Priv} {body : M Unit} {r : WReason} {p : Pend}
    (h : s.MayIssue who ok need) (hb : body s = waitAs r p s) :
    issue who ok need (seq body) s = s.waits (s.updTh s.cur s.thr fun h => { h with pend := p }) r :=
  issueIf_waits (edit := fun s => s.updTh s.cur s.thr fun h => { h with pend := p }) h (M.seq_error hb)

@[simp] theorem State.me_mine (s : State) (f : Core → Core) : (s.mine f).me = f s.me := State.core_updCore s s.cur f

theorem State.mine_congr {s : State} {f g : Core → Core} (h : f s.me = g s.me) : s.mine f = s.mine g := congrArg (s.setCore s.cur) h

/-! ## Staging (R147) -/

/-- The issuing core with its slot n's staging descriptor changed. -/
def State.staged (s : State) (n : Fin 4) (f : Desc → Desc) : State :=
  s.mine fun k => k.updSlot n.val fun q => { q with staging := f q.staging }

theorem updStaging_ok (n : Fin 4) (f : Desc → Desc) (s : State) : updStaging n f s = .ok ((), s.staged n f) := rfl

/-- An instruction that stages where its operands are in range, and is a misuse elsewhere. -/
theorem issue_stages {s t : State} {body : M Unit} {c : Prop} [Decidable c] (h : s.MayIssue aStream noHint .user)
    (hb : body s = if c then .ok ((), t) else streamMisuse 7 s) :
    issue aStream noHint .user (seq body) s = if c then s.retires t else s.traps Cause.queueProtocol 7 := by
  split at hb
  case isTrue hc => rw [if_pos hc]; exact issue_retires h hb
  case isFalse hc => rw [if_neg hc]; exact issue_misuses h hb

theorem exec_scfg_stages {s : State} (h : s.MayIssue aStream noHint .user) (n : Fin 4) (a b : Reg) :
    exec (.scfg n a b) s = if modeOk (s.me.gr b.val) then
      s.retires (s.staged n fun d => { d with base := s.me.gr a.val, mode := s.me.gr b.val, manual := false, idx := none })
      else s.traps Cause.queueProtocol 7 := by
  refine issue_stages h ?_
  simp only [M.bind_run, rdG_ok, M.ite_run, streamMisuse_run, updStaging_ok]
  cases modeOk (s.me.gr b.val) <;> rfl

theorem exec_sdim_stages {s : State} (h : s.MayIssue aStream noHint .user) (k n : Fin 4) (a b : Reg) :
    exec (.sdim k n a b) s = if (s.me.gr a.val).toNat < 2 ^ 32 then
      s.retires (s.staged n fun d => d.setDim k (s.me.gr a.val).toNat (s.me.gr b.val).toInt)
      else s.traps Cause.queueProtocol 7 := by
  refine issue_stages h ?_
  simp only [M.bind_run, rdG_ok, M.ite_run, streamMisuse_run, updStaging_ok, ← Nat.not_lt, ite_not]

theorem exec_sind_stages {s : State} (h : s.MayIssue aStream noHint .user) (n m : Fin 4) (b : Reg) :
    exec (.sind n m b) s = if (s.me.gr b.val).toNat < 8 then
      s.retires (s.staged n fun d => { d with idx := some (m, (s.me.gr b.val).toNat) })
      else s.traps Cause.queueProtocol 7 := by
  refine issue_stages h ?_
  simp only [M.bind_run, rdG_ok, M.ite_run, streamMisuse_run, updStaging_ok, ← Nat.not_lt, ite_not]

theorem exec_sman_stages {s : State} (h : s.MayIssue aStream noHint .user) (n : Fin 4) (b : Reg) :
    exec (.sman n b) s =
      if modeOk (s.me.gr b.val) = true ∧ (s.me.gr b.val).getLsbD 5 = false ∧ bits (s.me.gr b.val).toNat 8 2 = 0 then
        s.retires (s.staged n fun d => { d with mode := s.me.gr b.val, manual := true, idx := none })
      else s.traps Cause.queueProtocol 7 := by
  refine issue_stages h ?_
  simp only [M.bind_run, rdG_ok, M.ite_run, streamMisuse_run, updStaging_ok]
  cases modeOk (s.me.gr b.val) <;> cases (s.me.gr b.val).getLsbD 5 <;> simp

/-! ## Enabling (R148) -/

/-- The descriptor of the index slot that a staged descriptor names. -/
def Core.stagedIndex (k : Core) (d : Desc) : Desc :=
  match d.idx with
  | some i => (k.slot i.1.val).staging
  | none => Desc.init

theorem exec_sen_indexSlot {s : State} (h : s.MayIssue aStream noHint .user) {n : Fin 4}
    (hs : (s.me.slot n.val).serves.isSome = true) : exec (.sen n) s = s.traps Cause.queueProtocol 8 := by
  refine issue_misuses (k := 8) h ?_
  rw [M.bind_ok (myCore_ok s)]
  simp only [hs, if_true]
  rfl

theorem exec_sen_commits {s : State} (h : s.MayIssue aStream noHint .user) (hr : (s.th s.cur .a).relaxed = []) {n : Fin 4}
    (hs : (s.me.slot n.val).serves = none) (hc : s.me.stagedCount (s.me.slot n.val).staging < 2 ^ 48)
    (hi : s.me.indexRefused n (s.me.slot n.val).staging = false) (hk : (s.me.slot n.val).kindDiffers = false)
    (hp : (s.me.slot n.val).pending = none) :
    exec (.sen n) s =
      s.retires (s.mine fun k => k.moveSlot n fun q => q.commit (s.me.stagedIndex (s.me.slot n.val).staging)) := by
  refine issue_retires h ?_
  rw [M.bind_ok (myCore_ok s)]
  simp only [hs, hi, hk, hp, Nat.not_le.2 hc, Option.isSome_none, Bool.false_eq_true, if_false]
  rw [M.bind_ok (coverStores_none hr)]
  rfl

/-! ## Disabling and flushing (R149, R158) -/

theorem flushWrites_ok {q : Slot} (hl : q.late = none) (hw : q.mustWait = false) (n : Fin 4) (s : State) :
    flushWrites n q s = .ok ((), s) := by
  unfold flushWrites
  simp [hl, hw, M.pure_run]

/-- An index slot is not named directly (R150). -/
theorem withSlot_indexSlot {s : State} {n : Fin 4} (h : (s.me.slot n.val).serves.isSome = true) (f : Slot → M Unit) :
    withSlot n f s = streamMisuse 8 s := by
  unfold withSlot
  rw [M.bind_ok (myCore_ok s)]
  simp only [h, if_true]
  rfl

theorem withSlot_off {s : State} {n : Fin 4} (h : (s.me.slot n.val).serves = none) (ho : (s.me.slot n.val).state = .off)
    (f : Slot → M Unit) : withSlot n f s = .ok ((), s) := by
  unfold withSlot
  rw [M.bind_ok (myCore_ok s)]
  simp [h, ho, M.pure_run]

/-- An enabled slot that has no write of its own to wait for is acted on at once. -/
theorem withSlot_on {s : State} {n : Fin 4} (hr : (s.th s.cur .a).relaxed = []) (h : (s.me.slot n.val).serves = none)
    (ho : (s.me.slot n.val).state ≠ .off)
    (hw : (s.me.slot n.val).cur.own.write = false ∨ (s.me.slot n.val).late = none ∧ (s.me.slot n.val).mustWait = false)
    (f : Slot → M Unit) : withSlot n f s = f (s.me.slot n.val) s := by
  unfold withSlot
  rw [M.bind_ok (myCore_ok s)]
  simp only [h, ho, Option.isSome_none, Bool.false_eq_true, if_false, ne_eq, not_false_eq_true, if_true]
  rw [M.bind_ok (coverStores_none hr)]
  rcases hw with hw | ⟨hl, hm⟩
  · simp only [hw, Bool.false_eq_true, if_false]
  · split
    · rw [M.bind_ok (flushWrites_ok hl hm n s)]
    · rfl

/-- Settles O36: each instruction by what the lemmas above say of its body, run where the thread may issue it. -/
theorem streamStagingAndControlResults : Obligations.StreamStagingAndControlResults := by
  unfold Obligations.StreamStagingAndControlResults
  refine ⟨fun s n m k a b h => ⟨exec_scfg_stages h n a b, exec_sdim_stages h k n a b, exec_sind_stages h n m b,
    exec_sman_stages h n b⟩, fun s n h hr => ⟨fun hs => ?indexSlot, fun hs => ⟨fun hc hi hk hp => ?commit, fun ho => ?off,
    fun ho hw => ?on⟩⟩⟩
  case indexSlot =>
    exact ⟨exec_sen_indexSlot h hs, issue_misuses h (withSlot_indexSlot hs _), issue_misuses h (withSlot_indexSlot hs _)⟩
  case commit => exact exec_sen_commits h hr hs hc hi hk hp
  case off => exact ⟨issue_retires h (withSlot_off hs ho _), issue_retires h (withSlot_off hs ho _)⟩
  case on => exact ⟨issue_retires h (withSlot_on hr hs ho hw _), issue_retires h (withSlot_on hr hs ho hw _)⟩

/-! ## Elements in own memory (R142, R145, R275) -/

theorem M.forM_singleton {α : Type} (x : α) (f : α → M Unit) (s : State) : [x].forM f s = f x s := by
  show (f x >>= fun _ => pure ()) s = f x s
  rw [M.bind_run]
  cases f x s <;> rfl

theorem Desc.bytes_le (d : Desc) : d.bytes ≤ 128 := by
  unfold Desc.bytes
  split
  · exact Nat.le_refl _
  · have : d.esize < 8 := Nat.mod_lt _ (by decide)
    calc 2 ^ d.esize ≤ 2 ^ 7 := Nat.pow_le_pow_right (by decide) (by omega)
      _ = 128 := rfl

theorem pageSpans_sector {ea n : Nat} (h : ea % 1024 + n ≤ 1024) : pageSpans ea n = [(ea, n)] :=
  if_pos (Nat.min_eq_left (by omega))

/-- A near address of a core that is no memory core is resolved by the map of its kind. -/
theorem findPlace_near {s : State} {ea p : Nat} {rd wr : Bool} (hx : isExt ea = false) (hh : s.nearHome s.cur ea = .at_ (.here p)) :
    findPlace ea rd wr s = .ok (.here p, s) := by
  simp only [findPlace, State.resolve, hx, Bool.false_eq_true, if_false, hh]

/-- An element of n bytes at a near address of a core that is no memory core, aligned and in one sector, whose home is here. -/
structure State.ElementAt (s : State) (ea n align p : Nat) : Prop where
  kind : s.cur.kind ≠ .memory
  near : s.nearElement s.cur (ea : Int) n = true
  aligned : ea % align = 0
  sector : ea % 1024 + n ≤ 1024
  plain : isExt ea = false
  home : s.nearHome s.cur ea = .at_ (.here p)

theorem streamLocate_near {s : State} {ea n align p : Nat} (h : s.ElementAt ea n align p) (rd wr : Bool) :
    streamLocate (ea : Int) n align rd wr s = .ok ([(.here p, ea, n)], s) := by
  have aligned : (ea : Int) % (align : Int) = 0 := by exact_mod_cast h.aligned
  unfold streamLocate
  rw [M.bind_ok (get_ok s)]
  simp only [h.kind, h.near, aligned, if_false, Bool.not_true, Bool.false_eq_true, ne_eq, not_true_eq_false, Int.toNat_natCast,
    Nat.zero_add, pageSpans_sector h.sector, List.mapM_cons, List.mapM_nil]
  simp only [M.bind_run, findPlace_near h.plain h.home, M.pure_run]

theorem touchSpans_near {s : State} {ea n p : Nat} (wr : Bool) (hx : isExt ea = false) :
    touchSpans wr [(.here p, ea, n)] s = .ok ((), s) := by
  simp [touchSpans, act_ok, State.touchHome, hx]

theorem examineSpans_ok {s : State} (ea a : Nat) {l : List Nat} (h : ∀ g ∈ l, s.mark g = .ok) :
    examineSpans [(ea, a, l)] s = .ok ((), s) := by
  simp [examineSpans, examine_ok a l h]

/-- With every lane enabled the bytes of a value are stored as they are. -/
theorem State.writeLanes_all (s : State) (a k n w : Nat) (h : n ≤ k) : s.writeLanes a (2 ^ k - 1) n w = s.writeLE a n w := by
  induction n generalizing s a k w with
  | zero => rfl
  | succ n ih =>
    obtain ⟨k, rfl⟩ : ∃ j, k = j + 1 := ⟨k - 1, by omega⟩
    have pos : 0 < 2 ^ k := Nat.two_pow_pos k
    have odd : (2 ^ (k + 1) - 1) % 2 = 1 := by omega
    have half : (2 ^ (k + 1) - 1) / 2 = 2 ^ k - 1 := by omega
    rw [State.writeLanes, State.writeLE, if_pos odd, half, ih _ _ _ _ (by omega)]

/-- The marks of some granules removed: these were replaced (R275). -/
def State.unmark (s : State) (l : List Nat) : State := { s with marks := s.marks.filter fun m => !l.contains m.1 }

/-- What `granules` lists are starts of granules. -/
theorem granStart_granules {a n g : Nat} (h : g ∈ granules a n) : granStart g = g := by
  unfold granules at h
  split at h
  · cases h
  · obtain ⟨i, -, rfl⟩ := List.mem_map.1 h
    unfold granStart granule
    split <;> split <;> omega

theorem State.mark_unmark {s : State} {a n : Nat} {l : List Nat} (hl : ∀ g ∈ l, g ∈ granules a n)
    (hm : ∀ g ∈ granules a n, s.mark g = .ok) (g : Nat) : (s.unmark l).mark g = s.mark g := by
  unfold State.mark State.unmark
  rw [Tbl.get_filter_keys]
  split
  case isTrue hg =>
    have clean := hm _ (hl _ hg)
    rw [State.mark, granStart_granules (hl _ hg)] at clean
    exact clean.symm
  case isFalse => rfl

theorem State.writeLE_mem_only (s : State) (a n w : Nat) : s.writeLE a n w = { s with mem := (s.writeLE a n w).mem } := by
  induction n generalizing s a w with
  | zero => rfl
  | succ n ih => exact ih _ _ _

@[simp] theorem State.writeLE_marks (s : State) (a n w : Nat) : (s.writeLE a n w).marks = s.marks := by
  rw [State.writeLE_mem_only]

@[simp] theorem State.mark_writeLE (s : State) (a n w g : Nat) : (s.writeLE a n w).mark g = s.mark g := by
  rw [State.mark, State.writeLE_marks]
  rfl

theorem State.writeLE_mem_congr {s t : State} (h : s.mem = t.mem) (a n w : Nat) : (s.writeLE a n w).mem = (t.writeLE a n w).mem := by
  induction n generalizing s t a w with
  | zero => exact h
  | succ n ih => exact ih (by simp [State.putByte, h]) _ _

/-- An element in one sector of own memory whose granules are correct is written whole, some of its granules replaced (R275). -/
theorem streamWrite_near {s : State} {ea n align p : Nat} (h : s.ElementAt ea n align p) (hm : ∀ g ∈ granules p n, s.mark g = .ok)
    (hb : n ≤ 128) (w : Nat) :
    ∃ l, (∀ g ∈ l, g ∈ granules p n) ∧
      streamWrite (ea : Int) n align (BitVec.allOnes 128) w s = .ok ((), (s.unmark l).writeLE p n w) := by
  refine ⟨(granules p n).filter fun g => lanesIn p n 0 g (BitVec.allOnes 128) = granule g, fun g hg => (List.mem_filter.1 hg).1, ?_⟩
  unfold streamWrite
  rw [M.bind_ok (streamLocate_near h false true)]
  dsimp only
  rw [M.bind_ok (touchSpans_near true h.plain)]
  simp only [List.filterMap_cons, List.filterMap_nil]
  rw [M.bind_ok (examineSpans_ok ea p fun g hg => hm g (List.mem_filter.1 hg).1)]
  rw [M.bind_ok (M.forM_singleton _ _ _), M.forM_singleton]
  simp only [Nat.sub_self, Nat.pow_zero, Nat.div_one, act_ok, ← State.writeLanes_all _ _ 128 _ _ hb]
  rfl

/-! ## Manual slots (R159) -/

/-- A slot on which an LDQ, or with `wr` an STQ, may act. -/
def Slot.manualFor (q : Slot) (wr : Bool) : Prop :=
  q.state ≠ .off ∧ q.serves = none ∧ q.cur.own.manual = true ∧ q.cur.own.write = wr

theorem Slot.not_manualFor_iff (q : Slot) (wr : Bool) : ¬q.manualFor wr ↔
    q.state = .off ∨ q.serves.isSome = true ∨ q.cur.own.manual = false ∨ q.cur.own.write ≠ wr := by
  simp only [Slot.manualFor, ne_eq, Classical.not_and_iff_not_or_not, Classical.not_not, Bool.not_eq_true, Option.isSome_iff_ne_none]

theorem manualSlot_ok {s : State} {n : Fin 4} {wr : Bool} (h : (s.me.slot n.val).manualFor wr) :
    manualSlot n wr s = .ok (s.me.slot n.val, s) := by
  unfold manualSlot
  rw [M.bind_ok (myCore_ok s)]
  simp only [← Slot.not_manualFor_iff, h, not_true_eq_false, if_false]
  rfl

theorem manualSlot_misuse {s : State} {n : Fin 4} {wr : Bool} (h : ¬(s.me.slot n.val).manualFor wr) :
    manualSlot n wr s = .error (.trap Cause.queueProtocol 9 id) := by
  unfold manualSlot
  rw [M.bind_ok (myCore_ok s)]
  simp only [← Slot.not_manualFor_iff, h, not_false_eq_true, if_true]
  rfl

theorem exec_ldq_misuse {s : State} (h : s.MayIssue aStream ntHint .user) {n : Fin 4} (hq : ¬(s.me.slot n.val).manualFor false)
    (a : Reg) : exec (.ldq n a) s = s.traps Cause.queueProtocol 9 := by
  refine issue_misuses (k := 9) h ?_
  rw [M.bind_ok (rdG_ok a s), M.bind_error (manualSlot_misuse hq)]
  rfl

theorem exec_stq_misuse {s : State} (h : s.MayIssue aStream ntHint .user) {n : Fin 4} (hq : ¬(s.me.slot n.val).manualFor true)
    (a : Reg) : exec (.stq n a) s = s.traps Cause.queueProtocol 9 := by
  refine issue_misuses (k := 9) h ?_
  rw [M.bind_ok (rdG_ok a s), M.bind_error (manualSlot_misuse hq)]
  rfl

theorem exec_ldq_queues {s : State} (h : s.MayIssue aStream ntHint .user) (hr : (s.th s.cur .a).relaxed = []) {n : Fin 4}
    (hq : (s.me.slot n.val).manualFor false) (hl : (s.me.slot n.val).queue.length < 16) (a : Reg) :
    exec (.ldq n a) s =
      let r := s.request s.cur (s.me.slot n.val).cur.own ((s.me.gr a.val).toNat : Int)
      s.retires (r.1.mine fun k => k.updSlot n.val fun q =>
        { q with queue := q.queue ++ [⟨q.cur, q.next, r.2⟩], next := q.next + 1 }) := by
  refine issue_retires h ?_
  rw [M.bind_ok (rdG_ok a s), M.bind_ok (manualSlot_ok hq)]
  simp only [Nat.not_le.2 hl, if_false]
  rw [M.bind_ok (coverStores_none hr), M.bind_ok (get_ok s), M.bind_ok (set_ok s _), updMy_ok]

theorem exec_stq_writes {s t : State} (h : s.MayIssue aStream ntHint .user) (hr : (s.th s.cur .a).relaxed = []) {n : Fin 4}
    (hq : (s.me.slot n.val).manualFor true) {p : Pushed} {rest : List Pushed} (hp : (s.me.slot n.val).store = p :: rest)
    (hm : (s.me.slot n.val).cur.own.maskw = false) {a : Reg}
    (hw : streamWrite ((s.me.gr a.val).toNat : Int) (s.me.slot n.val).cur.own.bytes (s.me.slot n.val).cur.own.align (BitVec.allOnes 128)
      p.v.toNat { s with ea := s.me.gr a.val } = .ok ((), t)) :
    exec (.stq n a) s = s.retires (t.mine fun k => k.updSlot n.val fun q => { q with store := rest, done := q.done + 1 }) := by
  refine issue_retires h ?_
  rw [M.bind_ok (rdG_ok a s), M.bind_ok (manualSlot_ok hq)]
  simp only [hp, hm, Bool.false_eq_true, if_false]
  rw [M.bind_ok (coverStores_none hr), M.bind_ok (act_ok _ s), M.bind_ok hw, updMy_ok]

/-! ## The control queues (R167) -/

/-- A register of an A-thread is checked for nothing, and one of an X-thread outside the stream slots passes. -/
theorem checkR_proper {s : State} {r : Reg} (h : s.thr = .x → s.proper [r]) {o : Opnd} (ho : o.reg = r.val) :
    checkR [o] s = .ok ((), s) := by
  unfold checkR
  rw [M.bind_ok (ask_ok State.thr s)]
  split
  case isTrue hx =>
    refine checkAliases_proper _ fun x hx' => ?_
    rw [List.mem_singleton.1 hx', ho]
    exact h hx r (List.mem_singleton_self r)
  case isFalse => rfl

/-- What QPUT and QGET do first: they check their register, and go on by their thread and core. -/
theorem checkR_then {s : State} {r : Reg} (h : s.thr = .x → s.proper [r]) {o : Opnd} (ho : o.reg = r.val)
    (f : Thread → Core → M Unit) :
    (do checkR [o]; let t ← ask State.thr; let k ← myCore; f t k) s = f s.thr s.me s := by
  rw [M.bind_ok (checkR_proper h ho), M.bind_ok (ask_ok State.thr s), M.bind_ok (myCore_ok s)]

theorem rdR_a {s : State} (h : s.thr = .a) (r : Reg) : rdR r s = .ok (s.me.gr r.val, s) := by
  unfold rdR
  rw [M.bind_ok (ask_ok State.thr s), if_pos h, rdG_ok]

theorem rdR_x {s : State} (h : s.thr = .x) {r : Reg} (hr : s.proper [r]) : rdR r s = .ok (s.me.fr r.val, s) := by
  unfold rdR
  rw [M.bind_ok (ask_ok State.thr s), if_neg (by simp [h]), rdF_proper (hr r (List.mem_singleton_self r))]

theorem wrR_a {s : State} (h : s.thr = .a) (r : Reg) (w : Word) : wrR r w s = .ok ((), s.mine fun k => k.setG r.val w) := by
  unfold wrR
  rw [M.bind_ok (ask_ok State.thr s), if_pos h, wrG_ok]

theorem wrR_x {s : State} (h : s.thr = .x) {r : Reg} (hr : s.proper [r]) (w : Word) :
    wrR r w s = .ok ((), s.mine fun k => k.setF r.val w) := by
  unfold wrR
  rw [M.bind_ok (ask_ok State.thr s), if_neg (by simp [h]), wrF_proper w (hr r (List.mem_singleton_self r))]

/-- A release behind nothing of its thread on its way waits for nothing (R292). -/
theorem release_quiet {s : State} (h : s.quiet) : release s = .ok ((), s) := by
  unfold release
  rw [M.bind_ok (coverStores_none h.stores), settleSent_none h.records]

/-- A core whose A-thread has taken the oldest entry of XAQ: its flushes cover what was pushed before that entry (R161). -/
def Core.takeXaq (k : Core) (rest : List Word) (tags : List Nat) : Core :=
  ({ k with xaq := rest, xaqTags := k.xaqTags.drop 1 }).coverTags tags

section
variable {s : State} {r : Reg} (h : s.MayIssue axStream noHint .user)
include h

theorem exec_qput_a (hq : s.quiet) (ht : s.thr = .a) (hl : s.me.axq.length < 8) :
    exec (.qput r) s = s.retires (s.mine fun k => { k with axq := k.axq ++ [s.me.gr r.val] }) := by
  refine issue_retires h ?_
  rw [checkR_then (r := r) (by simp [ht]) rfl]
  simp only [ht, Nat.not_le.2 hl, if_false, if_true]
  rw [M.bind_ok (rdR_a ht r), M.bind_ok (release_quiet hq), updMy_ok]

theorem exec_qput_x (ht : s.thr = .x) (hr : s.proper [r]) (hl : s.me.xaq.length < 8) :
    exec (.qput r) s = s.retires (s.mine fun k =>
      { k with xaq := k.xaq ++ [s.me.fr r.val], xaqTags := k.xaqTags ++ [k.pushTags] }) := by
  refine issue_retires h ?_
  rw [checkR_then (r := r) (fun _ => hr) rfl]
  simp only [ht, Nat.not_le.2 hl, if_false, reduceCtorEq]
  rw [M.bind_ok (rdR_x ht hr), updMy_ok]

theorem exec_qput_full (hr : s.thr = .x → s.proper [r]) (hl : (if s.thr = .a then s.me.axq else s.me.xaq).length = 8) :
    exec (.qput r) s = s.waits (s.updTh s.cur s.thr fun h => { h with pend := .put }) .queue := by
  refine issue_waits h ?_
  rw [checkR_then hr rfl]
  cases ht : s.thr
  case a =>
    rw [ht, if_pos rfl] at hl
    simp only [hl, Nat.le_refl, if_true]
    rfl
  case x =>
    rw [ht, if_neg (by decide)] at hl
    simp only [hl, Nat.le_refl, if_true]
    rfl

theorem exec_qget_x (ht : s.thr = .x) (hr : s.proper [r]) {w : Word} {rest : List Word} (hl : s.me.axq = w :: rest) :
    exec (.qget r) s = s.retires ((s.mine fun k => { k with axq := rest }).mine fun k => k.setF r.val w) := by
  refine issue_retires h ?_
  rw [checkR_then (r := r) (fun _ => hr) rfl]
  simp only [ht, hl]
  rw [M.bind_ok (updMy_ok _ s)]
  refine wrR_x (s := s.mine _) ht (fun x hx => ?_) w
  rw [State.me_mine]
  exact hr x hx

theorem exec_qget_a (ht : s.thr = .a) {w : Word} {rest : List Word} (hl : s.me.xaq = w :: rest) :
    exec (.qget r) s = s.retires ((s.mine fun k => k.takeXaq rest (s.me.xaqTags.headD [])).mine fun k => k.setG r.val w) := by
  have taken : (s.mine fun k => k.takeXaq rest (k.xaqTags.headD [])) = s.mine fun k => k.takeXaq rest (s.me.xaqTags.headD []) :=
    State.mine_congr rfl
  refine issue_retires h ?_
  rw [checkR_then (r := r) (by simp [ht]) rfl]
  simp only [ht, hl]
  rw [M.bind_ok (updMy_ok _ s), ← taken]
  exact wrR_a (s := s.mine _) ht r w

theorem exec_qget_empty (hr : s.thr = .x → s.proper [r]) (hl : (if s.thr = .a then s.me.xaq else s.me.axq) = []) :
    exec (.qget r) s = s.waits (s.updTh s.cur s.thr fun h => { h with pend := .take }) .queue := by
  refine issue_waits h ?_
  rw [checkR_then hr rfl]
  cases ht : s.thr
  case a =>
    rw [ht, if_pos rfl] at hl
    simp only [hl]
  case x =>
    rw [ht, if_neg (by decide)] at hl
    simp only [hl]

end

/-- Settles O37: each instruction by what the lemmas above say of its body; the memory and the marks after an STQ are those of a full
write of one element. -/
theorem manualStreamAndControlQueueResults : Obligations.ManualStreamAndControlQueueResults := by
  unfold Obligations.ManualStreamAndControlQueueResults
  refine ⟨fun s n a h hr => ⟨fun hq => exec_ldq_misuse h hq a, fun hq => exec_stq_misuse h hq a,
      fun hq hl => exec_ldq_queues h hr hq hl a, ?write⟩,
    fun s r h hq hr => ⟨exec_qput_a h hq, fun ht => exec_qput_x h ht (hr ht), fun ht w rest hl => exec_qget_x h ht (hr ht) hl,
      fun ht w rest hl => exec_qget_a h ht hl, exec_qget_empty h hr, exec_qput_full h hr⟩⟩
  case write =>
    intro hq p rest hp hk hn ha hs hm b hh hx hg _
    have place : State.ElementAt { s with ea := s.me.gr a.val } _ _ _ b := ⟨hk, hn, ha, hs, hx, hh⟩
    obtain ⟨l, hl, hw⟩ := streamWrite_near place hg (Desc.bytes_le _) p.v.toNat
    refine ⟨State.writeLE (State.unmark { s with ea := s.me.gr a.val } l) b _ _, ?_, State.writeLE_mem_congr (by rfl) _ _ _, fun g => ?_,
      exec_stq_writes h hr hq hp hm hw⟩
    · rw [State.writeLE_marks]
      exact State.writeLE_mem_only _ _ _ _
    · rw [State.mark_writeLE]
      exact State.mark_unmark hl hg g

/-! ## The repetition buffer (R164, R165) -/

/-- The n words behind a repetition at pc. -/
def State.bodyWords (s : State) (pc n : Nat) : List (BitVec 32) :=
  (List.range n).map fun j => BitVec.ofNat 32 (s.readLE (localBase s.cur + (pc + 4 + 4 * j)) 4)

theorem State.map_readLE_bodyAddrs (s : State) (pc n : Nat) :
    ((List.range n).map fun j => pc + 4 + 4 * j).map (fun q => BitVec.ofNat 32 (s.readLE (localBase s.cur + q) 4)) =
      s.bodyWords pc n := List.map_map

theorem find?_bodyAddrs_below {pc n xb : Nat} (h : pc + 4 * n < xb) :
    ((List.range n).map fun j => pc + 4 + 4 * j).find? (fun q => decide (xb ≤ q)) = none := by
  simp only [List.find?_eq_none, List.forall_mem_map, List.mem_range, decide_eq_true_eq]
  omega

/-- With its body below XB, uncorrupted and of allowed words, a repetition passes over it or captures it. -/
theorem exec_rpt_captures {s : State} (h : s.MayIssue xAll noHint .user) {a : Reg} (ha : s.proper [a]) (m : BitVec 4) (p : Fin 4)
    {l : Fin 16} {pc : Nat} (hpc : (s.th s.cur .x).pc = pc) (hxb : pc + 4 * (l.val + 1) < s.xbOf s.cur)
    (hm : ∀ g ∈ granules (localBase s.cur + pc + 4) (4 * (l.val + 1)), s.mark g = .ok)
    (hw : ∀ w ∈ s.bodyWords pc (l.val + 1), fld w.toNat 26 6 ≠ 1 ∧ bodyAllowed s.cur.kind w = true) :
    exec (.rpt a m p l) s =
      if (s.me.fr a.val).setWidth 24 = (0 : BitVec 24) then s.retires s (.to (pc + 4 + 4 * (l.val + 1)))
      else s.retires (s.mine fun k => { k with
        rpt := ⟨true, 0, BitVec.ofNat 4 l.val, BitVec.ofNat 2 p.val, m, 0, (s.me.fr a.val).setWidth 24⟩,
        rptBody := s.bodyWords pc (l.val + 1) }) (.to (pc + 4)) := by
  have hints : ((s.bodyWords pc (l.val + 1)).any fun w => decide (fld w.toNat 26 6 = 1)) = false :=
    List.any_eq_false.2 fun w hw' => by simpa using (hw w hw').1
  have allowed : (s.bodyWords pc (l.val + 1)).find? (fun w => !bodyAllowed s.cur.kind w) = none :=
    List.find?_eq_none.2 fun w hw' => by simp [(hw w hw').2]
  have count : checkAliases [fIn a] s = .ok ((), s) := checkAliases_proper _ fun o ho => by
    rw [List.mem_singleton.1 ho]
    exact ha a (List.mem_singleton_self a)
  subst hpc
  rw [exec_rpt, execRpt, issue, issueIf_settles h, M.bind_ok (get_ok s)]
  simp only [find?_bodyAddrs_below hxb, State.map_readLE_bodyAddrs, hints, allowed, checkRead_ok hm, Bool.false_eq_true, if_false]
  rw [M.bind_ok (granuleTrap_ok _ _ s s), M.bind_ok count, M.bind_ok (rdF_proper (ha a (List.mem_singleton_self a))), M.ite_run]
  split <;> rfl

/-- Settles O38: the words that the statement reads are those that RPT captures. -/
theorem repetitionResults : Obligations.RepetitionResults := by
  unfold Obligations.RepetitionResults
  intro s a m p l h ha pc n body count hxb hm hw
  exact exec_rpt_captures h ha m p rfl hxb hm hw

end Sys2Proof.Machine

/-! Lane instructions of the X-thread (R175 to R192) on proper registers (R91): one law for each shape of effect, cited for every
instruction of that shape. -/

namespace Sys2Proof.Machine

/-! ## Operands and destinations -/

theorem State.proper.mono {s : State} {l l' : List Reg} (h : s.proper l) (hl : l' ⊆ l) : s.proper l' := fun r hr => h r (hl hr)

/-- An X-thread's instruction on proper registers passes the misuse checks of its operands (R153). -/
theorem xIssue_on {s t : State} {ok : Hints} {ops : List Opnd} {l : List Reg} {body : M Unit} (h : s.MayIssue xAll ok .user)
    (hr : s.proper l) (ho : ops.map Opnd.reg = l.map Fin.val) (hb : body s = .ok ((), t)) :
    xIssue ok ops body s = s.retires t := by
  refine xIssue_retires h (fun o hm => ?_) hb
  obtain ⟨r, hrl, e⟩ := List.mem_map.1 (ho ▸ List.mem_map_of_mem hm)
  exact e ▸ hr r hrl

/-- A value written to f[d] together with the flags of its roundings (R69). -/
def State.flaggedF (s : State) (d : Reg) (w : Word) (fl : Flags) : State :=
  (s.mine fun k => k.setF d.val w).mine fun k => k.raised fl

/-- A value written to v[d] together with the flags of its roundings (R69). -/
def State.flaggedV (s : State) (d : Reg) (w : VWord) (fl : Flags) : State :=
  (s.mine fun k => k.setV d.val w).mine fun k => k.raised fl

section
variable {s : State} {d a b c : Reg}

theorem wrF_raise_proper (hr : s.proper [d]) (w : Word) (fl : Flags) :
    (do wrF d w; raise fl : M Unit) s = .ok ((), s.flaggedF d w fl) := by
  rw [M.bind_ok (wrF_proper w (hr d (by simp)))]; rfl

theorem wrV_raise_proper (hr : s.proper [d]) (w : VWord) (l : PWord) (fl : Flags) :
    (do wrV d w l; raise fl : M Unit) s = .ok ((), s.flaggedV d w fl) := by
  rw [M.bind_ok (wrV_proper w l (hr d (by simp)))]; rfl

/-! ## Scalar lanes (R175 to R177) -/

theorem scalar2_retires (h : s.MayIssue xAll satX .user) (hr : s.proper [a, b, d])
    (op : Nat → Nat → Bool → Nat → Nat → Nat × Flags) (p : Fin 8) (t : Fin 16) :
    scalar2 op d a b p t s = s.retires (s.lanesF (fmtWidth t.val) (laneOn (fmtWidth t.val) (s.me.pr p.val)) d fun i =>
      op t.val s.me.rm s.satOn (lane (fmtWidth t.val) (s.me.fr a.val).toNat i)
        (lane (fmtWidth t.val) (s.me.fr b.val).toNat i)) := by
  refine xIssue_on h hr rfl ?_
  rw [M.bind_ok (rdF_proper (hr a (by simp))), M.bind_ok (rdF_proper (hr b (by simp))), M.bind_ok (rdP_ok _ s),
    M.bind_ok (roundMode_ok s), M.bind_ok (satMode_ok s)]
  exact putLanesF_proper _ _ _ (hr d (by simp))

theorem scalar1_retires (h : s.MayIssue xAll satX .user) (hr : s.proper [a, d]) (op : Nat → Nat → Bool → Nat → Nat × Flags)
    (p : Fin 8) (t : Fin 16) :
    scalar1 op d a p t s = s.retires (s.lanesF (fmtWidth t.val) (laneOn (fmtWidth t.val) (s.me.pr p.val)) d fun i =>
      op t.val s.me.rm s.satOn (lane (fmtWidth t.val) (s.me.fr a.val).toNat i)) := by
  refine xIssue_on h hr rfl ?_
  rw [M.bind_ok (rdF_proper (hr a (by simp))), M.bind_ok (rdP_ok _ s), M.bind_ok (roundMode_ok s), M.bind_ok (satMode_ok s)]
  exact putLanesF_proper _ _ _ (hr d (by simp))

theorem scalarFma_retires (h : s.MayIssue xAll satX .user) (hr : s.proper [a, b, c, d]) (op : Nat) (u : Fin 4) :
    scalarFma op d a b c u s = s.retires (s.lanesF (fmtWidth (ty2 u)) (fun _ => true) d fun i =>
      laneFma op (ty2 u) s.me.rm s.satOn (lane (fmtWidth (ty2 u)) (s.me.fr a.val).toNat i)
        (lane (fmtWidth (ty2 u)) (s.me.fr b.val).toNat i) (lane (fmtWidth (ty2 u)) (s.me.fr c.val).toNat i)) := by
  refine xIssue_on h hr rfl ?_
  rw [M.bind_ok (rdF_proper (hr a (by simp))), M.bind_ok (rdF_proper (hr b (by simp))), M.bind_ok (rdF_proper (hr c (by simp))),
    M.bind_ok (roundMode_ok s), M.bind_ok (satMode_ok s)]
  exact putLanesF_proper _ _ _ (hr d (by simp))

theorem scalarCmp_retires (h : s.MayIssue xAll noHint .user) (hr : s.proper [a, b, d]) (op : Nat) (p : Fin 8) (t : Fin 16) :
    scalarCmp op d a b p t s = s.retires (s.lanesF (fmtWidth t.val) (laneOn (fmtWidth t.val) (s.me.pr p.val)) d fun i =>
      let r := compareF op t.val (lane (fmtWidth t.val) (s.me.fr a.val).toNat i) (lane (fmtWidth t.val) (s.me.fr b.val).toNat i)
      (if r.1 then 2 ^ fmtWidth t.val - 1 else 0, r.2)) := by
  refine xIssue_on h hr rfl ?_
  rw [M.bind_ok (rdF_proper (hr a (by simp))), M.bind_ok (rdF_proper (hr b (by simp))), M.bind_ok (rdP_ok _ s)]
  exact putLanesF_proper _ _ _ (hr d (by simp))

/-! ## Scalar conversions (R177, R178) -/

theorem execFcvt_retires (h : s.MayIssue xAll satX .user) (hr : s.proper [a, d]) (p : Fin 8) (t u : Fin 16) :
    execFcvt d a t p u s =
      (let r := convertLanes t.val u.val 64 s.me.rm s.satOn (s.hintBit 0) (s.me.pr p.val) (s.me.fr d.val).toNat
        (s.me.fr a.val).toNat
       s.retires (s.flaggedF d (BitVec.ofNat 64 r.1) r.2)) := by
  refine xIssue_on h hr rfl ?_
  rw [M.bind_ok (rdF_proper (hr a (by simp))), M.bind_ok (rdP_ok _ s), M.bind_ok (roundMode_ok s), M.bind_ok (satMode_ok s),
    M.bind_ok (satHint_ok s), M.bind_ok (oldF_proper (hr d (by simp)))]
  exact wrF_raise_proper (hr.mono (by simp)) _ _

/-- With lane 0 inactive FCVTFL keeps it and still clears the bits above it. -/
theorem execFcvtfl_retires (h : s.MayIssue xAll noHint .user) (hr : s.proper [a, d]) (p : Fin 8) (t : Fin 16) :
    execFcvtfl d a p t s =
      (if (s.me.pr p.val).getLsbD 0 then
        (let r := roundNum t.val s.me.rm s.satOn (numOfInt (s.me.fr a.val).toInt)
         s.retires (s.flaggedF d (BitVec.ofNat 64 r.1) r.2))
      else s.retiresF d (BitVec.ofNat 64 ((s.me.fr d.val).toNat % 2 ^ fmtWidth t.val))) := by
  rw [State.retiresF, ← apply_ite s.retires]
  refine xIssue_on h hr rfl ?_
  rw [M.bind_ok (rdF_proper (hr a (by simp))), M.bind_ok (rdP_ok _ s), M.bind_ok (roundMode_ok s), M.bind_ok (satMode_ok s),
    M.bind_ok (oldF_proper (hr d (by simp))), M.ite_run, wrF_raise_proper (hr.mono (by simp)), wrF_proper _ (hr d (by simp))]
  split <;> rfl

theorem execFcvtlf_retires (h : s.MayIssue xAll satX .user) (hr : s.proper [a, d]) (p : Fin 8) (t : Fin 16) :
    execFcvtlf d a p t s =
      (let r := toInteger s.me.rm (-(2 ^ 63)) (2 ^ 63 - 1) (decodeF t.val ((s.me.fr a.val).toNat % 2 ^ fmtWidth t.val))
       if (s.me.pr p.val).getLsbD 0 then s.retires (s.flaggedF d (int64 r.1) r.2) else s.retiresF d (s.me.fr d.val)) := by
  rw [State.retiresF, ← apply_ite s.retires]
  refine xIssue_on h hr rfl ?_
  rw [M.bind_ok (rdF_proper (hr a (by simp))), M.bind_ok (rdP_ok _ s), M.bind_ok (roundMode_ok s),
    M.bind_ok (oldF_proper (hr d (by simp))), M.ite_run, wrF_raise_proper (hr.mono (by simp)), wrF_proper _ (hr d (by simp)),
    BitVec.ofNat_toNat, BitVec.setWidth_eq]
  split <;> rfl

/-! ## Scalar integers (R179) -/

theorem xInt_retires {ok : Hints} (h : s.MayIssue xAll ok .user) (hr : s.proper [a, b, d]) (f : Bool → Word → Word → Word)
    (p : Fin 8) {r : Word} (hf : f (s.hintBit 0) (s.me.fr a.val) (s.me.fr b.val) = r) :
    xInt ok f d a b p s = s.retiresF d (if (s.me.pr p.val).getLsbD 0 then r else s.me.fr d.val) := by
  subst hf
  refine xIssue_on h hr rfl ?_
  rw [M.bind_ok (rdF_proper (hr a (by simp))), M.bind_ok (rdF_proper (hr b (by simp))), M.bind_ok (rdP_ok _ s),
    M.bind_ok (satHint_ok s), M.bind_ok (oldF_proper (hr d (by simp))), BitVec.ofNat_toNat, BitVec.setWidth_eq]
  exact wrF_proper _ (hr d (by simp))

theorem execImovi_retires (h : s.MayIssue xAll noHint .user) (hr : s.proper [d]) (i : BitVec 10) (p : Fin 8) :
    execImovi d i p s = s.retiresF d (if (s.me.pr p.val).getLsbD 0 then int64 (sext 10 i.toNat) else s.me.fr d.val) := by
  refine xIssue_on h hr rfl ?_
  rw [M.bind_ok (rdP_ok _ s), M.bind_ok (oldF_proper (hr d (by simp))), BitVec.ofNat_toNat, BitVec.setWidth_eq]
  exact wrF_proper _ (hr d (by simp))

end

/-! ## The integer operations as functions of the operands' values (R129) -/

theorem satWrap_eq (sat : Bool) (r : Int) :
    satWrap sat r = if sat then int64 (satI r (-(2 ^ 63)) (2 ^ 63 - 1)) else int64 r := apply_ite int64 _ _ _

@[simp] theorem int64_toInt (x : Word) : int64 x.toInt = x := BitVec.ofInt_toInt

theorem iSrl_eq (x y : Word) : iSrl x y = BitVec.ofNat 64 (x.toNat / 2 ^ (y.toNat % 64)) := by
  rw [← Nat.shiftRight_eq_div_pow, ← BitVec.toNat_ushiftRight, BitVec.ofNat_toNat, BitVec.setWidth_eq]; rfl

theorem iSra_eq (x y : Word) : iSra x y = int64 (x.toInt.fdiv (2 ^ (y.toNat % 64))) := by
  have hp : (0 : Int) ≤ 2 ^ (y.toNat % 64) := Int.le_of_lt (Int.pow_pos (by omega))
  rw [Int.fdiv_eq_ediv_of_nonneg _ hp]
  show int64 (x.toInt >>> (y.toNat % 64)) = _
  rw [Int.shiftRight_eq_div_pow, Int.natCast_pow]; rfl

theorem iMin_eq (x y : Word) : iMin x y = int64 (min x.toInt y.toInt) := by
  unfold iMin
  split
  case isTrue h => rw [Int.min_eq_left (by omega), int64_toInt]
  case isFalse h => rw [Int.min_eq_right (by omega), int64_toInt]

theorem iMax_eq (x y : Word) : iMax x y = int64 (max x.toInt y.toInt) := by
  unfold iMax
  split
  case isTrue h => rw [Int.max_eq_right (by omega), int64_toInt]
  case isFalse h => rw [Int.max_eq_left (by omega), int64_toInt]

theorem iMinu_eq (x y : Word) : iMinu x y = BitVec.ofNat 64 (min x.toNat y.toNat) := by
  unfold iMinu
  split
  case isTrue h => rw [Nat.min_eq_left (by omega), BitVec.ofNat_toNat, BitVec.setWidth_eq]
  case isFalse h => rw [Nat.min_eq_right (by omega), BitVec.ofNat_toNat, BitVec.setWidth_eq]

theorem iMaxu_eq (x y : Word) : iMaxu x y = BitVec.ofNat 64 (max x.toNat y.toNat) := by
  unfold iMaxu
  split
  case isTrue h => rw [Nat.max_eq_right (by omega), BitVec.ofNat_toNat, BitVec.setWidth_eq]
  case isFalse h => rw [Nat.max_eq_left (by omega), BitVec.ofNat_toNat, BitVec.setWidth_eq]

/-- Settles O20: each instruction is one of the shapes above, at its own lane function or value. -/
theorem scalarResults : Obligations.ScalarResults := by
  unfold Obligations.ScalarResults
  refine ⟨?lanes, ?conversions, ?integers⟩
  case lanes =>
    intro s d a b c p t u h hr
    have habcd : s.proper [a, b, c, d] := hr.mono (by simp)
    have habd : s.proper [a, b, d] := hr.mono (by simp)
    have had : s.proper [a, d] := hr.mono (by simp)
    have two := fun op => scalar2_retires h habd op p t
    have one := fun op => scalar1_retires h had op p t
    have fused := fun op => scalarFma_retires h habcd op u
    exact ⟨(exec_fadd ..).trans (two _), (exec_fsub ..).trans (two _), (exec_fmul ..).trans (two _), (exec_fdiv ..).trans (two _),
      (exec_fmin ..).trans (two _), (exec_fmax ..).trans (two _), (exec_fsgnj ..).trans (two _), (exec_fsgnjn ..).trans (two _),
      (exec_fsgnjx ..).trans (two _), (exec_fsqrt ..).trans (one _), (exec_fclass ..).trans (one _), (exec_fmov ..).trans (one _),
      (exec_fmadd ..).trans (fused 0), (exec_fmsub ..).trans (fused 1), (exec_fnmadd ..).trans (fused 2),
      (exec_fnmsub ..).trans (fused 3)⟩
  case conversions =>
    intro s d a b p t u hr
    have habd : s.proper [a, b, d] := hr.mono (by simp)
    have had : s.proper [a, d] := hr.mono (by simp)
    refine ⟨fun h => ?_, fun h => ⟨(exec_fcvt ..).trans (execFcvt_retires h had p t u),
      (exec_fcvtlf ..).trans (execFcvtlf_retires h had p t)⟩⟩
    have compare := fun op => scalarCmp_retires h habd op p t
    exact ⟨(exec_feq ..).trans (compare 0), (exec_flt ..).trans (compare 1), (exec_fle ..).trans (compare 2),
      (exec_funord ..).trans (compare 3), (exec_fcvtfl ..).trans (execFcvtfl_retires h had p t)⟩
  case integers =>
    intro s d a b i p hr
    have habd : s.proper [a, b, d] := hr.mono (by simp)
    have hd : s.proper [d] := hr.mono (by simp)
    refine ⟨fun h => ?sums, fun h => ?others⟩
    case sums =>
      have put := fun r : Word → Word → Int => xInt_retires h habd (fun sat x y => satWrap sat (r x y)) p (satWrap_eq _ _)
      exact ⟨(exec_iadd ..).trans (put _), (exec_isub ..).trans (put _), (exec_imul ..).trans (put _),
        (exec_isll ..).trans (put _)⟩
    case others =>
      have put := fun f r => xInt_retires (r := r) h habd f p
      exact ⟨(exec_iand ..).trans (put _ _ rfl), (exec_ior ..).trans (put _ _ rfl), (exec_ixor ..).trans (put _ _ rfl),
        (exec_isrl ..).trans (put _ _ (iSrl_eq _ _)), (exec_isra ..).trans (put _ _ (iSra_eq _ _)),
        (exec_imin ..).trans (put _ _ (iMin_eq _ _)), (exec_imax ..).trans (put _ _ (iMax_eq _ _)),
        (exec_iminu ..).trans (put _ _ (iMinu_eq _ _)), (exec_imaxu ..).trans (put _ _ (iMaxu_eq _ _)),
        (exec_islt ..).trans (put _ _ rfl), (exec_isltu ..).trans (put _ _ rfl),
        (exec_imovi ..).trans (execImovi_retires h hd i p)⟩

/-! ## Vector lanes (R180 to R182) -/

section
variable {s : State} {ok : Hints} {d a b c : Reg}

theorem vector2_retires (h : s.MayIssue xAll ok .user) (hr : s.proper [a, b, d])
    (op : Nat → Nat → Bool → Nat → Nat → Nat × Flags) {mode : M Bool} {sat : Bool} (hm : mode s = .ok (sat, s))
    (p : Fin 8) (t : Fin 16) :
    vector2 ok op mode d a b p t s = s.retires (s.lanesV (fmtWidth t.val) (s.me.pr p.val) d fun i =>
      op t.val s.me.rm sat (lane (fmtWidth t.val) (s.me.vr a.val).toNat i) (lane (fmtWidth t.val) (s.me.vr b.val).toNat i)) := by
  refine xIssue_on h hr rfl ?_
  rw [M.bind_ok (rdV_proper (hr a (by simp))), M.bind_ok (rdV_proper (hr b (by simp))), M.bind_ok (rdP_ok _ s),
    M.bind_ok (roundMode_ok s), M.bind_ok hm]
  exact putLanesV_proper _ _ _ (hr d (by simp))

theorem vector1_retires (h : s.MayIssue xAll ok .user) (hr : s.proper [a, d]) (op : Nat → Nat → Bool → Nat → Nat × Flags)
    (p : Fin 8) (t : Fin 16) :
    vector1 ok op d a p t s = s.retires (s.lanesV (fmtWidth t.val) (s.me.pr p.val) d fun i =>
      op t.val s.me.rm s.satOn (lane (fmtWidth t.val) (s.me.vr a.val).toNat i)) := by
  refine xIssue_on h hr rfl ?_
  rw [M.bind_ok (rdV_proper (hr a (by simp))), M.bind_ok (rdP_ok _ s), M.bind_ok (roundMode_ok s), M.bind_ok (satMode_ok s)]
  exact putLanesV_proper _ _ _ (hr d (by simp))

theorem vFma_retires (h : s.MayIssue xAll satX .user) (hr : s.proper [a, b, c, d]) (op : Nat) (q u : Fin 4) :
    vFma op d a b c q u s = s.retires (s.lanesV (fmtWidth (ty2 u)) (s.me.pr q.val) d fun i =>
      laneFma op (ty2 u) s.me.rm s.satOn (lane (fmtWidth (ty2 u)) (s.me.vr a.val).toNat i)
        (lane (fmtWidth (ty2 u)) (s.me.vr b.val).toNat i) (lane (fmtWidth (ty2 u)) (s.me.vr c.val).toNat i)) := by
  refine xIssue_on h hr rfl ?_
  rw [M.bind_ok (rdV_proper (hr a (by simp))), M.bind_ok (rdV_proper (hr b (by simp))), M.bind_ok (rdV_proper (hr c (by simp))),
    M.bind_ok (rdP_ok _ s), M.bind_ok (roundMode_ok s), M.bind_ok (satMode_ok s)]
  exact putLanesV_proper _ _ _ (hr d (by simp))

/-! ## Predicates (R181, R183) -/

theorem vCmp_retires (h : s.MayIssue xAll noHint .user) (hr : s.proper [a, b]) (op : Nat → Nat → Nat → Bool × Flags) (n : Nat)
    (p : Fin 8) (t : Fin 16) :
    vCmp op n a b p t s =
      (let w := fmtWidth t.val
       let g := s.me.pr p.val
       let r := fun i => op t.val (lane w (s.me.vr a.val).toNat i) (lane w (s.me.vr b.val).toNat i)
       s.retires ((s.mine fun k => k.setP n (lanesToPred w (1024 / w) fun i => laneOn w g i && (r i).1)).mine fun k =>
         k.raised ((List.range (1024 / w)).foldl (fun f i => if laneOn w g i then f ||| (r i).2 else f) fNone))) := by
  refine xIssue_on h hr rfl ?_
  rw [M.bind_ok (rdV_proper (hr a (by simp))), M.bind_ok (rdV_proper (hr b (by simp))), M.bind_ok (rdP_ok _ s),
    M.bind_ok (wrP_ok _ _ s)]
  rfl

theorem predOp_retires (h : s.MayIssue xAll noHint .user) (f : PWord → PWord → PWord) (n m l : Nat) (p : Fin 8) :
    predOp f n m l p s = s.retiresP n (f (s.me.pr m) (s.me.pr l) &&& s.me.pr p.val) := by
  refine xIssue_retires h (by simp) ?_
  rw [M.bind_ok (rdP_ok _ s), M.bind_ok (rdP_ok _ s), M.bind_ok (rdP_ok _ s)]
  rfl

theorem execLoopp_retires (h : s.MayIssue xAll noHint .user) (hr : s.proper [a, b]) (d : Reg) (p : Fin 8) (t : Fin 16) :
    execLoopp d a b p t s = s.retiresP d.val (lanesToPred (fmtWidth t.val) (1024 / fmtWidth t.val) fun i =>
      laneOn (fmtWidth t.val) (s.me.pr p.val) i && decide ((s.me.fr a.val).toNat + i < (s.me.fr b.val).toNat)) := by
  refine xIssue_on h hr rfl ?_
  rw [M.bind_ok (rdF_proper (hr a (by simp))), M.bind_ok (rdF_proper (hr b (by simp))), M.bind_ok (rdP_ok _ s)]
  rfl

theorem execPcnt_retires (h : s.MayIssue xAll noHint .user) (hr : s.proper [d]) (a : Reg) (p : Fin 8) (t : Fin 16) :
    execPcnt d a p t s = s.retiresF d (BitVec.ofNat 64
      ((List.range (1024 / fmtWidth t.val)).countP (laneOn (fmtWidth t.val) (s.me.pr a.val &&& s.me.pr p.val)))) := by
  refine xIssue_on h hr rfl ?_
  rw [M.bind_ok (rdP_ok _ s), M.bind_ok (rdP_ok _ s), List.countP_eq_length_filter]
  exact wrF_proper _ (hr d (by simp))

theorem execPfirst_retires (h : s.MayIssue xAll noHint .user) (hr : s.proper [d]) (a : Reg) (p : Fin 8) (t : Fin 16) :
    execPfirst d a p t s = s.retiresF d (BitVec.ofNat 64
      (((List.range (1024 / fmtWidth t.val)).find? (laneOn (fmtWidth t.val) (s.me.pr a.val &&& s.me.pr p.val))).getD
        (1024 / fmtWidth t.val))) := by
  refine xIssue_on h hr rfl ?_
  rw [M.bind_ok (rdP_ok _ s), M.bind_ok (rdP_ok _ s)]
  exact wrF_proper _ (hr d (by simp))

end

/-- Settles O22: each instruction is one of the shapes above, at its own lane function or predicate. -/
theorem vectorResults : Obligations.VectorResults := by
  unfold Obligations.VectorResults
  refine ⟨?lanes, ?predicates⟩
  case lanes =>
    intro s d a b c p t q u hr
    have habcd : s.proper [a, b, c, d] := hr.mono (by simp)
    have habd : s.proper [a, b, d] := hr.mono (by simp)
    have had : s.proper [a, d] := hr.mono (by simp)
    have int {ok} (h : s.MayIssue xAll ok .user) op := vector2_retires h habd op (satHint_ok s) p t
    have flt {ok} (h : s.MayIssue xAll ok .user) op := vector2_retires h habd op (satMode_ok s) p t
    have one {ok} (h : s.MayIssue xAll ok .user) op := vector1_retires h had op p t
    have fused h op := vFma_retires h habcd op q u
    refine ⟨fun h => ?saturating, fun h => ?plain⟩
    case saturating =>
      exact ⟨(exec_vadd ..).trans (int h _), (exec_vsub ..).trans (int h _), (exec_vmul ..).trans (int h _),
        (exec_vsll ..).trans (int h _), (exec_vfadd ..).trans (flt h _), (exec_vfsub ..).trans (flt h _),
        (exec_vfmul ..).trans (flt h _), (exec_vfdiv ..).trans (flt h _), (exec_vfsqrt ..).trans (one h _),
        (exec_vfmadd ..).trans (fused h 0), (exec_vfmsub ..).trans (fused h 1), (exec_vfnmadd ..).trans (fused h 2),
        (exec_vfnmsub ..).trans (fused h 3)⟩
    case plain =>
      exact ⟨(exec_vmin ..).trans (int h _), (exec_vmax ..).trans (int h _), (exec_vabsd ..).trans (int h _),
        (exec_vmulh ..).trans (int h _), (exec_vsra ..).trans (int h _), (exec_vminu ..).trans (int h _),
        (exec_vmaxu ..).trans (int h _), (exec_vand ..).trans (int h _), (exec_vor ..).trans (int h _),
        (exec_vxor ..).trans (int h _), (exec_vsrl ..).trans (int h _), (exec_vmulhu ..).trans (int h _),
        (exec_vfmin ..).trans (flt h _), (exec_vfmax ..).trans (flt h _), (exec_vfabs ..).trans (one h _),
        (exec_vfneg ..).trans (one h _)⟩
  case predicates =>
    intro s d a b p t h hr
    have hab : s.proper [a, b] := hr.mono (by simp)
    have hd : s.proper [d] := hr.mono (by simp)
    have compare := fun op => vCmp_retires h hab op d.val p t
    have bitwise := fun f m l => predOp_retires h f d.val m l p
    exact ⟨(exec_vfeq ..).trans (compare _), (exec_vflt ..).trans (compare _), (exec_vfle ..).trans (compare _),
      (exec_vcmpeq ..).trans (compare _), (exec_vcmplt ..).trans (compare _), (exec_vcmpltu ..).trans (compare _),
      (exec_vcmple ..).trans (compare _), (exec_vcmpleu ..).trans (compare _),
      (exec_pand ..).trans (bitwise _ _ _), (exec_por ..).trans (bitwise _ _ _), (exec_pxor ..).trans (bitwise _ _ _),
      (exec_pnot ..).trans (bitwise _ _ _), (exec_loopp ..).trans (execLoopp_retires h hab d p t),
      (exec_pcnt ..).trans (execPcnt_retires h hd a p t), (exec_pfirst ..).trans (execPfirst_retires h hd a p t)⟩

/-! ## Permutes (R184) -/

theorem lane_ite (w x y i : Nat) (c : Prop) [Decidable c] :
    lane w (if c then x else y) i = if c then lane w x i else lane w y i := apply_ite (lane w · i) c x y

section
variable {s : State} {d a b : Reg}

theorem permute_retires (h : s.MayIssue xAll noHint .user) {l : List Reg} (hr : s.proper (l ++ [d])) {ops : List Opnd}
    (ho : ops.map Opnd.reg = l.map Fin.val) {src : M (Nat → Nat → Nat → Nat)} {f : Nat → Nat → Nat → Nat}
    (hf : src s = .ok (f, s)) (p : Fin 8) (t : Fin 16) :
    permute ops src d p t s = s.retires (s.lanesV (fmtWidth t.val) (s.me.pr p.val) d fun i =>
      (f (fmtWidth t.val) (1024 / fmtWidth t.val) i % 2 ^ fmtWidth t.val, fNone)) := by
  refine xIssue_on h hr (by simp [ho, vOut]) ?_
  rw [M.bind_ok hf, M.bind_ok (rdP_ok _ s)]
  exact putLanesV_proper _ _ _ (hr d (by simp))

theorem permute_source_v (hr : s.proper [a]) (f : VWord → Nat → Nat → Nat → Nat) :
    (do let x ← rdV a; return f x : M (Nat → Nat → Nat → Nat)) s = .ok (f (s.me.vr a.val), s) := by
  rw [M.bind_ok (rdV_proper (hr a (by simp)))]; rfl

theorem permute_source_f (hr : s.proper [a]) (f : Word → Nat → Nat → Nat → Nat) :
    (do let x ← rdF a; return f x : M (Nat → Nat → Nat → Nat)) s = .ok (f (s.me.fr a.val), s) := by
  rw [M.bind_ok (rdF_proper (hr a (by simp)))]; rfl

theorem permute_source_vv (hr : s.proper [a, b]) (f : VWord → VWord → Nat → Nat → Nat → Nat) :
    (do let x ← rdV a; let y ← rdV b; return f x y : M (Nat → Nat → Nat → Nat)) s =
      .ok (f (s.me.vr a.val) (s.me.vr b.val), s) := by
  rw [M.bind_ok (rdV_proper (hr a (by simp))), M.bind_ok (rdV_proper (hr b (by simp)))]; rfl

theorem permute_source_vf (hr : s.proper [a, b]) (f : VWord → Word → Nat → Nat → Nat → Nat) :
    (do let x ← rdV a; let y ← rdF b; return f x y : M (Nat → Nat → Nat → Nat)) s =
      .ok (f (s.me.vr a.val) (s.me.fr b.val), s) := by
  rw [M.bind_ok (rdV_proper (hr a (by simp))), M.bind_ok (rdF_proper (hr b (by simp)))]; rfl

/-- The two operands of VZIP give the even and the odd lanes. -/
theorem execVzip_retires (h : s.MayIssue xAll noHint .user) (hr : s.proper [a, b, d]) (p : Fin 8) (t : Fin 16) :
    execVzip d a b p t s = s.retires (s.lanesV (fmtWidth t.val) (s.me.pr p.val) d fun i =>
      ((if i % 2 = 0 then lane (fmtWidth t.val) (s.me.vr a.val).toNat (i / 2)
        else lane (fmtWidth t.val) (s.me.vr b.val).toNat (i / 2)) % 2 ^ fmtWidth t.val, fNone)) := by
  refine (permute_retires h (l := [a, b]) hr rfl (permute_source_vv (hr.mono (by simp)) _) p t).trans ?_
  simp only [lane_ite]

theorem execVexpnd_retires (h : s.MayIssue xAll noHint .user) (hr : s.proper [a, d]) (p : Fin 8) (t : Fin 16) :
    execVexpnd d a p t s = s.retires (s.lanesV (fmtWidth t.val) (s.me.pr p.val) d fun i =>
      (lane (fmtWidth t.val) (s.me.vr a.val).toNat ((List.range i).countP (laneOn (fmtWidth t.val) (s.me.pr p.val))), fNone)) := by
  refine xIssue_on h hr rfl ?_
  simp only [List.countP_eq_length_filter]
  rw [M.bind_ok (rdV_proper (hr a (by simp))), M.bind_ok (rdP_ok _ s)]
  exact putLanesV_proper _ _ _ (hr d (by simp))

theorem execVcompr_retires (h : s.MayIssue xAll noHint .user) (hr : s.proper [a, d]) (p : Fin 8) (t : Fin 16) :
    execVcompr d a p t s = s.retiresV d (BitVec.ofNat 1024 (packLanes (fmtWidth t.val)
      (((List.range (1024 / fmtWidth t.val)).filter (laneOn (fmtWidth t.val) (s.me.pr p.val))).map
        (lane (fmtWidth t.val) (s.me.vr a.val).toNat)))) := by
  refine xIssue_on h hr rfl ?_
  rw [M.bind_ok (rdV_proper (hr a (by simp))), M.bind_ok (rdP_ok _ s)]
  exact wrV_proper _ _ (hr d (by simp))

theorem execVsel_retires (h : s.MayIssue xAll noHint .user) (hr : s.proper [a, b, d]) (p : Fin 8) (t : Fin 16) :
    execVsel d a b p t s = s.retiresV d (BitVec.ofNat 1024 (packLanes (fmtWidth t.val)
      ((List.range (laneCount (fmtWidth t.val) 1024)).map fun i =>
        if laneOn (fmtWidth t.val) (s.me.pr p.val) i then lane (fmtWidth t.val) (s.me.vr a.val).toNat i
        else lane (fmtWidth t.val) (s.me.vr b.val).toNat i))) := by
  refine xIssue_on h hr rfl ?_
  rw [M.bind_ok (rdV_proper (hr a (by simp))), M.bind_ok (rdV_proper (hr b (by simp))), M.bind_ok (rdP_ok _ s)]
  exact wrV_proper _ _ (hr d (by simp))

/-! ## Reductions and selection (R185, R186) -/

theorem reduceV_retires (h : s.MayIssue xAll noHint .user) (hr : s.proper [a, d]) (op : Nat) (p : Fin 8) (t : Fin 16) :
    reduceV op d a p t s =
      (let r := reduceOf op t.val s.me.rm s.satOn (s.me.vr a.val).toNat (laneOn (fmtWidth t.val) (s.me.pr p.val))
       s.retires (s.flaggedF d r.1 r.2)) := by
  refine xIssue_on h hr rfl ?_
  rw [M.bind_ok (rdV_proper (hr a (by simp))), M.bind_ok (rdP_ok _ s), M.bind_ok (roundMode_ok s), M.bind_ok (satMode_ok s)]
  exact wrF_raise_proper (hr.mono (by simp)) _ _

/-- The lanes that VTOPK selects of x under the predicate g, best first, f[b] being y (R186). -/
def topkLanes (t x y : Nat) (g : PWord) : List Nat :=
  topLanes (fun i => rankOf t (lane 32 x i)) (min (bits y 0 5) 16) ((List.range 32).filter (laneOn 32 g))

/-- The lanes of VTOPK's result: sixteen values, then sixteen indices from the base in y's upper half (R186). -/
def topkResult (t x y : Nat) (g : PWord) : List Nat :=
  ((List.range 16).map fun q => match (topkLanes t x y g)[q]? with | some i => lane 32 x i | none => 0) ++
  (List.range 16).map fun q => match (topkLanes t x y g)[q]? with | some i => y / 2 ^ 32 + i | none => 0xFFFFFFFF

theorem execVtopk_retires (h : s.MayIssue xAll noHint .user) (hr : s.proper [a, b, d]) (p : Fin 8) (t : Fin 16) :
    execVtopk d a b p t s = s.retiresV d (BitVec.ofNat 1024 (packLanes 32
      (topkResult t.val (s.me.vr a.val).toNat (s.me.fr b.val).toNat (s.me.pr p.val)))) := by
  refine xIssue_on h hr rfl ?_
  rw [M.bind_ok (rdV_proper (hr a (by simp))), M.bind_ok (rdF_proper (hr b (by simp))), M.bind_ok (rdP_ok _ s)]
  exact wrV_proper _ _ (hr d (by simp))

/-! ## Special forms (R188 to R192) -/

theorem execVlq_retires (h : s.MayIssue xAll noHint .user) (hr : s.proper [d]) : execVlq d s = s.retiresF d 1024 :=
  xIssue_on h hr rfl (wrF_proper _ (hr d (by simp)))

theorem execVmovf_retires (h : s.MayIssue xAll noHint .user) (hr : s.proper [a, b, d]) (t : Fin 16) :
    execVmovf d a b t s = s.retiresF d (if (s.me.fr b.val).toNat < 1024 / fmtWidth t.val then
      BitVec.ofNat 64 (lane (fmtWidth t.val) (s.me.vr a.val).toNat (s.me.fr b.val).toNat) else 0) := by
  refine xIssue_on h hr rfl ?_
  rw [M.bind_ok (rdV_proper (hr a (by simp))), M.bind_ok (rdF_proper (hr b (by simp)))]
  exact wrF_proper _ (hr d (by simp))

theorem execVppe_retires (h : s.MayIssue xAll noHint .user) (hr : s.proper [a, d]) (k : Reg) (p : Fin 8) :
    execVppe d a k p s = s.retires (s.lanesV 32 (s.me.pr p.val) d fun i =>
      ppeEval s.me k.val (lane 32 (s.me.vr a.val).toNat i)) := by
  refine xIssue_on h hr rfl ?_
  rw [M.bind_ok (rdV_proper (hr a (by simp))), M.bind_ok (rdP_ok _ s), M.bind_ok (myCore_ok s)]
  exact putLanesV_proper _ _ _ (hr d (by simp))

theorem execVrng_retires (h : s.MayIssue xAll noHint .user) (hr : s.proper [a, b, d]) (p : Fin 8) (t : Fin 16) :
    execVrng d a b p t s = s.retires (s.lanesV (fmtWidth t.val) (s.me.pr p.val) d fun i =>
      ((rngOf ((s.me.vr b.val).setWidth 64) ((s.me.vr b.val >>> 64).setWidth 64) (s.me.fr a.val + BitVec.ofNat 64 i)).toNat %
        2 ^ fmtWidth t.val, fNone)) := by
  refine xIssue_on h hr rfl ?_
  rw [M.bind_ok (rdF_proper (hr a (by simp))), M.bind_ok (rdV_proper (hr b (by simp))), M.bind_ok (rdP_ok _ s)]
  exact putLanesV_proper _ _ _ (hr d (by simp))

/-- A core with the words of table k from 32·q on loaded from the lanes of x active under g, as far as the table reaches (R190). -/
def Core.ppeLoaded (c : Core) (k q x : Nat) (g : PWord) : Core :=
  (List.range 32).foldl (fun c i =>
    if laneOn 32 g i ∧ q * 32 + i < 384 then
      { c with ppe := Tbl.set 0 c.ppe (384 * k + q * 32 + i) (BitVec.ofNat 32 (lane 32 x i)) }
    else c) c

theorem execPpld_retires (h : s.MayIssue xAll noHint .user) (hr : s.proper [a, b]) (k : Reg) (p : Fin 8) :
    execPpld k a b p s = s.retires (s.mine fun c =>
      c.ppeLoaded k.val (s.me.fr b.val).toNat (s.me.vr a.val).toNat (s.me.pr p.val)) := by
  refine xIssue_on h hr rfl ?_
  rw [M.bind_ok (rdV_proper (hr a (by simp))), M.bind_ok (rdF_proper (hr b (by simp))), M.bind_ok (rdP_ok _ s)]
  exact updMy_ok _ s

/-- VCVT lays its lanes out as FCVT does, over the whole register (R178, R187). -/
theorem execVcvt_retires (h : s.MayIssue xAll satX .user) (hr : s.proper [a, d]) (p : Fin 8) (t u : Fin 16) :
    execVcvt d a t p u s =
      (let r := convertLanes t.val u.val 1024 s.me.rm s.satOn (s.hintBit 0) (s.me.pr p.val) (s.me.vr d.val).toNat
        (s.me.vr a.val).toNat
       s.retires (s.flaggedV d (BitVec.ofNat 1024 r.1) r.2)) := by
  refine xIssue_on h hr rfl ?_
  rw [M.bind_ok (rdV_proper (hr a (by simp))), M.bind_ok (rdP_ok _ s), M.bind_ok (roundMode_ok s), M.bind_ok (satMode_ok s),
    M.bind_ok (satHint_ok s), M.bind_ok (oldV_proper (hr d (by simp)))]
  exact wrV_raise_proper (hr.mono (by simp)) _ _ _

end

/-- Settles O24: a permute by the lanes it draws from its operands, every other form by its own law above. -/
theorem permuteAndReductionResults : Obligations.PermuteAndReductionResults := by
  unfold Obligations.PermuteAndReductionResults
  refine ⟨?permutes, ?others⟩
  case permutes =>
    intro s d a b p t h hr
    have hab : s.proper [a, b] := hr.mono (by simp)
    have ha : s.proper [a] := hr.mono (by simp)
    have habd : s.proper [a, b, d] := hr.mono (by simp)
    have had : s.proper [a, d] := hr.mono (by simp)
    have fromVV := fun f => permute_retires h (l := [a, b]) (ops := [vIn a, vIn b]) habd rfl (permute_source_vv hab f) p t
    have fromVF := fun f => permute_retires h (l := [a, b]) (ops := [vIn a, fIn b]) habd rfl (permute_source_vf hab f) p t
    have fromV := fun f => permute_retires h (l := [a]) (ops := [vIn a]) had rfl (permute_source_v ha f) p t
    have fromF := fun f => permute_retires h (l := [a]) (ops := [fIn a]) had rfl (permute_source_f ha f) p t
    exact ⟨(exec_vperm ..).trans (fromVV _), (exec_vbcast ..).trans (fromF _), (exec_vslup ..).trans (fromVF _),
      (exec_vsldn ..).trans (fromVF _), (exec_vzip ..).trans (execVzip_retires h habd p t), (exec_vunzip ..).trans (fromVV _),
      (exec_vrev ..).trans (fromV _), (exec_vexpnd ..).trans (execVexpnd_retires h had p t),
      (exec_vcompr ..).trans (execVcompr_retires h had p t), (exec_vsel ..).trans (execVsel_retires h habd p t)⟩
  case others =>
    intro s d a b k p t u hr
    have habd : s.proper [a, b, d] := hr.mono (by simp)
    have hab : s.proper [a, b] := hr.mono (by simp)
    have had : s.proper [a, d] := hr.mono (by simp)
    have hd : s.proper [d] := hr.mono (by simp)
    refine ⟨fun h => ?_, fun h => (exec_vcvt ..).trans (execVcvt_retires h had p t u)⟩
    have reduce := fun op => reduceV_retires h had op p t
    exact ⟨(exec_vrsum ..).trans (reduce 0), (exec_vrmax ..).trans (reduce 1), (exec_vrmin ..).trans (reduce 2),
      (exec_vlq ..).trans (execVlq_retires h hd), (exec_vmovf ..).trans (execVmovf_retires h habd t),
      (exec_vtopk ..).trans (execVtopk_retires h habd p t), (exec_vppe ..).trans (execVppe_retires h had k p),
      (exec_vrng ..).trans (execVrng_retires h habd p t), (exec_ppld ..).trans (execPpld_retires h hab k p)⟩

end Sys2Proof.Machine

/-! Rotated register groups, sign registers and the expansions of a memory core (R194, R200, R206 to R209, R315 to R317). -/

namespace Sys2Proof.Machine

/-! ## Groups of registers that are no stream aliases (R206) -/

theorem Core.alias?_setV (k : Core) (n : Nat) (w : VWord) (r : Nat) : (k.setV n w).alias? r = k.alias? r := rfl

theorem State.proper.setV {s : State} {l : List Reg} (h : s.proper l) (n : Nat) (w : VWord) :
    (s.mine fun k => k.setV n w).proper l := fun r hr => by rw [State.me_mine, Core.alias?_setV, h r hr]

theorem mapM_rdV_proper {s : State} {l : List Reg} (h : s.proper l) :
    l.mapM rdV s = .ok (l.map fun r => s.me.vr r.val, s) := by
  induction l with
  | nil => rfl
  | cons r rs ih =>
    rw [List.mapM_cons, M.bind_ok (rdV_proper (h r (by simp))), M.bind_ok (ih (h.mono (by simp)))]
    rfl

/-- Each register's vector, packed from lanes of width w, written in order. -/
def State.putPacked (s : State) (w : Nat) (l : List (Reg × List (Nat × Flags))) : State :=
  l.foldl (fun (x : State) r => x.mine fun k => k.setV r.1.val (BitVec.ofNat 1024 (packLanes w (r.2.map (·.1))))) s

theorem forIn_wrV_packed (w : Nat) (m : PWord) (l : List (Reg × List (Nat × Flags))) {s : State}
    (h : s.proper (l.map Prod.fst)) :
    (forIn l PUnit.unit fun r _ => do
      wrV r.1 (BitVec.ofNat 1024 (packLanes w (r.2.map (·.1)))) m
      pure (ForInStep.yield PUnit.unit) : M PUnit) s = .ok (PUnit.unit, s.putPacked w l) := by
  induction l generalizing s with
  | nil => rfl
  | cons r rs ih =>
    rw [List.forIn_cons, bind_assoc, M.bind_ok (wrV_proper _ _ (h r.1 (by simp))), pure_bind]
    have later : s.proper (rs.map Prod.fst) := h.mono (by simp)
    exact ih (later.setV _ _)

theorem State.proper.zip {s : State} {l : List Reg} (h : s.proper l) {β : Type} (l' : List β) :
    s.proper ((l.zip l').map Prod.fst) :=
  h.mono fun _ hr => by
    obtain ⟨x, hx, rfl⟩ := List.mem_map.1 hr
    exact (List.of_mem_zip hx).1

theorem checkAliases_on {s : State} {ops : List Opnd} {l : List Reg} (h : s.proper l) (ho : ops.map Opnd.reg = l.map Fin.val) :
    checkAliases ops s = .ok ((), s) := by
  refine checkAliases_proper ops fun o hm => ?_
  obtain ⟨r, hr, e⟩ := List.mem_map.1 (ho ▸ List.mem_map_of_mem hm)
  exact e ▸ h r hr

theorem checkAliases_groups {s : State} {l l' : List Reg} (h : s.proper l) (h' : s.proper l') :
    checkAliases (l.map vIn ++ l'.map vOut) s = .ok ((), s) := by
  have both : s.proper (l ++ l') := fun r hr => (List.mem_append.1 hr).elim (h r) (h' r)
  refine checkAliases_on both ?_
  rw [List.map_append, List.map_append, List.map_map, List.map_map]
  rfl

/-! ## Rotation of a group (R206 to R208) -/

/-- How many registers a group has: what holds one block, at least one (R206). -/
def groupSize (q : SignReg) (src dst : Fin 16) : Nat :=
  max 1 (blockOf q.blk.toNat / convLanes (fmtWidth src.val) (fmtWidth dst.val) 1024)

/-- The lanes of the group at a, block by block through f (R206). -/
def State.groupOut (s : State) (f : List Num → List (Nat × Flags)) (a : Reg) (q : SignReg) (src dst : Fin 16) : List (Nat × Flags) :=
  let n := convLanes (fmtWidth src.val) (fmtWidth dst.val) 1024
  let g := groupSize q src dst
  let lanes := ((groupRegs a g).map fun x =>
    (List.range n).map fun i => numOf src.val (lane (fmtWidth src.val) (s.me.vr x.val).toNat i)).flatten
  ((chunks (blockOf q.blk.toNat) (g * n / blockOf q.blk.toNat) lanes).map f).flatten

/-- The state with that result in the group at d and its flags raised (R206, R69). -/
def State.groupRotated (s : State) (f : List Num → List (Nat × Flags)) (d a : Reg) (q : SignReg) (src dst : Fin 16) : State :=
  let out := s.groupOut f a q src dst
  (s.putPacked (fmtWidth dst.val) ((groupRegs d (groupSize q src dst)).zip
    (chunks (convLanes (fmtWidth src.val) (fmtWidth dst.val) 1024) (groupSize q src dst) out))).mine fun c =>
      c.raised (out.foldl (fun fl x => fl ||| x.2) fNone)

/-- A rotation form on groups without aliases, its block function fn drawn from the state at issue. -/
theorem rotateGroup_retires {s : State} {ok : Hints} (h : s.MayIssue xAll ok .user)
    {f : SignReg → Nat → M (List Num → List (Nat × Flags))} {d a : Reg} {src dst : Fin 16} {k : Fin 8}
    {fn : List Num → List (Nat × Flags)}
    (hf : f (s.me.signReg k.val) (Nat.log2 (blockOf (s.me.signReg k.val).blk.toNat)) s = .ok (fn, s))
    (ha : s.proper (groupRegs a (groupSize (s.me.signReg k.val) src dst)))
    (hd : s.proper (groupRegs d (groupSize (s.me.signReg k.val) src dst))) :
    rotateGroup ok f d a src k dst s = s.retires (s.groupRotated fn d a (s.me.signReg k.val) src dst) := by
  refine xIssue_retires h (List.forall_mem_nil _) ?_
  unfold groupSize at ha hd
  rw [M.bind_ok (myCore_ok s), M.bind_ok (checkAliases_groups ha hd), M.bind_ok (mapM_rdV_proper ha), M.bind_ok hf, List.map_map]
  exact M.bind_ok (forIn_wrV_packed _ _ _ (hd.zip _))

/-! ## Sign registers (R194, R209) -/

theorem execHsld_retires {s : State} (h : s.MayIssue xAll noHint .user) {a : Reg} (hr : s.proper [a]) (k : Reg) (b : Fin 4) :
    execHsld k a b s = s.retires (s.mine fun c =>
      { c with hs := Tbl.set SignReg.init c.hs k.val ⟨(s.me.vr a.val).setWidth 128, BitVec.ofNat 2 b.val⟩ }) := by
  refine xIssue_on h hr rfl ?_
  rw [M.bind_ok (rdV_proper (hr a (by simp)))]
  exact updMy_ok _ s

theorem execHsrd_retires {s : State} (h : s.MayIssue xAll noHint .user) {d : Reg} (hr : s.proper [d]) (k : Fin 8) :
    execHsrd d k s = s.retiresV d (BitVec.ofNat 1024
      ((s.me.signReg k.val).sign.toNat + (s.me.signReg k.val).blk.toNat * 2 ^ 128)) := by
  refine xIssue_on h hr rfl ?_
  rw [M.bind_ok (myCore_ok s)]
  exact wrV_proper _ _ (hr d (by simp))

/-! ## Expansion of a 2:4 vector (R63, R315) -/

theorem execXexp24_retires {s : State} (h : s.MayIssue xMemory noHint .user) {d a : Reg} (hr : s.proper [a, d]) (n : Reg) :
    execXexp24 d a n s =
      (let w := 4 * 2 ^ n.val
       let out := (List.range (1024 / w / 4)).map (expandField w (s.me.vr a.val).toNat)
       s.retires (s.flaggedV d (BitVec.ofNat 1024 (packLanes w (out.flatMap (·.1)))) (if out.any (·.2) then fNV else fNone))) := by
  refine issue_retires h ?_
  rw [M.bind_ok (checkAliases_on hr rfl), M.bind_ok (rdV_proper (hr a (by simp)))]
  exact wrV_raise_proper (hr.mono (by simp)) _ _ _

/-! ## A state with an address noted: what it reads is what it read before -/

@[simp] theorem State.noted_cur (s : State) (ea : Nat) : (s.noted ea).cur = s.cur := rfl
@[simp] theorem State.noted_mark (s : State) (ea g : Nat) : (s.noted ea).mark g = s.mark g := rfl
@[simp] theorem State.noted_xbOf (s : State) (ea : Nat) (c : CoreName) : (s.noted ea).xbOf c = s.xbOf c := rfl

@[simp] theorem State.noted_readLE (s : State) (ea a n : Nat) : (s.noted ea).readLE a n = s.readLE a n := by
  induction n generalizing a with
  | zero => rfl
  | succ n ih => exact congrArg (_ + 256 * ·) (ih _)

@[simp] theorem State.noted_words (s : State) (ea a n : Nat) : (s.noted ea).words a n = s.words a n := by
  induction n generalizing a with
  | zero => rfl
  | succ n ih => exact congrArg (_ :: ·) (ih _)

theorem State.quiet.noted {s : State} (h : s.quiet) (ea : Nat) : (s.noted ea).quiet := ⟨h.stores, h.records⟩

theorem note_ok (ea : Nat) (s : State) : act (fun s => { s with ea := BitVec.ofNat 64 ea }) s = .ok ((), s.noted ea) := rfl

/-- An aligned extent of own local memory, at or above XB, passes the checks of its address. -/
theorem ownLocal_ok {s : State} {ea n len : Nat} (hx : s.xbOf s.cur ≤ ea) (hl : ea + len ≤ 2 ^ 16) (hp : 0 < len)
    (ha : ea % n = 0) : ownLocal ea n len s = .ok (localBase s.cur + ea, s.noted ea) := by
  have below : ea < 2 ^ 16 := by omega
  unfold ownLocal
  rw [M.bind_ok (note_ok ea s), M.bind_ok (get_ok _), if_neg (by simpa [hx] using below), if_neg (by simp [ha]), if_neg (by omega)]
  rfl

/-- The four words of a descriptor that may be read (R300 step 1). -/
theorem readDesc_ok {s : State} {ea : Nat} (h : s.DescAt ea) : readDesc ea s = .ok (s.descWords ea, s.noted ea) := by
  unfold readDesc readOwn
  rw [M.bind_ok (ownLocal_ok h.own.1 h.own.2 (by decide) h.aligned), M.bind_ok ((h.quiet.noted ea).orders _ _),
    M.bind_ok (ask_ok _ _), checkRead_ok (s := s.noted ea) h.intact, M.bind_ok (granuleTrap_ok _ _ _ _), ask_ok, State.noted_words]
  rfl

/-- Bytes of own local memory with good granules, read at once (R274). -/
theorem readOwnBytes_ok {α : Type} {s : State} {ea a n : Nat} (h : ∀ g ∈ granules a n, s.mark g = .ok) (f : Nat → M α) :
    (do
      granuleTrap ea a (← ask fun s => s.checkRead a n)
      let x ← ask fun s => s.readLE a n
      f x : M α) s = f (s.readLE a n) s := by
  rw [M.bind_ok (ask_ok _ s), checkRead_ok h, M.bind_ok (granuleTrap_ok _ _ _ _), M.bind_ok (ask_ok _ s)]

/-! ## Sums of products of a memory core (R316, R317) -/

/-- The bytes of XBDOT's near vector (R316). -/
def dotBytes (w : List Word) : Nat := dotK w * (fmtWidth (dotXFmt w) / 8)

/-- Its elements as the memory holds them. -/
def State.dotVector (s : State) (w : List Word) : List Exact :=
  (List.range (dotK w)).map fun k => (numOf (dotXFmt w)
    (lane (fmtWidth (dotXFmt w)) (s.readLE (localBase s.cur + dotX w) (dotBytes w)) k)).exact

/-- The reads of the rows leave a state t with the core as it was, so that v[d] and f[b] are still no aliases when they are written. -/
theorem execXbdot_retires {s t : State} (h : s.MayIssue xMemory noHint .user) {d a b : Reg} (hr : s.proper [a, d, b]) {ea : Nat}
    (he : (s.me.fr a.val).toNat = ea) (hd : s.DescAt ea) (hc : dotChecks (s.descWords ea) (s.noted ea) = .ok ((), s.noted ea))
    (hm : ∀ g ∈ granules (localBase s.cur + dotX (s.descWords ea)) (dotBytes (s.descWords ea)), s.mark g = .ok)
    {rows : List (Nat × Flags)}
    (hrows : dotRows (s.descWords ea) (s.dotVector (s.descWords ea)) (s.noted ea) = .ok (rows, t)) (ht : t.me = s.me) :
    execXbdot d a b s = s.retires ((t.mine fun k => k.setV d.val (BitVec.ofNat 1024 (packLanes 32 (rows.map (·.1))))).mine
      fun k => k.setF b.val (BitVec.ofNat 64 (rows.foldl (fun f y => f ||| y.2) fNone).toNat)) := by
  have out : t.proper [d, b] := fun r hx => ht ▸ hr r (List.mem_cons_of_mem a hx)
  unfold dotBytes at hm
  unfold State.dotVector dotBytes at hrows
  refine issue_retires h ?_
  rw [M.bind_ok (checkAliases_on hr rfl), M.bind_ok (rdF_proper (hr a (by simp))), he, M.bind_ok (readDesc_ok hd), M.bind_ok hc,
    M.bind_ok (ask_ok _ _)]
  refine (readOwnBytes_ok (s := s.noted ea) hm _).trans ?_
  rw [State.noted_readLE, M.bind_ok hrows, M.bind_ok (wrV_proper _ _ (out d (by simp)))]
  exact wrF_proper _ (out.setV _ _ b (by simp))

/-- Settles O52: each instruction by its own law above; on a group, the block function is the one that the mode at issue gives. -/
theorem rotationAndExpandResults : Obligations.RotationAndExpandResults := by
  unfold Obligations.RotationAndExpandResults
  refine ⟨fun s d a t u k h b => ⟨fun ha hd => ⟨fun hi => ?vcvtr, fun hi => ?vderot⟩,
      fun hi => ⟨fun hr => ?hsld, fun hr => ?hsrd⟩⟩,
    fun s d a b n hi hr => ⟨?xexp24, ?xbdot⟩⟩
  case vcvtr => exact (exec_vcvtr ..).trans (rotateGroup_retires hi (M.bind_ok (satMode_ok s)) ha hd)
  case vderot =>
    exact (exec_vderot ..).trans
      (rotateGroup_retires hi ((M.bind_ok (roundMode_ok s)).trans (M.bind_ok (satMode_ok s))) ha hd)
  case hsld => exact (exec_hsld ..).trans (execHsld_retires hi hr h b)
  case hsrd => exact (exec_hsrd ..).trans (execHsrd_retires hi hr k)
  case xexp24 => exact (exec_xexp24 ..).trans (execXexp24_retires hi (hr.mono (by simp)) n)
  case xbdot =>
    intro ea w size at_ x hdesc hc hm rows t hrows _ ht
    exact (exec_xbdot ..).trans (execXbdot_retires hi (hr.mono (by simp)) rfl hdesc hc hm hrows ht)

end Sys2Proof.Machine
